-- ==== Sys2Proof/Word.lean ====
section
/-! DEFINITION. The word types: a 32-bit register word and a byte (R7, R8). -/

namespace Sys2Proof

/-- A register value or a payload word. -/
abbrev Word := BitVec 32

/-- One byte of a line or a payload. -/
abbrev Byte := BitVec 8

/-- A 64 B line, byte 0 in bits 7:0 (R7). -/
abbrev Line := BitVec 512

end Sys2Proof
end

