-- ==== Sys2Proof/Syntax.lean ====
section
/-! DEFINITION. The commands of the engine: one constructor for each row of the opcode table, with the
operands that its event carries, and the records that they are made of. -/

namespace Sys2Proof

/-- The result of a training step for one lane of a physical rank and subchannel, placed as the lane's
register has it (R250). -/
structure LaneVal where
  prank : Fin 4
  sc : Fin 2
  lane : Fin 69
  value : Word
  deriving DecidableEq, Repr

/-- A centering sweep of a strobe (R228): at each Vref code the first and last passing delay of its four
lanes; a lane whose first lies above its last does not pass there. -/
structure Sweep where
  prank : Fin 4
  sc : Fin 2
  strobe : Fin 10
  codes : List (Fin 128 × List (Fin 256 × Fin 256))
  deriving DecidableEq, Repr

/-- The first failing lane of a training step (R227). -/
structure LaneFail where
  prank : Fin 4
  sc : Fin 2
  lane : Fin 69
  deriving DecidableEq, Repr

/-- The fields that the headers of class 0 and class 3 packets share (R72), with the port that takes the
packet; `addr` is ADDR, byte address bits 51:6. -/
structure Hdr where
  port : Fin 128
  agent : Fin 4096
  ctx : Fin 4096
  tag : BitVec 16
  addr : BitVec 46
  qc : Fin 8
  deadline : Option (BitVec 16)
  deriving DecidableEq, Repr

/-- An inbound flit of a request port, as it crosses in a FAB cycle with Pn_IN_VALID high (R39). -/
structure Flit where
  data : BitVec 256
  last : Bool
  bad : Bool
  cls : Fin 4
  deriving DecidableEq, Repr

/-- What a directory lookup's ways read as: without error, with a correctable one, or with an uncorrectable
one (R365). -/
inductive WayErr where
  | clean | ce | ue
  deriving DecidableEq, Repr, Inhabited

/-- Where a register access comes from: the register port (R47), or the internal port of a pair (R481). -/
inductive RegPort where
  | ext | mc01 | mc23
  deriving DecidableEq, Repr

/-- What reads of MEn find: the bits that the devices have turned over in the slots, and which of the bursts had no
preamble (R224). -/
structure ReadBack (w : Nat) where
  err : BitVec w
  miss : BitVec 8
  deriving DecidableEq, Repr

/-- The commands: what reaches the engine from outside, and the events of its own sequencers and firmware. -/
inductive Instr where
  /-- PORST_ASSERT (R55): PORST_N falls. -/
  | porstAssert
  /-- PORST_RELEASE (R439): PORST_N rises. -/
  | porstRelease
  /-- SRST_ASSERT (R55): SRST_N falls. -/
  | srstAssert
  /-- SRST_RELEASE (R439): SRST_N rises. -/
  | srstRelease
  /-- ENG_PRESENT_LOW (R37): ENG_PRESENT falls. -/
  | engPresentLow
  /-- CLOCK_LOSS (R436): a clock is lost; `ref` when the REFCLK monitor reports it, else the lock detector. -/
  | clockLoss (ref : Bool)
  /-- PLL_LOCK (R439): the root PLL locks. -/
  | pllLock
  /-- SUPPLY_OUT_OF_RANGE (R468): a supply monitor leaves its range. -/
  | supplyOutOfRange
  /-- WAKE_N (R52): WAKE_N has stood asserted for a number of ns, or is released where there is none. -/
  | wakeN (held : Option Nat)
  /-- DOORBELL (R48): a pulse on MB_DB_IN[m]. -/
  | doorbell (m : Fin 64)
  /-- ENTROPY_SAMPLE (R53): a raw sample crosses the entropy port. -/
  | entropySample (x : BitVec 16)
  /-- ALERT_ASSERT (R240): CHn_ALERT_N of a module slot is sampled asserted. -/
  | alertAssert (ch : Fin 16) (slot : Fin 2)
  /-- ALERT_CLASSIFY (R214): the assertion has lasted `width` CTL cycles, or longer. -/
  | alertClassify (ch : Fin 16) (slot : Fin 2) (width : Nat)
  /-- CA_PARITY_RECOVERY (R241): the recovery of a module slot. -/
  | caParityRecovery (ch : Fin 16) (slot : Fin 2)
  /-- ALERT_BACKOFF_RFM (R214): the RFM commands of a back-off. -/
  | alertBackoffRfm (ch : Fin 16) (slot : Fin 2)
  /-- TEMP_IBI (R201): hub `hub` of a bus reports a temperature in-band. -/
  | tempIbi (bus : Fin 8) (hub : Fin 4) (temp : BitVec 8)
  /-- I3C_TRANSACTION (R245): one sideband transaction: whether the hub acknowledges, whether an RCD log contradicts the alert (R214), and the bytes read. -/
  | i3cTransaction (bus : Fin 8) (ack : Bool) (bad : Bool) (data : Word)
  /-- PACKET_REWIND (R79): a packet ends with Pn_IN_BAD high. -/
  | packetRewind (port : Fin 128) (flits : List Flit)
  /-- FRAMING_ERROR (R70): a packet breaks the framing. -/
  | framingError (port : Fin 128) (flits : List Flit)
  /-- MEM_RD (R375): a committed class 3 packet; `way` is what the directory ways read as. -/
  | memRd (h : Hdr) (reqSt : Fin 4) (way : WayErr)
  /-- MEM_RD_DATA (R375): a committed class 3 packet; `way` is what the directory ways read as. -/
  | memRdData (h : Hdr) (reqSt : Fin 4) (way : WayErr)
  /-- MEM_INV (R375): a committed class 3 packet; `way` is what the directory ways read as. -/
  | memInv (h : Hdr) (reqSt : Fin 4) (way : WayErr)
  /-- MEM_INV_NT (R40): a committed class 3 packet; `way` is what the directory ways read as. -/
  | memInvNt (h : Hdr) (reqSt : Fin 4) (way : WayErr)
  /-- MEM_CLN_EVCT (R375): a committed class 3 packet; `way` is what the directory ways read as. -/
  | memClnEvct (h : Hdr) (reqSt : Fin 4) (way : WayErr)
  /-- MEM_WR (R21): a committed full-line write. -/
  | memWr (h : Hdr) (poison : Bool) (data : Line) (way : WayErr)
  /-- MEM_WR_PTL (R80): a committed partial write. -/
  | memWrPtl (h : Hdr) (poison : Bool) (mask : BitVec 64) (data : Line) (way : WayErr)
  /-- PLACE_WR (R381): a committed placement write. -/
  | placeWr (h : Hdr) (poison : Bool) (target : Fin 4096) (data : Line) (way : WayErr)
  /-- AGENT_RESET (R363): a committed agent reset notification. -/
  | agentReset (port : Fin 128) (agent : Fin 4096)
  /-- CREDIT_YIELD (R90): a CreditYield with its three counts. -/
  | creditYield (port : Fin 128) (y0 : BitVec 5) (y1 : BitVec 5) (y3 : BitVec 5)
  /-- BI_RSP_I (R384): a committed class 1 packet. -/
  | biRspI (port : Fin 128) (agent : Fin 4096) (bitag : BitVec 12)
  /-- BI_RSP_S (R384): a committed class 1 packet. -/
  | biRspS (port : Fin 128) (agent : Fin 4096) (bitag : BitVec 12)
  /-- BI_CONFLICT (R385): a committed class 1 packet. -/
  | biConflict (port : Fin 128) (agent : Fin 4096) (bitag : BitVec 12)
  /-- BI_RSP_E (R40): a committed class 1 packet. -/
  | biRspE (port : Fin 128) (agent : Fin 4096) (bitag : BitVec 12)
  /-- BI_RSP_I_BLK (R40): a committed class 1 packet. -/
  | biRspIBlk (port : Fin 128) (agent : Fin 4096) (bitag : BitVec 12)
  /-- BI_RSP_S_BLK (R40): a committed class 1 packet. -/
  | biRspSBlk (port : Fin 128) (agent : Fin 4096) (bitag : BitVec 12)
  /-- BI_RSP_E_BLK (R40): a committed class 1 packet. -/
  | biRspEBlk (port : Fin 128) (agent : Fin 4096) (bitag : BitVec 12)
  /-- INBOUND_CREDIT_RETURN (R87): a due credit of a class is pulsed. -/
  | inboundCreditReturn (port : Fin 128) (cls : Fin 4)
  /-- OUTBOUND_CREDIT (R88): a pulse on Pn_OUT_CRED. -/
  | outboundCredit (port : Fin 128) (cls : Fin 4)
  /-- OUTBOUND_SEND (R91): the outbound arbiter of a port sends. -/
  | outboundSend (port : Fin 128)
  /-- QOS_RELEASE (R399): a channel releases heads of its hold queues. -/
  | qosRelease (ch : Fin 16)
  /-- WRITE_QUEUE_ENTRY (R21): the next write of a channel enters its write queue. -/
  | writeQueueEntry (ch : Fin 16)
  /-- RETRY_RELEASE (R357): the retry buffer looks at the entries of a set. -/
  | retryRelease (set : Fin 262144)
  /-- PLACEMENT_PUSH (R381): the next placement push goes on. -/
  | placementPush
  /-- PARTNER_READ_RETURN (R297): the next partner read has returned. -/
  | partnerReadReturn
  /-- MERGE_READ_RETURN (R80): the next merge read has returned. -/
  | mergeReadReturn
  /-- METADATA_READ_RETURN (R337): the next metadata read has returned. -/
  | metadataReadReturn
  /-- SIZE_CLASS_REBUILD (R305): the rebuild of a size-class slot goes on, with the reads of at most `asks` further pairs. -/
  | sizeClassRebuild (asks : Fin 257)
  /-- COUNTER_REBUILD (R334): the next lost counter line is rebuilt. -/
  | counterRebuild
  /-- SHED_RECOMPUTE (R409): the shed sets are recomputed. -/
  | shedRecompute
  /-- PRI_RAMP_UPDATE (R397): the priority ramp moves on. -/
  | priRampUpdate
  /-- AGE_PROMOTE (R146): entries of a channel have reached AGE_CAP. -/
  | agePromote (ch : Fin 16)
  /-- HOTLIST_UPDATE (R418): the hotlist takes a sample. -/
  | hotlistUpdate
  /-- ARB_CONTEST (R172): the contest of the CTL cycle `wait` cycles on. -/
  | arbContest (ch : Fin 16) (wait : Nat)
  /-- SCHED_COMMAND (R147): CA slot `pos` of the CTL cycle `wait` cycles on. -/
  | schedCommand (ch : Fin 16) (sc : Fin 2) (wait : Nat) (pos : Fin 4)
  /-- DEFERRED_COMMAND (R200): the deferred DRFM of a physical rank. -/
  | deferredCommand (ch : Fin 16) (prank : Fin 4)
  /-- READ_BURST_CAPTURE (R224): the next burst of a subchannel; `err` is what the devices and lanes turned over in it. -/
  | readBurstCapture (ch : Fin 16) (sc : Fin 2) (preamble : Bool) (err : BitVec 640)
  /-- OPPORTUNISTIC_DRAIN (R150): a subchannel has had no queued read for IDLE_DRAIN. -/
  | opportunisticDrain (ch : Fin 16) (sc : Fin 2)
  /-- PAGE_IDLE_CLOSE (R144): CA slot `pos` of the CTL cycle `wait` cycles on. -/
  | pageIdleClose (ch : Fin 16) (sc : Fin 2) (wait : Nat) (pos : Fin 4)
  /-- REFRESH_TICK (R197): the interval tick of a physical rank. -/
  | refreshTick (ch : Fin 16) (prank : Fin 4)
  /-- OPPORTUNISTIC_REFRESH (R198): a physical rank has been unaddressed for IDLE_REF. -/
  | opportunisticRefresh (ch : Fin 16) (prank : Fin 4)
  /-- REFRESH_OPERATION (R198): the refresh operation of a physical rank. -/
  | refreshOperation (ch : Fin 16) (prank : Fin 4)
  /-- MITIGATION_OPERATION (R207): the mitigation of a bank. -/
  | mitigationOperation (ch : Fin 16) (sc : Fin 2) (rank : Fin 16) (bg : Fin 8) (bank : Fin 4)
  /-- RFM_OPERATION (R213): the RFMsb of a bank index. -/
  | rfmOperation (ch : Fin 16) (sc : Fin 2) (rank : Fin 16) (bank : Fin 4)
  /-- RG_EPOCH_END (R208): a physical rank has 16,384 credits. -/
  | rgEpochEnd (ch : Fin 16) (prank : Fin 4)
  /-- SCRUB_OPERATION (R262): a scrub operation; `back` is what its reads of four slots find. -/
  | scrubOperation (ch : Fin 16) (back : ReadBack 2560)
  /-- UE_REREAD (R265): the second read of an uncorrectable slot. -/
  | ueReread (ch : Fin 16) (back : ReadBack 640)
  /-- ECS_POLL (R269): the ECS counts, 16 bits by rank, subchannel and device. -/
  | ecsPoll (ch : Fin 16) (counts : BitVec 5120)
  /-- ECC_WINDOW_RESTART (R260): WIN_MS have passed. -/
  | eccWindowRestart (ch : Fin 16)
  /-- TEMP_POLL (R201): hub temperatures by slot and MR4 by physical rank. -/
  | tempPoll (ch : Fin 16) (temps : BitVec 16) (mr4 : BitVec 8)
  /-- MNT_TIME_INTERVAL (R216): the end of a 1 ms interval. -/
  | mntTimeInterval (ch : Fin 16)
  /-- POWER_DOWN_ENTRY (R464): a physical rank has been unaddressed for PDE_IDLE. -/
  | powerDownEntry (ch : Fin 16) (prank : Fin 4)
  /-- TRAINING_UNIT (R231): a training unit and what it measures. -/
  | trainingUnit (ch : Fin 16) (sweeps : List Sweep) (vals : List LaneVal) (fail : Option LaneFail) (counts : BitVec 800)
  /-- SLICE_GAP_EXPIRY (R231): GAP has passed. -/
  | sliceGapExpiry (ch : Fin 16)
  /-- DRIFT_MEASURE (R234): the oscillator counts, 10 bits by physical rank, subchannel and device. -/
  | driftMeasure (ch : Fin 16) (counts : BitVec 800)
  /-- RETRAIN_PERIOD (R233): PERIOD has passed. -/
  | retrainPeriod (ch : Fin 16)
  /-- STEEP_STEP_COMPLETE (R225): an attempt of a Steep step ends; `spd` is what step 0 read and `lat` the alert latency of step 3. -/
  | steepStepComplete (ch : Fin 16) (sweeps : List Sweep) (vals : List LaneVal) (fail : Option LaneFail) (counts : BitVec 800) (spd : Word) (lat : BitVec 8)
  /-- STEEP_TIMEOUT (R227): 1 s has passed. -/
  | steepTimeout (ch : Fin 16)
  /-- OFFLINE_TIMEOUT (R236): 10 ms have passed. -/
  | offlineTimeout (ch : Fin 16)
  /-- WATCHDOG_BITE (R188): the watchdog of the holder reaches its limit. -/
  | watchdogBite (ch : Fin 16)
  /-- SPARE_COPY_LINE (R112): the next line of the sparing copy. -/
  | spareCopyLine (back : ReadBack 640)
  /-- PPR_REPAIR_STEP (R272): the next phase of a repair. -/
  | pprRepairStep (ch : Fin 16) (back : ReadBack 2560)
  /-- RECLAIM_WALK_STEP (R361): the reclaim walk visits a set. -/
  | reclaimWalkStep
  /-- UNENROLL_WALK_STEP (R353): the unenroll walk visits a set. -/
  | unenrollWalkStep
  /-- BI_TIMEOUT (R361): the timer of a snoop reaches its limit. -/
  | biTimeout (bitag : BitVec 12)
  /-- DIR_INIT_COMPLETE (R349): the initialisation ends. -/
  | dirInitComplete
  /-- GRIST_CHECK_COMPLETE (R103): the check ends. -/
  | gristCheckComplete
  /-- WRW_CAPTURE (R574): the capture of a port's bank of the wide-read window. -/
  | wrwCapture (bank : RegPort)
  /-- PARITY_SWEEP (R571): the sweep checks every register. -/
  | paritySweep
  /-- DRBG_RESEED (R320): the DRBG reseeds. -/
  | drbgReseed
  /-- KILN_CALIBRATION (R445): a window of 16,384 ticks ends, `elapsed` CTL cycles on. -/
  | kilnCalibration (elapsed : Nat)
  /-- TB_SYNC_SEND (R125): PERIOD_US has passed. -/
  | tbSyncSend
  /-- TB_SYNC_LOST (R127): four periods have passed; `lower` when a present engine of a lower index has a valid epoch. -/
  | tbSyncLost (lower : Bool)
  /-- RING_MGMT (R124): consecutive valid words on RING_IN, the first one `wait` REG cycles on. -/
  | ringMgmt (words : List (BitVec 16)) (wait : Nat)
  /-- RING_MGMT_ACK (R124): consecutive valid words on RING_IN, the first one `wait` REG cycles on. -/
  | ringMgmtAck (words : List (BitVec 16)) (wait : Nat)
  /-- RING_TB_SYNC (R126): consecutive valid words on RING_IN, the first one `wait` REG cycles on. -/
  | ringTbSync (words : List (BitVec 16)) (wait : Nat)
  /-- RING_FAULT (R128): consecutive valid words on RING_IN, the first one `wait` REG cycles on. -/
  | ringFault (words : List (BitVec 16)) (wait : Nat)
  /-- RING_PRESENCE (R130): consecutive valid words on RING_IN, the first one `wait` REG cycles on. -/
  | ringPresence (words : List (BitVec 16)) (wait : Nat)
  /-- MGMT_RESEND (R124): 20 µs without an acknowledgement. -/
  | mgmtResend (dst : Fin 8)
  /-- FAULT_REPEAT (R128): 1 µs after a FAULT. -/
  | faultRepeat
  /-- PRESENCE_HEARTBEAT (R130): HB_MS has passed. -/
  | presenceHeartbeat
  /-- HEARTBEAT_MISS (R131): three heartbeats of an engine are missed. -/
  | heartbeatMiss (eng : Fin 8)
  /-- PRESENCE_TIMEOUT (R132): 100 µs without the own PRESENCE. -/
  | presenceTimeout
  /-- EPOCH_END (R419): EPOCH_MS has passed. -/
  | epochEnd
  /-- HOTLIST_SORT_DONE (R419): firmware has sorted the snapshot. -/
  | hotlistSortDone
  /-- CLAIM_EXPIRY (R487): CLAIM_TO has passed for a claimed mailbox. -/
  | claimExpiry (m : Fin 64)
  /-- CORE_WATCHDOG_EXPIRY (R478): CORE_WD has passed. -/
  | coreWatchdogExpiry (pair : Fin 2)
  /-- CORE_FAULT (R478): `mem` for local memory, else a lockstep mismatch. -/
  | coreFault (pair : Fin 2) (mem : Bool)
  /-- CORE_RESTART_COMPLETE (R480): `ok` when the repeated check of the image passes. -/
  | coreRestartComplete (pair : Fin 2) (ok : Bool)
  /-- HANDSHAKE_ANSWER (R459): a block of R460 answers; `us` is the time it asks for when it delays. -/
  | handshakeAnswer (block : Fin 32) (us : Nat)
  /-- HANDSHAKE_REASK (R459): a block's delay has passed. -/
  | handshakeReask (block : Fin 32)
  /-- HANDSHAKE_DELAY_LIMIT (R459): a block has delayed for 10 ms. -/
  | handshakeDelayLimit (block : Fin 32)
  /-- YIELD_TIMEOUT (R90): 100 µs without a yield. -/
  | yieldTimeout (port : Fin 128)
  /-- POWER_STEP (R460): the step's actions. -/
  | powerStep
  /-- WAKE_STAGE (R465): a stage's ready signal, `ticks` Kiln ticks on. -/
  | wakeStage (ticks : Nat)
  /-- DUMP_COMPLETE (R548): `us` µs after SAFE, with at most `k` sections. -/
  | dumpComplete (us : Fin 20001) (k : Fin 33)
  /-- QUIET_PERIOD_EXPIRY (R551): QUIET_MS has passed. -/
  | quietPeriodExpiry
  /-- ROLL_CHANNEL (R520): firmware goes on with a roll, or with the drain of an offline RETRAIN. -/
  | rollChannel
  /-- ROLL_ROLLBACK (R522): firmware goes on with a rollback. -/
  | rollRollback
  /-- QUIESCE_STEP (R523): firmware goes on with a quiesced commit. -/
  | quiesceStep
  /-- RECORD_DELIVERY (R512): the next record of a mailbox, or from 64 on of a ring source. -/
  | recordDelivery (box : Fin 72)
  /-- ZEROIZE_RECOVERY (R312): firmware recovers from a zeroization. -/
  | zeroizeRecovery
  /-- BRING_UP_STAGE (R593): firmware goes on with the boot: the minimum times of the modules in ps, by channel and timing field, and whether a hard repair finds a resource. -/
  | bringUpStage (times : List (Fin 16 × Fin 34 × Nat)) (resource : Bool)
  /-- BOOT_FW_STAGE (R588): the boot ROM takes a request. -/
  | bootFwStage
  /-- HELLO (R507): firmware takes the request of a mailbox. -/
  | hello (m : Fin 64)
  /-- BYE (R509): firmware takes the request of a mailbox. -/
  | bye (m : Fin 64)
  /-- ABORT (R513): firmware takes the request of a mailbox. -/
  | abort (m : Fin 64)
  /-- CONFIG_STAGE (R517): firmware takes the request of a mailbox. -/
  | configStage (m : Fin 64)
  /-- CONFIG_COMMIT (R519): firmware takes the request of a mailbox. -/
  | configCommit (m : Fin 64)
  /-- CONFIG_READ (R516): firmware takes the request of a mailbox. -/
  | configRead (m : Fin 64)
  /-- RETRAIN (R516): firmware takes the request of a mailbox. -/
  | retrain (m : Fin 64)
  /-- SPARE (R276): firmware takes the request of a mailbox. -/
  | spare (m : Fin 64)
  /-- PPR (R271): firmware takes the request of a mailbox; `resource` is what MRR of the bank group shows, and `fast` whether the devices repair within the time of a soft repair. -/
  | ppr (m : Fin 64) (resource : Bool) (fast : Bool)
  /-- CTX_CREATE (R321): firmware takes the request of a mailbox. -/
  | ctxCreate (m : Fin 64)
  /-- CTX_DESTROY (R322): firmware takes the request of a mailbox. -/
  | ctxDestroy (m : Fin 64)
  /-- PROT_SET (R315): firmware takes the request of a mailbox. -/
  | protSet (m : Fin 64)
  /-- ENROLL_AGENT (R350): firmware takes the request of a mailbox. -/
  | enrollAgent (m : Fin 64)
  /-- PWR_REQ (R455): firmware takes the request of a mailbox. -/
  | pwrReq (m : Fin 64)
  /-- HOTLIST_READ (R422): firmware takes the request of a mailbox. -/
  | hotlistRead (m : Fin 64)
  /-- DUMP_READ (R550): firmware takes the request of a mailbox. -/
  | dumpRead (m : Fin 64)
  /-- FAULT_CLEAR (R554): firmware takes the request of a mailbox. -/
  | faultClear (m : Fin 64)
  /-- SCRUB (R267): firmware takes the request of a mailbox. -/
  | scrub (m : Fin 64)
  /-- SANITIZE (R323): firmware takes the request of a mailbox. -/
  | sanitize (m : Fin 64)
  /-- FW_STAGE (R524): firmware takes the request of a mailbox. -/
  | fwStage (m : Fin 64)
  /-- FW_ACTIVATE (R525): firmware takes the request of a mailbox. -/
  | fwActivate (m : Fin 64)
  /-- RING_MCI_MESSAGE (R510): firmware takes the first complete message of another engine. -/
  | ringMciMessage (src : Fin 8)
  /-- REGISTER_WRITE (R8): a write access of a byte address. -/
  | registerWrite (rp : RegPort) (addr : BitVec 24) (data : Word)
  /-- SEQ_CLEAR (R8): a write of a SEQ to the status register at an address. -/
  | seqClear (rp : RegPort) (addr : BitVec 24) (seq : BitVec 8)
  /-- WM_NOTICE_CLEAR (R428): a write of a SEQ to TEL_WMk_STATUS. -/
  | wmNoticeClear (rp : RegPort) (k : Fin 16) (seq : BitVec 8)
  /-- QOS_DEGRADED_CLEAR (R411): a write of a SEQ to QOS_DEGRADED. -/
  | qosDegradedClear (rp : RegPort) (seq : BitVec 8)
  /-- ING_ENABLE (R86): a write of GC_ING_CTRL with ING_EN 1. -/
  | ingEnable (rp : RegPort) (data : Word)
  /-- GRIST_ENABLE (R103): a write of GC_GRIST_CTRL with GRIST_EN 1. -/
  | gristEnable (rp : RegPort) (data : Word)
  /-- SPARE_ACTIVATE (R276): a write of GC_SPARE_CTRL with ACTIVE 1. -/
  | spareActivate (rp : RegPort) (data : Word)
  /-- WRW_SELECT (R574): a write of GC_WRW_SEL. -/
  | wrwSelect (rp : RegPort) (data : Word)
  /-- PARITY_INJECT_ARM (R573): a write of GC_PAR_INJ with ARM 1. -/
  | parityInjectArm (rp : RegPort) (data : Word)
  /-- DBG_ENABLE (R579): a write of GC_DBG_CTRL. -/
  | dbgEnable (rp : RegPort) (data : Word)
  /-- DBG_HALT (R580): a write of GC_DBG_CORE with HALT 1. -/
  | dbgHalt (rp : RegPort) (data : Word)
  /-- DBG_STEP (R580): a write of GC_DBG_CORE with STEP 1. -/
  | dbgStep (rp : RegPort) (data : Word)
  /-- DBG_RESUME (R580): a write of GC_DBG_CORE with RESUME 1. -/
  | dbgResume (rp : RegPort) (data : Word)
  /-- FAULT_INJECT (R557): a write of FLT_INJECT with GO 1. -/
  | faultInject (rp : RegPort) (data : Word)
  /-- HIST_POP (R536): a write of p to FLT_HIST_POP. -/
  | histPop (rp : RegPort) (p : BitVec 6)
  /-- TEL_SNAP (R425): a write of TEL_CTRL with SNAP 1. -/
  | telSnap (rp : RegPort) (data : Word)
  /-- TEL_CNT_CLR (R425): a write of TEL_CTRL with CNT_CLR 1. -/
  | telCntClr (rp : RegPort) (data : Word)
  /-- TEL_ENABLE (R420): a write of TEL_CTRL. -/
  | telEnable (rp : RegPort) (data : Word)
  /-- WM_CONFIG_WRITE (R429): a write of TEL_WMk_CFG. -/
  | wmConfigWrite (rp : RegPort) (k : Fin 16) (data : Word)
  /-- ECC_CNT_CLR (R280): a write of CH_ECC_CTRL with CNT_CLR 1. -/
  | eccCntClr (rp : RegPort) (ch : Fin 16) (data : Word)
  /-- ECC_MARK_WRITE (R258): a write of CH_ECC_MARKm. -/
  | eccMarkWrite (rp : RegPort) (ch : Fin 16) (mk : Fin 8) (data : Word)
  /-- STEEP_START (R225): a write of CH_TRN_CMD with GO 1 and MODE 0. -/
  | steepStart (rp : RegPort) (ch : Fin 16) (data : Word)
  /-- ONLINE_RUN_START (R230): a write of CH_TRN_CMD with GO 1 and MODE 1. -/
  | onlineRunStart (rp : RegPort) (ch : Fin 16) (data : Word)
  /-- OFFLINE_RUN_START (R235): a write of CH_TRN_CMD with GO 1 and MODE 2. -/
  | offlineRunStart (rp : RegPort) (ch : Fin 16) (data : Word)
  /-- I3C_GO (R251): a write of CH_I3C_CMD with GO 1. -/
  | i3cGo (rp : RegPort) (bus : Fin 8) (data : Word)
  /-- SCHED_ENABLE (R168): a write of CH_SCHED_CTRL with SCHED_EN 1. -/
  | schedEnable (rp : RegPort) (ch : Fin 16) (data : Word)
  /-- SCHED_DISABLE (R166): a write of CH_SCHED_CTRL with SCHED_EN 0. -/
  | schedDisable (rp : RegPort) (ch : Fin 16) (data : Word)
  /-- REF_ENABLE (R197): a write of CH_REF_CTRL with REF_EN 1. -/
  | refEnable (rp : RegPort) (ch : Fin 16) (data : Word)
  /-- RG_ENABLE (R212): a write of CH_RG_CTRL with RG_EN 1. -/
  | rgEnable (rp : RegPort) (ch : Fin 16) (data : Word)
  /-- TRN_ENABLE (R248): a write of CH_TRN_CTRL with TRN_EN 1. -/
  | trnEnable (rp : RegPort) (ch : Fin 16) (data : Word)
  /-- SCRUB_ENABLE (R280): a write of CH_SCRUB_CTRL with SCRUB_EN 1. -/
  | scrubEnable (rp : RegPort) (ch : Fin 16) (data : Word)
  /-- DIR_ENABLE (R349): a write of DIR_CTRL with DIR_EN 1. -/
  | dirEnable (rp : RegPort) (data : Word)
  /-- CRY_ENABLE (R341): a write of CRY_CTRL with CRY_EN 1. -/
  | cryEnable (rp : RegPort) (data : Word)
  /-- CRY_LOCK (R340): a write of CRY_CTRL with LOCK 1. -/
  | cryLock (rp : RegPort) (data : Word)
  /-- QOS_ENABLE (R398): a write of QOS_CTRL with QOS_EN 1. -/
  | qosEnable (rp : RegPort) (data : Word)
  /-- QOS_COMMIT (R413): a write of QOS_CTRL with COMMIT 1. -/
  | qosCommit (rp : RegPort) (data : Word)
  /-- RING_ENABLE (R130): a write of RING_CTRL with RING_EN 1. -/
  | ringEnable (rp : RegPort) (data : Word)
  /-- ARB_PRIO_WRITE (R182): a write of CH_ARB_PRIO. -/
  | arbPrioWrite (rp : RegPort) (ch : Fin 16) (data : Word)
  /-- ARB_CTRL_WRITE (R184): a write of CH_ARB_CTRL. -/
  | arbCtrlWrite (rp : RegPort) (ch : Fin 16) (data : Word)
  /-- TB_SET (R444): a write of PWR_TB_SETC with GO 1. -/
  | tbSet (rp : RegPort) (data : Word)
  /-- PWR_CMD_GO (R455): a write of PWR_CMD with GO 1. -/
  | pwrCmdGo (rp : RegPort) (data : Word)
  /-- MAILBOX_PAYLOAD_WRITE (R485): a write of a payload word. -/
  | mailboxPayloadWrite (rp : RegPort) (m : Fin 64) (ix : Fin 64) (data : Word)
  /-- MAILBOX_CONSUME (R485): a write of MBX_MBm_CMD with CONSUME 1. -/
  | mailboxConsume (rp : RegPort) (m : Fin 64)
  /-- MAILBOX_RING (R485): a write of MBX_MBm_CMD with RING 1. -/
  | mailboxRing (rp : RegPort) (m : Fin 64)
  /-- MAILBOX_RELEASE (R485): a write of MBX_MBm_CMD with RELEASE 1. -/
  | mailboxRelease (rp : RegPort) (m : Fin 64)
  /-- MBX_LOCK (R482): a write of MBX_CTRL with LOCK 1. -/
  | mbxLock (rp : RegPort) (data : Word)
  /-- CORE_KICK (R478): a write of MBX_CORE_KICK with KICK 1. -/
  | coreKick (rp : RegPort) (data : Word)
  /-- SEM_ACQ (R494): a write of MBX_SEMs_OP with ACQ 1, KIND and ID. -/
  | semAcq (rp : RegPort) (sem : Fin 64) (kind : Bool) (id : BitVec 12)
  /-- SEM_REL (R494): a write of MBX_SEMs_OP with REL 1, KIND and ID. -/
  | semRel (rp : RegPort) (sem : Fin 64) (kind : Bool) (id : BitVec 12)
  /-- SEM_CLR_ABN (R494): a write of MBX_SEMs_OP with CLR_ABN 1, KIND and ID. -/
  | semClrAbn (rp : RegPort) (sem : Fin 64) (kind : Bool) (id : BitVec 12)
  /-- PAR_WIN_EXPIRY (R224): PAR_WIN has passed after a burst without a preamble. -/
  | parWinExpiry (ch : Fin 16) (sc : Fin 2)
  /-- ENTROPY_WAIT_EXPIRY (R320): 10 ms without healthy entropy. -/
  | entropyWaitExpiry
  /-- RECOVERY_WINDOW_EXPIRY (R553): an automatic recovery leaves the last 86,400 s. -/
  | recoveryWindowExpiry
  /-- SUPPLIES_RISE (R469): the supplies enter their ranges. -/
  | suppliesRise
  /-- SUPPLY_LOSS (R56): the supplies are lost. -/
  | supplyLoss
  deriving DecidableEq, Repr

end Sys2Proof
end

