-- ==== Sys2Proof/Decode.lean ====
section
/-! DEFINITION. The commands that the opcode table spells in bits: it gives no row any bits. -/

namespace Sys2Proof

/-- The command that a word spells by the table's bits: none, as no row of the table has bits. -/
def decodeTableWord (_nbits _w : Nat) : Option Instr := none

end Sys2Proof
end

