-- ==== Sys2Proof/Config.lean ====
section
/-! DEFINITION. What an implementation fixes and what the manual leaves open: constants without a
body, so that no proof can see a value of one. -/

namespace Sys2Proof

/-- A choice that the manual leaves open, by the index of the draw: which free BITAG a snoop takes
(R360), and the like. -/
opaque Config.choice : Nat → Nat

/-- The debug-lock fuse (R578). -/
opaque Config.dbgLock : Bool

/-- The fused MIN_SVN (R340). -/
opaque Config.minSvn : BitVec 16

/-- The sampler's pseudo-random word: the generator of R417 is not given, only its seed. -/
opaque Config.sampleWord : BitVec 256 → Nat → BitVec 32

/-- What a DRAM slot holds after the contents of its channel were lost for the `n`th time, by location. -/
opaque Config.powerUp : Nat → Nat → BitVec 640

/-- The pattern that training writes into a training line (R236). -/
opaque Config.trainPattern : Nat → BitVec 640

/-- S of R152 where TCCD_S is 0: the quotient is not stated. -/
opaque Config.staggerCorner : Nat → Nat

/-- What the ways that a directory lookup reads show, by the index of the draw, where no command says it: a lookup from
the retry buffer, of a held write, of a push, or of a walk (R365). -/
opaque Config.wayRead : Nat → WayErr

/-- The fixed key of the conditioning component (R320). -/
opaque Config.condKey : BitVec 256

/-- The fused key hashes that are not revoked (R339). -/
opaque Config.keyHashes : List Nat

/-- A firmware image, by its payload, supports a version of MCI (R525). -/
opaque Config.imageServes : List (BitVec 8) → Nat → Bool

/-- How the syndrome of a bite of MEn's watchdog marks a saturated debt, by physical rank (R198). -/
opaque Config.satMark : Nat → BitVec 24

/-- The lines poisoned in the syndrome of a walk of 4,096 lines or more, by their number (R529). -/
opaque Config.walkLines : Nat → BitVec 12

/-- The nanoseconds that a device programs a repair for, soft or hard (R272); a soft repair takes at most 2,000 (R271). -/
opaque Config.programNs : Bool → Nat

/-- The minimum time that the modules of a channel need for a timing field of R163, in ps, by channel and field: their SPDs
are not modelled (R161). -/
opaque Config.moduleTime : Nat → Nat → Nat

/-- The byte addresses of a hub that lie in blocks of its SPD memory, which write protection covers (R246). -/
opaque Config.spdBlock : Nat → Bool

/-- How often in a row a read burst of TSn has no preamble, by the index of the draw (R224). -/
opaque Config.burstMiss : Nat → Nat

/-- What a training unit finds when TSn runs steps of its own accord, on a wake or in recovery, by the index of the draw:
its sweeps, its lane results, a failure and the oscillator counts (R243, R611). -/
opaque Config.unitSweeps : Nat → List Sweep
opaque Config.unitLanes : Nat → List LaneVal
opaque Config.unitFail : Nat → Option LaneFail
opaque Config.unitCounts : Nat → BitVec 800

end Sys2Proof
end

