-- ==== Sys2Proof/Machine/Field.lean ====
section
/-! DEFINITION. Registers as data: a field of a register, its access code (R8), the blocks whose
enable guards RWD fields (R568), a register's description, and the search of a map for the
register at an address (R586). -/

namespace Sys2Proof.Machine

/-- The access codes of R8. -/
inductive Acc where
  | rw | ro | wo | rwd | sq
  deriving DecidableEq, Repr

/-- The blocks of R568; for a channel's block the channel is the register's own. -/
inductive Blk where
  | ingress | grist | crypto | directory | sched | refresh | rowGuard | training | scrub
  | telemetry | ring
  deriving DecidableEq, Repr

/-- A field of the register whose value address is `addr`: bits `hi` down to `lo`. -/
structure Fld where
  addr : Nat
  hi : Nat
  lo : Nat
  deriving DecidableEq, Repr

/-- One row of a field table. -/
structure FieldDesc where
  hi : Nat
  lo : Nat
  acc : Acc
  reset : Nat
  deriving DecidableEq, Repr

/-- A register or an array of registers: `dims` gives the count and the stride of each index,
outermost first; `par` is R570's cover. -/
structure RegDesc where
  base : Nat
  dims : List (Nat × Nat)
  blk : Option Blk
  par : Bool
  fields : List FieldDesc
  deriving DecidableEq, Repr

/-- The number of bits of a field. -/
def fldWidth (f : Fld) : Nat := f.hi + 1 - f.lo

/-- A field of a word, as a number. -/
def wordField (w : Word) (hi lo : Nat) : Nat := w.toNat / 2 ^ lo % 2 ^ (hi + 1 - lo)

/-- A word with one field replaced; the value is taken modulo the field's width. -/
def setWordField (w : Word) (hi lo v : Nat) : Word :=
  let m := 2 ^ (hi + 1 - lo)
  BitVec.ofNat 32 (w.toNat / 2 ^ (hi + 1) * 2 ^ (hi + 1) + v % m * 2 ^ lo + w.toNat % 2 ^ lo)

/-- The ones at bits `hi` down to `lo`. -/
def bitMask (hi lo : Nat) : Word := BitVec.ofNat 32 ((2 ^ (hi + 1 - lo) - 1) * 2 ^ lo)

/-- The bits of a register's fields whose access code is in `as`. -/
def accMask (as : List Acc) : List FieldDesc → Word
  | [] => 0
  | f :: fs => (if f.acc ∈ as then bitMask f.hi f.lo else 0) ||| accMask as fs

/-- A register's reset word: every field at the reset value of its table, every other bit zero (R10). -/
def resetWord : List FieldDesc → Word
  | [] => 0
  | f :: fs => BitVec.ofNat 32 (f.reset * 2 ^ f.lo) ||| resetWord fs

/-- Whether `off` is a sum of in-range index times stride, outermost index first. -/
def inDims (off : Nat) : List (Nat × Nat) → Bool
  | [] => off == 0
  | (n, s) :: ds => decide (off / s < n) && inDims (off % s) ds

/-- The description of the register at the value address `a`, in one region's list. -/
def findIn (a : Nat) : List RegDesc → Option RegDesc
  | [] => none
  | d :: ds => if d.base ≤ a ∧ inDims (a - d.base) d.dims then some d else findIn a ds

end Sys2Proof.Machine
end

