-- ==== Sys2Proof/Machine/RegMap.lean ====
section
/-! DEFINITION. The register map of R586: for every register its address, and for every named
field its bits, access code and reset value, as the field tables of the owning chapters give them.
A register is named as the manual names it; an index of the manual's name is an argument. -/

namespace Sys2Proof.Machine

/-- GC_ID (R577): address. -/
abbrev GC_ID : Nat := 0
abbrev GC_ID_PART : Fld := ⟨GC_ID, 31, 16⟩
abbrev GC_ID_ARCH_MAJOR : Fld := ⟨GC_ID, 15, 12⟩
abbrev GC_ID_ARCH_MINOR : Fld := ⟨GC_ID, 11, 8⟩
abbrev GC_ID_STEP_MAJOR : Fld := ⟨GC_ID, 7, 4⟩
abbrev GC_ID_STEP_MINOR : Fld := ⟨GC_ID, 3, 0⟩
/-- GC_CAP (R578): address. -/
abbrev GC_CAP : Nat := 0x10
abbrev GC_CAP_DBG_LOCK : Fld := ⟨GC_CAP, 31, 31⟩
/-- GC_CFG_REJECT (R569): address. -/
abbrev GC_CFG_REJECT : Nat := 0x20
abbrev GC_CFG_REJECT_SEQ : Fld := ⟨GC_CFG_REJECT, 31, 24⟩
abbrev GC_CFG_REJECT_CAUSE : Fld := ⟨GC_CFG_REJECT, 23, 22⟩
abbrev GC_CFG_REJECT_INTERNAL : Fld := ⟨GC_CFG_REJECT, 21, 21⟩
abbrev GC_CFG_REJECT_MULTI : Fld := ⟨GC_CFG_REJECT, 20, 20⟩
abbrev GC_CFG_REJECT_ADDR : Fld := ⟨GC_CFG_REJECT, 17, 0⟩
/-- GC_REG_STATUS (R585): address. -/
abbrev GC_REG_STATUS : Nat := 0x30
abbrev GC_REG_STATUS_SEQ : Fld := ⟨GC_REG_STATUS, 31, 24⟩
abbrev GC_REG_STATUS_CAUSE : Fld := ⟨GC_REG_STATUS, 23, 22⟩
abbrev GC_REG_STATUS_ADDR : Fld := ⟨GC_REG_STATUS, 21, 0⟩
/-- GC_PAR_INJ (R573): address. -/
abbrev GC_PAR_INJ : Nat := 0x40
abbrev GC_PAR_INJ_ARM : Fld := ⟨GC_PAR_INJ, 31, 31⟩
abbrev GC_PAR_INJ_LANES : Fld := ⟨GC_PAR_INJ, 3, 0⟩
/-- GC_WRW_SEL (R576): address. -/
abbrev GC_WRW_SEL : Nat := 0x100
abbrev GC_WRW_SEL_VALID : Fld := ⟨GC_WRW_SEL, 31, 31⟩
abbrev GC_WRW_SEL_BAD : Fld := ⟨GC_WRW_SEL, 30, 30⟩
abbrev GC_WRW_SEL_SEL : Fld := ⟨GC_WRW_SEL, 15, 0⟩
/-- GC_WRW_D (R576): address. -/
abbrev GC_WRW_D (w : Nat) : Nat := 0x110 + w * 0x10
abbrev GC_WRW_D_DATA (w : Nat) : Fld := ⟨GC_WRW_D w, 31, 0⟩
/-- GC_ING_CTRL (R95): address. -/
abbrev GC_ING_CTRL : Nat := 0x1000
abbrev GC_ING_CTRL_ING_EN : Fld := ⟨GC_ING_CTRL, 31, 31⟩
abbrev GC_ING_CTRL_C3_ALLOT : Fld := ⟨GC_ING_CTRL, 20, 16⟩
abbrev GC_ING_CTRL_C1_ALLOT : Fld := ⟨GC_ING_CTRL, 12, 8⟩
abbrev GC_ING_CTRL_C0_ALLOT : Fld := ⟨GC_ING_CTRL, 3, 0⟩
/-- GC_PORT_MASK (R94): address. -/
abbrev GC_PORT_MASK (k : Nat) : Nat := 0x1010 + k * 0x10
abbrev GC_PORT_MASK_MASK (k : Nat) : Fld := ⟨GC_PORT_MASK k, 31, 0⟩
/-- GC_PORT_THROTTLE (R94): address. -/
abbrev GC_PORT_THROTTLE (k : Nat) : Nat := 0x1050 + k * 0x10
abbrev GC_PORT_THROTTLE_THROTTLE (k : Nat) : Fld := ⟨GC_PORT_THROTTLE k, 31, 0⟩
/-- GC_ING_STATUS (R96): address. -/
abbrev GC_ING_STATUS : Nat := 0x1090
abbrev GC_ING_STATUS_SEQ : Fld := ⟨GC_ING_STATUS, 31, 24⟩
abbrev GC_ING_STATUS_PORT : Fld := ⟨GC_ING_STATUS, 16, 10⟩
abbrev GC_ING_STATUS_YIELD_MISMATCH : Fld := ⟨GC_ING_STATUS, 4, 4⟩
abbrev GC_ING_STATUS_CRED_OVERFLOW : Fld := ⟨GC_ING_STATUS, 3, 3⟩
abbrev GC_ING_STATUS_OVERRUN : Fld := ⟨GC_ING_STATUS, 2, 2⟩
abbrev GC_ING_STATUS_MALFORMED : Fld := ⟨GC_ING_STATUS, 1, 1⟩
abbrev GC_ING_STATUS_FRAMING : Fld := ⟨GC_ING_STATUS, 0, 0⟩
/-- GC_ING_REWIND_CNT (R94): address. -/
abbrev GC_ING_REWIND_CNT : Nat := 0x10A0
abbrev GC_ING_REWIND_CNT_VALUE : Fld := ⟨GC_ING_REWIND_CNT, 31, 0⟩
/-- GC_GRIST_CTRL (R114): address. -/
abbrev GC_GRIST_CTRL : Nat := 0x2000
abbrev GC_GRIST_CTRL_GRIST_EN : Fld := ⟨GC_GRIST_CTRL, 31, 31⟩
abbrev GC_GRIST_CTRL_CH_BITS : Fld := ⟨GC_GRIST_CTRL, 14, 12⟩
abbrev GC_GRIST_CTRL_SLOT_BITS : Fld := ⟨GC_GRIST_CTRL, 11, 11⟩
abbrev GC_GRIST_CTRL_PRANK_BITS : Fld := ⟨GC_GRIST_CTRL, 10, 10⟩
abbrev GC_GRIST_CTRL_CID_BITS : Fld := ⟨GC_GRIST_CTRL, 9, 8⟩
abbrev GC_GRIST_CTRL_ROW_BITS : Fld := ⟨GC_GRIST_CTRL, 4, 0⟩
/-- GC_GRIST_STATUS (R115): address. -/
abbrev GC_GRIST_STATUS : Nat := 0x2010
abbrev GC_GRIST_STATUS_SEQ : Fld := ⟨GC_GRIST_STATUS, 31, 24⟩
abbrev GC_GRIST_STATUS_MATRIX_RANK : Fld := ⟨GC_GRIST_STATUS, 19, 16⟩
abbrev GC_GRIST_STATUS_SPARE_SHORT : Fld := ⟨GC_GRIST_STATUS, 4, 4⟩
abbrev GC_GRIST_STATUS_CARVE : Fld := ⟨GC_GRIST_STATUS, 3, 3⟩
abbrev GC_GRIST_STATUS_MASK_RANGE : Fld := ⟨GC_GRIST_STATUS, 2, 2⟩
abbrev GC_GRIST_STATUS_WIDTH : Fld := ⟨GC_GRIST_STATUS, 1, 1⟩
abbrev GC_GRIST_STATUS_SINGULAR : Fld := ⟨GC_GRIST_STATUS, 0, 0⟩
/-- GC_DATA_ROWS (R113): address. -/
abbrev GC_DATA_ROWS : Nat := 0x2020
abbrev GC_DATA_ROWS_DATA_ROWS : Fld := ⟨GC_DATA_ROWS, 17, 0⟩
/-- GC_CARVE_MAC (R113): address. -/
abbrev GC_CARVE_MAC : Nat := 0x2030
abbrev GC_CARVE_MAC_MAC_ROWS : Fld := ⟨GC_CARVE_MAC, 17, 0⟩
/-- GC_CARVE_CTR (R113): address. -/
abbrev GC_CARVE_CTR : Nat := 0x2040
abbrev GC_CARVE_CTR_CTR_ROWS : Fld := ⟨GC_CARVE_CTR, 17, 0⟩
/-- GC_CARVE_SPARE (R113): address. -/
abbrev GC_CARVE_SPARE : Nat := 0x2050
abbrev GC_CARVE_SPARE_SPARE_ROWS : Fld := ⟨GC_CARVE_SPARE, 17, 0⟩
/-- GC_CARVE_DUMP (R116): address. -/
abbrev GC_CARVE_DUMP : Nat := 0x2060
abbrev GC_CARVE_DUMP_DUMP_CH : Fld := ⟨GC_CARVE_DUMP, 15, 12⟩
abbrev GC_CARVE_DUMP_DUMP_ROWS : Fld := ⟨GC_CARVE_DUMP, 7, 0⟩
/-- GC_SPARE_CTRL (R116): address. -/
abbrev GC_SPARE_CTRL : Nat := 0x2070
abbrev GC_SPARE_CTRL_ACTIVE : Fld := ⟨GC_SPARE_CTRL, 31, 31⟩
abbrev GC_SPARE_CTRL_SCOPE : Fld := ⟨GC_SPARE_CTRL, 30, 30⟩
abbrev GC_SPARE_CTRL_FAIL_RANK : Fld := ⟨GC_SPARE_CTRL, 11, 8⟩
abbrev GC_SPARE_CTRL_FAIL_CH : Fld := ⟨GC_SPARE_CTRL, 3, 0⟩
/-- GC_SPARE_PTR_LO (R113): address. -/
abbrev GC_SPARE_PTR_LO : Nat := 0x2080
abbrev GC_SPARE_PTR_LO_PTR : Fld := ⟨GC_SPARE_PTR_LO, 31, 0⟩
/-- GC_SPARE_PTR_HI (R113): address. -/
abbrev GC_SPARE_PTR_HI : Nat := 0x2090
abbrev GC_SPARE_PTR_HI_PTR : Fld := ⟨GC_SPARE_PTR_HI, 2, 0⟩
/-- GC_SPARE_RATE (R279): address. -/
abbrev GC_SPARE_RATE : Nat := 0x20A0
abbrev GC_SPARE_RATE_RATE : Fld := ⟨GC_SPARE_RATE, 7, 0⟩
/-- GC_SPARE_STATUS (R283): address. -/
abbrev GC_SPARE_STATUS : Nat := 0x20B0
abbrev GC_SPARE_STATUS_SEQ : Fld := ⟨GC_SPARE_STATUS, 31, 24⟩
abbrev GC_SPARE_STATUS_POISONED : Fld := ⟨GC_SPARE_STATUS, 1, 1⟩
abbrev GC_SPARE_STATUS_DONE : Fld := ⟨GC_SPARE_STATUS, 0, 0⟩
/-- GC_RAS_POLICY (R283): address. -/
abbrev GC_RAS_POLICY : Nat := 0x20C0
abbrev GC_RAS_POLICY_ROW_TH : Fld := ⟨GC_RAS_POLICY, 15, 8⟩
abbrev GC_RAS_POLICY_AUTO_SPARE : Fld := ⟨GC_RAS_POLICY, 2, 2⟩
abbrev GC_RAS_POLICY_AUTO_PPR : Fld := ⟨GC_RAS_POLICY, 1, 1⟩
abbrev GC_RAS_POLICY_AUTO_MARK : Fld := ⟨GC_RAS_POLICY, 0, 0⟩
/-- GC_GRIST_MASK_LO (R113): address. -/
abbrev GC_GRIST_MASK_LO (j : Nat) : Nat := 0x2100 + j * 0x20
abbrev GC_GRIST_MASK_LO_MASK (j : Nat) : Fld := ⟨GC_GRIST_MASK_LO j, 31, 0⟩
/-- GC_GRIST_MASK_HI (R113): address. -/
abbrev GC_GRIST_MASK_HI (j : Nat) : Nat := 0x2110 + j * 0x20
abbrev GC_GRIST_MASK_HI_MASK (j : Nat) : Fld := ⟨GC_GRIST_MASK_HI j, 5, 0⟩
/-- GC_PACK_STATUS (R309): address. -/
abbrev GC_PACK_STATUS : Nat := 0x3000
abbrev GC_PACK_STATUS_SEQ : Fld := ⟨GC_PACK_STATUS, 31, 24⟩
abbrev GC_PACK_STATUS_CH : Fld := ⟨GC_PACK_STATUS, 23, 20⟩
abbrev GC_PACK_STATUS_REBUILD_POISON : Fld := ⟨GC_PACK_STATUS, 4, 4⟩
abbrev GC_PACK_STATUS_REBUILD : Fld := ⟨GC_PACK_STATUS, 3, 3⟩
abbrev GC_PACK_STATUS_TRACK_FULL : Fld := ⟨GC_PACK_STATUS, 2, 2⟩
abbrev GC_PACK_STATUS_SC_INVALID : Fld := ⟨GC_PACK_STATUS, 1, 1⟩
abbrev GC_PACK_STATUS_CHECK_FAIL : Fld := ⟨GC_PACK_STATUS, 0, 0⟩
/-- GC_PACK_LAST (R308): address. -/
abbrev GC_PACK_LAST : Nat := 0x3010
abbrev GC_PACK_LAST_SC_SLOT : Fld := ⟨GC_PACK_LAST, 28, 0⟩
/-- GC_CNT_PK_FORM (R308): address. -/
abbrev GC_CNT_PK_FORM : Nat := 0x3020
abbrev GC_CNT_PK_FORM_VALUE : Fld := ⟨GC_CNT_PK_FORM, 31, 0⟩
/-- GC_CNT_PK_SPLIT (R308): address. -/
abbrev GC_CNT_PK_SPLIT : Nat := 0x3030
abbrev GC_CNT_PK_SPLIT_VALUE : Fld := ⟨GC_CNT_PK_SPLIT, 31, 0⟩
/-- GC_CNT_PK_PREAD (R308): address. -/
abbrev GC_CNT_PK_PREAD : Nat := 0x3040
abbrev GC_CNT_PK_PREAD_VALUE : Fld := ⟨GC_CNT_PK_PREAD, 31, 0⟩
/-- GC_CNT_PK_RD2 (R308): address. -/
abbrev GC_CNT_PK_RD2 : Nat := 0x3050
abbrev GC_CNT_PK_RD2_VALUE : Fld := ⟨GC_CNT_PK_RD2, 31, 0⟩
/-- GC_CNT_PK_CHK (R308): address. -/
abbrev GC_CNT_PK_CHK : Nat := 0x3060
abbrev GC_CNT_PK_CHK_VALUE : Fld := ⟨GC_CNT_PK_CHK, 31, 0⟩
/-- GC_CNT_PK_REBUILD (R308): address. -/
abbrev GC_CNT_PK_REBUILD : Nat := 0x3070
abbrev GC_CNT_PK_REBUILD_VALUE : Fld := ⟨GC_CNT_PK_REBUILD, 31, 0⟩
/-- GC_CFG_GEN (R527): address. -/
abbrev GC_CFG_GEN : Nat := 0x4000
abbrev GC_CFG_GEN_ROLLING : Fld := ⟨GC_CFG_GEN, 31, 31⟩
abbrev GC_CFG_GEN_NEXT_CH : Fld := ⟨GC_CFG_GEN, 27, 24⟩
abbrev GC_CFG_GEN_GEN : Fld := ⟨GC_CFG_GEN, 23, 0⟩
/-- GC_DBG_CTRL (R584): address. -/
abbrev GC_DBG_CTRL : Nat := 0x5000
abbrev GC_DBG_CTRL_DBG_EN : Fld := ⟨GC_DBG_CTRL, 31, 31⟩
abbrev GC_DBG_CTRL_TRACE_EN : Fld := ⟨GC_DBG_CTRL, 30, 30⟩
abbrev GC_DBG_CTRL_TRACE_KINDS : Fld := ⟨GC_DBG_CTRL, 4, 0⟩
/-- GC_DBG_CORE (R584): address. -/
abbrev GC_DBG_CORE : Nat := 0x5010
abbrev GC_DBG_CORE_HALT : Fld := ⟨GC_DBG_CORE, 31, 31⟩
abbrev GC_DBG_CORE_STEP : Fld := ⟨GC_DBG_CORE, 30, 30⟩
abbrev GC_DBG_CORE_RESUME : Fld := ⟨GC_DBG_CORE, 29, 29⟩
abbrev GC_DBG_CORE_PAIR : Fld := ⟨GC_DBG_CORE, 24, 24⟩
abbrev GC_DBG_CORE_HALTED23 : Fld := ⟨GC_DBG_CORE, 17, 17⟩
abbrev GC_DBG_CORE_HALTED01 : Fld := ⟨GC_DBG_CORE, 16, 16⟩
/-- CH_CFG_GEN (R527): address. -/
abbrev CH_CFG_GEN (n : Nat) : Nat := 0x1000E0 + n * 0x10000
abbrev CH_CFG_GEN_GEN (n : Nat) : Fld := ⟨CH_CFG_GEN n, 23, 0⟩
/-- CH_CFG_REJECT (R569): address. -/
abbrev CH_CFG_REJECT (n : Nat) : Nat := 0x1000F0 + n * 0x10000
abbrev CH_CFG_REJECT_SEQ (n : Nat) : Fld := ⟨CH_CFG_REJECT n, 31, 24⟩
abbrev CH_CFG_REJECT_CAUSE (n : Nat) : Fld := ⟨CH_CFG_REJECT n, 23, 22⟩
abbrev CH_CFG_REJECT_INTERNAL (n : Nat) : Fld := ⟨CH_CFG_REJECT n, 21, 21⟩
abbrev CH_CFG_REJECT_MULTI (n : Nat) : Fld := ⟨CH_CFG_REJECT n, 20, 20⟩
abbrev CH_CFG_REJECT_ADDR (n : Nat) : Fld := ⟨CH_CFG_REJECT n, 17, 0⟩
/-- CH_SCHED_CTRL (R166): address. -/
abbrev CH_SCHED_CTRL (n : Nat) : Nat := 0x100100 + n * 0x10000
abbrev CH_SCHED_CTRL_SCHED_EN (n : Nat) : Fld := ⟨CH_SCHED_CTRL n, 31, 31⟩
abbrev CH_SCHED_CTRL_PAGE_POL (n : Nat) : Fld := ⟨CH_SCHED_CTRL n, 25, 24⟩
abbrev CH_SCHED_CTRL_PAGE_IDLE (n : Nat) : Fld := ⟨CH_SCHED_CTRL n, 23, 16⟩
abbrev CH_SCHED_CTRL_AGE_CAP (n : Nat) : Fld := ⟨CH_SCHED_CTRL n, 11, 0⟩
/-- CH_SPARGE (R167): address. -/
abbrev CH_SPARGE (n : Nat) : Nat := 0x100110 + n * 0x10000
abbrev CH_SPARGE_HIGH (n : Nat) : Fld := ⟨CH_SPARGE n, 31, 24⟩
abbrev CH_SPARGE_LOW (n : Nat) : Fld := ⟨CH_SPARGE n, 23, 16⟩
abbrev CH_SPARGE_PREEMPT_MAX (n : Nat) : Fld := ⟨CH_SPARGE n, 15, 10⟩
abbrev CH_SPARGE_BANK_MAX (n : Nat) : Fld := ⟨CH_SPARGE n, 7, 4⟩
abbrev CH_SPARGE_IDLE_DRAIN (n : Nat) : Fld := ⟨CH_SPARGE n, 3, 0⟩
/-- CH_SCHED_OCC (R169): address. -/
abbrev CH_SCHED_OCC (n : Nat) : Nat := 0x100120 + n * 0x10000
abbrev CH_SCHED_OCC_RQ_OCC (n : Nat) : Fld := ⟨CH_SCHED_OCC n, 24, 16⟩
abbrev CH_SCHED_OCC_WQ_OCC (n : Nat) : Fld := ⟨CH_SCHED_OCC n, 15, 8⟩
abbrev CH_SCHED_OCC_DRAIN_B (n : Nat) : Fld := ⟨CH_SCHED_OCC n, 1, 1⟩
abbrev CH_SCHED_OCC_DRAIN_A (n : Nat) : Fld := ⟨CH_SCHED_OCC n, 0, 0⟩
/-- CH_SCHED_STATUS (R169): address. -/
abbrev CH_SCHED_STATUS (n : Nat) : Nat := 0x100130 + n * 0x10000
abbrev CH_SCHED_STATUS_SEQ (n : Nat) : Fld := ⟨CH_SCHED_STATUS n, 31, 24⟩
abbrev CH_SCHED_STATUS_WQ_PEAK (n : Nat) : Fld := ⟨CH_SCHED_STATUS n, 23, 16⟩
abbrev CH_SCHED_STATUS_PROMO_WAIT (n : Nat) : Fld := ⟨CH_SCHED_STATUS n, 3, 3⟩
abbrev CH_SCHED_STATUS_BANK_CAP (n : Nat) : Fld := ⟨CH_SCHED_STATUS n, 2, 2⟩
abbrev CH_SCHED_STATUS_WQ_FULL (n : Nat) : Fld := ⟨CH_SCHED_STATUS n, 1, 1⟩
abbrev CH_SCHED_STATUS_RQ_FULL (n : Nat) : Fld := ⟨CH_SCHED_STATUS n, 0, 0⟩
/-- CH_CNT_RD (R165): address. -/
abbrev CH_CNT_RD (n : Nat) : Nat := 0x100140 + n * 0x10000
abbrev CH_CNT_RD_VALUE (n : Nat) : Fld := ⟨CH_CNT_RD n, 31, 0⟩
/-- CH_CNT_WR (R165): address. -/
abbrev CH_CNT_WR (n : Nat) : Nat := 0x100150 + n * 0x10000
abbrev CH_CNT_WR_VALUE (n : Nat) : Fld := ⟨CH_CNT_WR n, 31, 0⟩
/-- CH_CNT_HIT (R165): address. -/
abbrev CH_CNT_HIT (n : Nat) : Nat := 0x100160 + n * 0x10000
abbrev CH_CNT_HIT_VALUE (n : Nat) : Fld := ⟨CH_CNT_HIT n, 31, 0⟩
/-- CH_CNT_CONFLICT (R165): address. -/
abbrev CH_CNT_CONFLICT (n : Nat) : Nat := 0x100170 + n * 0x10000
abbrev CH_CNT_CONFLICT_VALUE (n : Nat) : Fld := ⟨CH_CNT_CONFLICT n, 31, 0⟩
/-- CH_CNT_DRAIN (R165): address. -/
abbrev CH_CNT_DRAIN (n : Nat) : Nat := 0x100180 + n * 0x10000
abbrev CH_CNT_DRAIN_VALUE (n : Nat) : Fld := ⟨CH_CNT_DRAIN n, 31, 0⟩
/-- CH_CNT_PROMO (R165): address. -/
abbrev CH_CNT_PROMO (n : Nat) : Nat := 0x100190 + n * 0x10000
abbrev CH_CNT_PROMO_VALUE (n : Nat) : Fld := ⟨CH_CNT_PROMO n, 31, 0⟩
/-- CH_TIM0 (R163): address. -/
abbrev CH_TIM0 (n : Nat) : Nat := 0x100200 + n * 0x10000
abbrev CH_TIM0_TRCD (n : Nat) : Fld := ⟨CH_TIM0 n, 31, 24⟩
abbrev CH_TIM0_TRP (n : Nat) : Fld := ⟨CH_TIM0 n, 23, 16⟩
abbrev CH_TIM0_TRTP (n : Nat) : Fld := ⟨CH_TIM0 n, 15, 8⟩
abbrev CH_TIM0_TWR (n : Nat) : Fld := ⟨CH_TIM0 n, 7, 0⟩
/-- CH_TIM1 (R163): address. -/
abbrev CH_TIM1 (n : Nat) : Nat := 0x100210 + n * 0x10000
abbrev CH_TIM1_TRC (n : Nat) : Fld := ⟨CH_TIM1 n, 31, 23⟩
abbrev CH_TIM1_TRAS (n : Nat) : Fld := ⟨CH_TIM1 n, 15, 8⟩
abbrev CH_TIM1_TPPD (n : Nat) : Fld := ⟨CH_TIM1 n, 7, 0⟩
/-- CH_TIM2 (R163): address. -/
abbrev CH_TIM2 (n : Nat) : Nat := 0x100220 + n * 0x10000
abbrev CH_TIM2_TRRD_S (n : Nat) : Fld := ⟨CH_TIM2 n, 31, 24⟩
abbrev CH_TIM2_TRRD_L (n : Nat) : Fld := ⟨CH_TIM2 n, 23, 16⟩
abbrev CH_TIM2_TFAW (n : Nat) : Fld := ⟨CH_TIM2 n, 15, 8⟩
abbrev CH_TIM2_TRRD_DLR (n : Nat) : Fld := ⟨CH_TIM2 n, 7, 0⟩
/-- CH_TIM3 (R163): address. -/
abbrev CH_TIM3 (n : Nat) : Nat := 0x100230 + n * 0x10000
abbrev CH_TIM3_TCCD_S (n : Nat) : Fld := ⟨CH_TIM3 n, 31, 24⟩
abbrev CH_TIM3_TCCD_L (n : Nat) : Fld := ⟨CH_TIM3 n, 23, 16⟩
abbrev CH_TIM3_TCCD_L_WR (n : Nat) : Fld := ⟨CH_TIM3 n, 15, 8⟩
abbrev CH_TIM3_TCCD_DLR (n : Nat) : Fld := ⟨CH_TIM3 n, 7, 0⟩
/-- CH_TIM4 (R163): address. -/
abbrev CH_TIM4 (n : Nat) : Nat := 0x100240 + n * 0x10000
abbrev CH_TIM4_TWTR_S (n : Nat) : Fld := ⟨CH_TIM4 n, 31, 24⟩
abbrev CH_TIM4_TWTR_L (n : Nat) : Fld := ⟨CH_TIM4 n, 23, 16⟩
abbrev CH_TIM4_TRTW (n : Nat) : Fld := ⟨CH_TIM4 n, 15, 8⟩
/-- CH_TIM5 (R163): address. -/
abbrev CH_TIM5 (n : Nat) : Nat := 0x100250 + n * 0x10000
abbrev CH_TIM5_RL (n : Nat) : Fld := ⟨CH_TIM5 n, 31, 24⟩
abbrev CH_TIM5_WL (n : Nat) : Fld := ⟨CH_TIM5 n, 23, 16⟩
abbrev CH_TIM5_GAP_RANK (n : Nat) : Fld := ⟨CH_TIM5 n, 15, 8⟩
abbrev CH_TIM5_GAP_TURN (n : Nat) : Fld := ⟨CH_TIM5 n, 7, 0⟩
/-- CH_TIM6 (R163): address. -/
abbrev CH_TIM6 (n : Nat) : Nat := 0x100260 + n * 0x10000
abbrev CH_TIM6_TRFC1 (n : Nat) : Fld := ⟨CH_TIM6 n, 31, 22⟩
abbrev CH_TIM6_TRFC2 (n : Nat) : Fld := ⟨CH_TIM6 n, 21, 12⟩
abbrev CH_TIM6_TRFCSB (n : Nat) : Fld := ⟨CH_TIM6 n, 11, 2⟩
/-- CH_TIM7 (R163): address. -/
abbrev CH_TIM7 (n : Nat) : Nat := 0x100270 + n * 0x10000
abbrev CH_TIM7_TRFMAB (n : Nat) : Fld := ⟨CH_TIM7 n, 31, 22⟩
abbrev CH_TIM7_TDRFM (n : Nat) : Fld := ⟨CH_TIM7 n, 21, 12⟩
abbrev CH_TIM7_TXS (n : Nat) : Fld := ⟨CH_TIM7 n, 11, 2⟩
/-- CH_TIM8 (R163): address. -/
abbrev CH_TIM8 (n : Nat) : Nat := 0x100280 + n * 0x10000
abbrev CH_TIM8_TZQCAL (n : Nat) : Fld := ⟨CH_TIM8 n, 31, 21⟩
abbrev CH_TIM8_TZQLAT (n : Nat) : Fld := ⟨CH_TIM8 n, 20, 13⟩
abbrev CH_TIM8_TMRD (n : Nat) : Fld := ⟨CH_TIM8 n, 12, 5⟩
abbrev CH_TIM8_TXP (n : Nat) : Fld := ⟨CH_TIM8 n, 4, 0⟩
/-- CH_TIM9 (R163): address. -/
abbrev CH_TIM9 (n : Nat) : Nat := 0x100290 + n * 0x10000
abbrev CH_TIM9_TREFSBRD (n : Nat) : Fld := ⟨CH_TIM9 n, 31, 24⟩
abbrev CH_TIM9_TRFMSB (n : Nat) : Fld := ⟨CH_TIM9 n, 23, 14⟩
/-- CH_ARB_CTRL (R190): address. -/
abbrev CH_ARB_CTRL (n : Nat) : Nat := 0x100300 + n * 0x10000
abbrev CH_ARB_CTRL_PRE_TRAIN (n : Nat) : Fld := ⟨CH_ARB_CTRL n, 2, 2⟩
abbrev CH_ARB_CTRL_PRE_MAINT (n : Nat) : Fld := ⟨CH_ARB_CTRL n, 1, 1⟩
abbrev CH_ARB_CTRL_PRE_DATA (n : Nat) : Fld := ⟨CH_ARB_CTRL n, 0, 0⟩
/-- CH_ARB_PRIO (R190): address. -/
abbrev CH_ARB_PRIO (n : Nat) : Nat := 0x100310 + n * 0x10000
abbrev CH_ARB_PRIO_P_URGENT (n : Nat) : Fld := ⟨CH_ARB_PRIO n, 26, 24⟩
abbrev CH_ARB_PRIO_P_MIT (n : Nat) : Fld := ⟨CH_ARB_PRIO n, 22, 20⟩
abbrev CH_ARB_PRIO_P_REF (n : Nat) : Fld := ⟨CH_ARB_PRIO n, 18, 16⟩
abbrev CH_ARB_PRIO_P_REPAIR (n : Nat) : Fld := ⟨CH_ARB_PRIO n, 14, 12⟩
abbrev CH_ARB_PRIO_P_SCRUB (n : Nat) : Fld := ⟨CH_ARB_PRIO n, 10, 8⟩
abbrev CH_ARB_PRIO_P_TRAIN (n : Nat) : Fld := ⟨CH_ARB_PRIO n, 6, 4⟩
abbrev CH_ARB_PRIO_P_DATA (n : Nat) : Fld := ⟨CH_ARB_PRIO n, 2, 0⟩
/-- CH_ARB_WD (R191): address. -/
abbrev CH_ARB_WD (n : Nat) : Nat := 0x100320 + n * 0x10000
abbrev CH_ARB_WD_WD_TRAIN (n : Nat) : Fld := ⟨CH_ARB_WD n, 29, 20⟩
abbrev CH_ARB_WD_WD_MAINT (n : Nat) : Fld := ⟨CH_ARB_WD n, 19, 10⟩
abbrev CH_ARB_WD_WD_DATA (n : Nat) : Fld := ⟨CH_ARB_WD n, 9, 0⟩
/-- CH_ARB_STATE (R192): address. -/
abbrev CH_ARB_STATE (n : Nat) : Nat := 0x100330 + n * 0x10000
abbrev CH_ARB_STATE_HOLDER (n : Nat) : Fld := ⟨CH_ARB_STATE n, 31, 30⟩
abbrev CH_ARB_STATE_PREEMPT_PEND (n : Nat) : Fld := ⟨CH_ARB_STATE n, 29, 29⟩
abbrev CH_ARB_STATE_HOLD_PRIO (n : Nat) : Fld := ⟨CH_ARB_STATE n, 28, 26⟩
abbrev CH_ARB_STATE_ME_KIND (n : Nat) : Fld := ⟨CH_ARB_STATE n, 25, 23⟩
abbrev CH_ARB_STATE_WAIT_TRAIN (n : Nat) : Fld := ⟨CH_ARB_STATE n, 18, 18⟩
abbrev CH_ARB_STATE_WAIT_MAINT (n : Nat) : Fld := ⟨CH_ARB_STATE n, 17, 17⟩
abbrev CH_ARB_STATE_WAIT_DATA (n : Nat) : Fld := ⟨CH_ARB_STATE n, 16, 16⟩
abbrev CH_ARB_STATE_TOP_SCORE (n : Nat) : Fld := ⟨CH_ARB_STATE n, 12, 0⟩
/-- CH_ARB_PROGRESS (R192): address. -/
abbrev CH_ARB_PROGRESS (n : Nat) : Nat := 0x100340 + n * 0x10000
abbrev CH_ARB_PROGRESS_TS_PROG (n : Nat) : Fld := ⟨CH_ARB_PROGRESS n, 31, 16⟩
abbrev CH_ARB_PROGRESS_ME_PROG (n : Nat) : Fld := ⟨CH_ARB_PROGRESS n, 7, 0⟩
/-- CH_ARB_STATUS (R193): address. -/
abbrev CH_ARB_STATUS (n : Nat) : Nat := 0x100350 + n * 0x10000
abbrev CH_ARB_STATUS_SEQ (n : Nat) : Fld := ⟨CH_ARB_STATUS n, 31, 24⟩
abbrev CH_ARB_STATUS_WD_TRAIN (n : Nat) : Fld := ⟨CH_ARB_STATUS n, 2, 2⟩
abbrev CH_ARB_STATUS_WD_MAINT (n : Nat) : Fld := ⟨CH_ARB_STATUS n, 1, 1⟩
abbrev CH_ARB_STATUS_WD_DATA (n : Nat) : Fld := ⟨CH_ARB_STATUS n, 0, 0⟩
/-- CH_CNT_PREEMPT (R189): address. -/
abbrev CH_CNT_PREEMPT (n : Nat) : Nat := 0x100360 + n * 0x10000
abbrev CH_CNT_PREEMPT_VALUE (n : Nat) : Fld := ⟨CH_CNT_PREEMPT n, 31, 0⟩
/-- CH_REF_CTRL (R218): address. -/
abbrev CH_REF_CTRL (n : Nat) : Nat := 0x100400 + n * 0x10000
abbrev CH_REF_CTRL_REF_EN (n : Nat) : Fld := ⟨CH_REF_CTRL n, 31, 31⟩
abbrev CH_REF_CTRL_GRAN (n : Nat) : Fld := ⟨CH_REF_CTRL n, 25, 24⟩
abbrev CH_REF_CTRL_POST_MAX (n : Nat) : Fld := ⟨CH_REF_CTRL n, 23, 20⟩
abbrev CH_REF_CTRL_PULL_MAX (n : Nat) : Fld := ⟨CH_REF_CTRL n, 19, 16⟩
abbrev CH_REF_CTRL_DUE_AT (n : Nat) : Fld := ⟨CH_REF_CTRL n, 15, 12⟩
abbrev CH_REF_CTRL_IDLE_REF (n : Nat) : Fld := ⟨CH_REF_CTRL n, 11, 0⟩
/-- CH_REF_TIM (R217): address. -/
abbrev CH_REF_TIM (n : Nat) : Nat := 0x100410 + n * 0x10000
abbrev CH_REF_TIM_TREFI (n : Nat) : Fld := ⟨CH_REF_TIM n, 15, 0⟩
/-- CH_REF_STATE (R218): address. -/
abbrev CH_REF_STATE (n : Nat) : Nat := 0x100420 + n * 0x10000
abbrev CH_REF_STATE_OVERDUE3 (n : Nat) : Fld := ⟨CH_REF_STATE n, 31, 31⟩
abbrev CH_REF_STATE_URGENT3 (n : Nat) : Fld := ⟨CH_REF_STATE n, 30, 30⟩
abbrev CH_REF_STATE_DUE3 (n : Nat) : Fld := ⟨CH_REF_STATE n, 29, 29⟩
abbrev CH_REF_STATE_DEBT3 (n : Nat) : Fld := ⟨CH_REF_STATE n, 28, 24⟩
abbrev CH_REF_STATE_OVERDUE2 (n : Nat) : Fld := ⟨CH_REF_STATE n, 23, 23⟩
abbrev CH_REF_STATE_URGENT2 (n : Nat) : Fld := ⟨CH_REF_STATE n, 22, 22⟩
abbrev CH_REF_STATE_DUE2 (n : Nat) : Fld := ⟨CH_REF_STATE n, 21, 21⟩
abbrev CH_REF_STATE_DEBT2 (n : Nat) : Fld := ⟨CH_REF_STATE n, 20, 16⟩
abbrev CH_REF_STATE_OVERDUE1 (n : Nat) : Fld := ⟨CH_REF_STATE n, 15, 15⟩
abbrev CH_REF_STATE_URGENT1 (n : Nat) : Fld := ⟨CH_REF_STATE n, 14, 14⟩
abbrev CH_REF_STATE_DUE1 (n : Nat) : Fld := ⟨CH_REF_STATE n, 13, 13⟩
abbrev CH_REF_STATE_DEBT1 (n : Nat) : Fld := ⟨CH_REF_STATE n, 12, 8⟩
abbrev CH_REF_STATE_OVERDUE0 (n : Nat) : Fld := ⟨CH_REF_STATE n, 7, 7⟩
abbrev CH_REF_STATE_URGENT0 (n : Nat) : Fld := ⟨CH_REF_STATE n, 6, 6⟩
abbrev CH_REF_STATE_DUE0 (n : Nat) : Fld := ⟨CH_REF_STATE n, 5, 5⟩
abbrev CH_REF_STATE_DEBT0 (n : Nat) : Fld := ⟨CH_REF_STATE n, 4, 0⟩
/-- CH_TEMP_CFG (R219): address. -/
abbrev CH_TEMP_CFG (n : Nat) : Nat := 0x100430 + n * 0x10000
abbrev CH_TEMP_CFG_CRIT (n : Nat) : Fld := ⟨CH_TEMP_CFG n, 31, 24⟩
abbrev CH_TEMP_CFG_HOT_ON (n : Nat) : Fld := ⟨CH_TEMP_CFG n, 23, 16⟩
abbrev CH_TEMP_CFG_HOT_OFF (n : Nat) : Fld := ⟨CH_TEMP_CFG n, 15, 8⟩
abbrev CH_TEMP_CFG_POLL_MS (n : Nat) : Fld := ⟨CH_TEMP_CFG n, 7, 0⟩
/-- CH_TEMP_STATE (R219): address. -/
abbrev CH_TEMP_STATE (n : Nat) : Nat := 0x100440 + n * 0x10000
abbrev CH_TEMP_STATE_HOT (n : Nat) : Fld := ⟨CH_TEMP_STATE n, 24, 24⟩
abbrev CH_TEMP_STATE_TEMP_MAX (n : Nat) : Fld := ⟨CH_TEMP_STATE n, 23, 16⟩
abbrev CH_TEMP_STATE_MR4_RATE (n : Nat) : Fld := ⟨CH_TEMP_STATE n, 9, 8⟩
/-- CH_RG_CTRL (R220): address. -/
abbrev CH_RG_CTRL (n : Nat) : Nat := 0x100450 + n * 0x10000
abbrev CH_RG_CTRL_RG_EN (n : Nat) : Fld := ⟨CH_RG_CTRL n, 31, 31⟩
abbrev CH_RG_CTRL_RG_MODE (n : Nat) : Fld := ⟨CH_RG_CTRL n, 27, 26⟩
abbrev CH_RG_CTRL_BRC (n : Nat) : Fld := ⟨CH_RG_CTRL n, 25, 24⟩
abbrev CH_RG_CTRL_THRESH (n : Nat) : Fld := ⟨CH_RG_CTRL n, 13, 0⟩
/-- CH_RG_ABO (R220): address. -/
abbrev CH_RG_ABO (n : Nat) : Nat := 0x100460 + n * 0x10000
abbrev CH_RG_ABO_PW_MIN (n : Nat) : Fld := ⟨CH_RG_ABO n, 23, 16⟩
abbrev CH_RG_ABO_PW_MAX (n : Nat) : Fld := ⟨CH_RG_ABO n, 15, 8⟩
abbrev CH_RG_ABO_RFM_CNT (n : Nat) : Fld := ⟨CH_RG_ABO n, 2, 0⟩
/-- CH_RG_RFM (R220): address. -/
abbrev CH_RG_RFM (n : Nat) : Nat := 0x100470 + n * 0x10000
abbrev CH_RG_RFM_RFM_REQ (n : Nat) : Fld := ⟨CH_RG_RFM n, 31, 31⟩
abbrev CH_RG_RFM_RAAMMT (n : Nat) : Fld := ⟨CH_RG_RFM n, 15, 8⟩
abbrev CH_RG_RFM_RAAIMT (n : Nat) : Fld := ⟨CH_RG_RFM n, 7, 0⟩
/-- CH_MNT_STATUS (R221): address. -/
abbrev CH_MNT_STATUS (n : Nat) : Nat := 0x100480 + n * 0x10000
abbrev CH_MNT_STATUS_SEQ (n : Nat) : Fld := ⟨CH_MNT_STATUS n, 31, 24⟩
abbrev CH_MNT_STATUS_PRANK (n : Nat) : Fld := ⟨CH_MNT_STATUS n, 17, 16⟩
abbrev CH_MNT_STATUS_RG_SAT (n : Nat) : Fld := ⟨CH_MNT_STATUS n, 7, 7⟩
abbrev CH_MNT_STATUS_THERM_CRIT (n : Nat) : Fld := ⟨CH_MNT_STATUS n, 6, 6⟩
abbrev CH_MNT_STATUS_HOT_CHANGE (n : Nat) : Fld := ⟨CH_MNT_STATUS n, 5, 5⟩
abbrev CH_MNT_STATUS_ALERT_UNID (n : Nat) : Fld := ⟨CH_MNT_STATUS n, 4, 4⟩
abbrev CH_MNT_STATUS_ABO (n : Nat) : Fld := ⟨CH_MNT_STATUS n, 3, 3⟩
abbrev CH_MNT_STATUS_EXEMPT (n : Nat) : Fld := ⟨CH_MNT_STATUS n, 2, 2⟩
abbrev CH_MNT_STATUS_RG_CAP (n : Nat) : Fld := ⟨CH_MNT_STATUS n, 1, 1⟩
abbrev CH_MNT_STATUS_REF_OVERRUN (n : Nat) : Fld := ⟨CH_MNT_STATUS n, 0, 0⟩
/-- CH_CNT_REF (R217): address. -/
abbrev CH_CNT_REF (n : Nat) : Nat := 0x100490 + n * 0x10000
abbrev CH_CNT_REF_VALUE (n : Nat) : Fld := ⟨CH_CNT_REF n, 31, 0⟩
/-- CH_CNT_MIT (R217): address. -/
abbrev CH_CNT_MIT (n : Nat) : Nat := 0x1004A0 + n * 0x10000
abbrev CH_CNT_MIT_VALUE (n : Nat) : Fld := ⟨CH_CNT_MIT n, 31, 0⟩
/-- CH_CNT_RFM (R217): address. -/
abbrev CH_CNT_RFM (n : Nat) : Nat := 0x1004B0 + n * 0x10000
abbrev CH_CNT_RFM_VALUE (n : Nat) : Fld := ⟨CH_CNT_RFM n, 31, 0⟩
/-- CH_CNT_ABO (R217): address. -/
abbrev CH_CNT_ABO (n : Nat) : Nat := 0x1004C0 + n * 0x10000
abbrev CH_CNT_ABO_VALUE (n : Nat) : Fld := ⟨CH_CNT_ABO n, 31, 0⟩
/-- CH_CNT_RG_SAT (R217): address. -/
abbrev CH_CNT_RG_SAT (n : Nat) : Nat := 0x1004D0 + n * 0x10000
abbrev CH_CNT_RG_SAT_VALUE (n : Nat) : Fld := ⟨CH_CNT_RG_SAT n, 31, 0⟩
/-- CH_MNT_TIME (R217): address. -/
abbrev CH_MNT_TIME (n : Nat) : Nat := 0x1004E0 + n * 0x10000
abbrev CH_MNT_TIME_VALUE (n : Nat) : Fld := ⟨CH_MNT_TIME n, 31, 0⟩
/-- CH_TRN_CTRL (R248): address. -/
abbrev CH_TRN_CTRL (n : Nat) : Nat := 0x100600 + n * 0x10000
abbrev CH_TRN_CTRL_TRN_EN (n : Nat) : Fld := ⟨CH_TRN_CTRL n, 31, 31⟩
abbrev CH_TRN_CTRL_PERIOD (n : Nat) : Fld := ⟨CH_TRN_CTRL n, 23, 16⟩
abbrev CH_TRN_CTRL_TEMP_DELTA (n : Nat) : Fld := ⟨CH_TRN_CTRL n, 11, 8⟩
abbrev CH_TRN_CTRL_TRK_MS (n : Nat) : Fld := ⟨CH_TRN_CTRL n, 7, 0⟩
/-- CH_TRN_CMD (R248): address. -/
abbrev CH_TRN_CMD (n : Nat) : Nat := 0x100610 + n * 0x10000
abbrev CH_TRN_CMD_GO (n : Nat) : Fld := ⟨CH_TRN_CMD n, 31, 31⟩
abbrev CH_TRN_CMD_MODE (n : Nat) : Fld := ⟨CH_TRN_CMD n, 25, 24⟩
abbrev CH_TRN_CMD_PRANKS (n : Nat) : Fld := ⟨CH_TRN_CMD n, 23, 20⟩
abbrev CH_TRN_CMD_STEPS (n : Nat) : Fld := ⟨CH_TRN_CMD n, 10, 0⟩
/-- CH_TRN_CFG (R248): address. -/
abbrev CH_TRN_CFG (n : Nat) : Nat := 0x100620 + n * 0x10000
abbrev CH_TRN_CFG_MARGIN_MIN (n : Nat) : Fld := ⟨CH_TRN_CFG n, 31, 24⟩
abbrev CH_TRN_CFG_DRIFT_TH (n : Nat) : Fld := ⟨CH_TRN_CFG n, 23, 20⟩
abbrev CH_TRN_CFG_GAP (n : Nat) : Fld := ⟨CH_TRN_CFG n, 19, 16⟩
abbrev CH_TRN_CFG_SLICE_NS (n : Nat) : Fld := ⟨CH_TRN_CFG n, 15, 8⟩
abbrev CH_TRN_CFG_PAR_WIN (n : Nat) : Fld := ⟨CH_TRN_CFG n, 7, 0⟩
/-- CH_TRN_STATE (R249): address. -/
abbrev CH_TRN_STATE (n : Nat) : Nat := 0x100630 + n * 0x10000
abbrev CH_TRN_STATE_BUSY (n : Nat) : Fld := ⟨CH_TRN_STATE n, 31, 31⟩
abbrev CH_TRN_STATE_RUN_MODE (n : Nat) : Fld := ⟨CH_TRN_STATE n, 30, 29⟩
abbrev CH_TRN_STATE_HELD (n : Nat) : Fld := ⟨CH_TRN_STATE n, 28, 28⟩
abbrev CH_TRN_STATE_STEP (n : Nat) : Fld := ⟨CH_TRN_STATE n, 27, 24⟩
abbrev CH_TRN_STATE_PRANK (n : Nat) : Fld := ⟨CH_TRN_STATE n, 23, 22⟩
abbrev CH_TRN_STATE_PENDING (n : Nat) : Fld := ⟨CH_TRN_STATE n, 21, 21⟩
abbrev CH_TRN_STATE_SLICES (n : Nat) : Fld := ⟨CH_TRN_STATE n, 15, 0⟩
/-- CH_TRN_STATUS (R249): address. -/
abbrev CH_TRN_STATUS (n : Nat) : Nat := 0x100640 + n * 0x10000
abbrev CH_TRN_STATUS_SEQ (n : Nat) : Fld := ⟨CH_TRN_STATUS n, 31, 24⟩
abbrev CH_TRN_STATUS_LANE (n : Nat) : Fld := ⟨CH_TRN_STATUS n, 23, 17⟩
abbrev CH_TRN_STATUS_SC (n : Nat) : Fld := ⟨CH_TRN_STATUS n, 16, 16⟩
abbrev CH_TRN_STATUS_PRANK (n : Nat) : Fld := ⟨CH_TRN_STATUS n, 15, 14⟩
abbrev CH_TRN_STATUS_STEP (n : Nat) : Fld := ⟨CH_TRN_STATUS n, 13, 10⟩
abbrev CH_TRN_STATUS_UNSUP_MOD (n : Nat) : Fld := ⟨CH_TRN_STATUS n, 9, 9⟩
abbrev CH_TRN_STATUS_GEOM_MISMATCH (n : Nat) : Fld := ⟨CH_TRN_STATUS n, 8, 8⟩
abbrev CH_TRN_STATUS_PAR_STORM (n : Nat) : Fld := ⟨CH_TRN_STATUS n, 7, 7⟩
abbrev CH_TRN_STATUS_PAR_REPLAY (n : Nat) : Fld := ⟨CH_TRN_STATUS n, 6, 6⟩
abbrev CH_TRN_STATUS_GATE_MISS (n : Nat) : Fld := ⟨CH_TRN_STATUS n, 5, 5⟩
abbrev CH_TRN_STATUS_WR_DRIFT (n : Nat) : Fld := ⟨CH_TRN_STATUS n, 4, 4⟩
abbrev CH_TRN_STATUS_MARGIN_LOW (n : Nat) : Fld := ⟨CH_TRN_STATUS n, 3, 3⟩
abbrev CH_TRN_STATUS_TIMEOUT (n : Nat) : Fld := ⟨CH_TRN_STATUS n, 2, 2⟩
abbrev CH_TRN_STATUS_FAIL (n : Nat) : Fld := ⟨CH_TRN_STATUS n, 1, 1⟩
abbrev CH_TRN_STATUS_DONE (n : Nat) : Fld := ⟨CH_TRN_STATUS n, 0, 0⟩
/-- CH_PHY_SPD (R250): address. -/
abbrev CH_PHY_SPD (n : Nat) : Nat := 0x100650 + n * 0x10000
abbrev CH_PHY_SPD_TYPE (n : Nat) : Fld := ⟨CH_PHY_SPD n, 31, 30⟩
abbrev CH_PHY_SPD_SLOTS (n : Nat) : Fld := ⟨CH_PHY_SPD n, 29, 28⟩
abbrev CH_PHY_SPD_DENSITY (n : Nat) : Fld := ⟨CH_PHY_SPD n, 27, 26⟩
abbrev CH_PHY_SPD_STACK (n : Nat) : Fld := ⟨CH_PHY_SPD n, 25, 24⟩
abbrev CH_PHY_SPD_RANKS2 (n : Nat) : Fld := ⟨CH_PHY_SPD n, 23, 23⟩
abbrev CH_PHY_SPD_MAX_RATE (n : Nat) : Fld := ⟨CH_PHY_SPD n, 15, 0⟩
/-- CH_PHY_OSC (R247): address. -/
abbrev CH_PHY_OSC (n : Nat) : Nat := 0x100660 + n * 0x10000
abbrev CH_PHY_OSC_ACC_MAX (n : Nat) : Fld := ⟨CH_PHY_OSC n, 15, 8⟩
abbrev CH_PHY_OSC_LAST_MAX (n : Nat) : Fld := ⟨CH_PHY_OSC n, 7, 0⟩
/-- CH_CNT_PAR (R247): address. -/
abbrev CH_CNT_PAR (n : Nat) : Nat := 0x100670 + n * 0x10000
abbrev CH_CNT_PAR_VALUE (n : Nat) : Fld := ⟨CH_CNT_PAR n, 31, 0⟩
/-- CH_CNT_GATE_MISS (R247): address. -/
abbrev CH_CNT_GATE_MISS (n : Nat) : Nat := 0x100680 + n * 0x10000
abbrev CH_CNT_GATE_MISS_VALUE (n : Nat) : Fld := ⟨CH_CNT_GATE_MISS n, 31, 0⟩
/-- CH_CNT_TRN_SLICE (R247): address. -/
abbrev CH_CNT_TRN_SLICE (n : Nat) : Nat := 0x100690 + n * 0x10000
abbrev CH_CNT_TRN_SLICE_VALUE (n : Nat) : Fld := ⟨CH_CNT_TRN_SLICE n, 31, 0⟩
/-- CH_I3C_CMD (R251): address. -/
abbrev CH_I3C_CMD (b : Nat) : Nat := 0x1006A0 + b * 0x20000
abbrev CH_I3C_CMD_GO (b : Nat) : Fld := ⟨CH_I3C_CMD b, 31, 31⟩
abbrev CH_I3C_CMD_BUSY (b : Nat) : Fld := ⟨CH_I3C_CMD b, 30, 30⟩
abbrev CH_I3C_CMD_DONE (b : Nat) : Fld := ⟨CH_I3C_CMD b, 29, 29⟩
abbrev CH_I3C_CMD_ERR (b : Nat) : Fld := ⟨CH_I3C_CMD b, 28, 28⟩
abbrev CH_I3C_CMD_RNW (b : Nat) : Fld := ⟨CH_I3C_CMD b, 27, 27⟩
abbrev CH_I3C_CMD_HUB (b : Nat) : Fld := ⟨CH_I3C_CMD b, 26, 25⟩
abbrev CH_I3C_CMD_HUB_ADDR (b : Nat) : Fld := ⟨CH_I3C_CMD b, 22, 12⟩
abbrev CH_I3C_CMD_LEN (b : Nat) : Fld := ⟨CH_I3C_CMD b, 2, 0⟩
/-- CH_I3C_DATA (R247): address. -/
abbrev CH_I3C_DATA (b : Nat) : Nat := 0x1006B0 + b * 0x20000
abbrev CH_I3C_DATA_DATA (b : Nat) : Fld := ⟨CH_I3C_DATA b, 31, 0⟩
/-- CH_ECC_CTRL (R280): address. -/
abbrev CH_ECC_CTRL (n : Nat) : Nat := 0x100800 + n * 0x10000
abbrev CH_ECC_CTRL_DEMAND_EN (n : Nat) : Fld := ⟨CH_ECC_CTRL n, 31, 31⟩
abbrev CH_ECC_CTRL_CNT_CLR (n : Nat) : Fld := ⟨CH_ECC_CTRL n, 30, 30⟩
abbrev CH_ECC_CTRL_DEV_TH (n : Nat) : Fld := ⟨CH_ECC_CTRL n, 23, 16⟩
abbrev CH_ECC_CTRL_WIN_MS (n : Nat) : Fld := ⟨CH_ECC_CTRL n, 15, 0⟩
/-- CH_SCRUB_CTRL (R280): address. -/
abbrev CH_SCRUB_CTRL (n : Nat) : Nat := 0x100810 + n * 0x10000
abbrev CH_SCRUB_CTRL_SCRUB_EN (n : Nat) : Fld := ⟨CH_SCRUB_CTRL n, 31, 31⟩
abbrev CH_SCRUB_CTRL_PERIOD_H (n : Nat) : Fld := ⟨CH_SCRUB_CTRL n, 23, 16⟩
abbrev CH_SCRUB_CTRL_ECS_POLL_H (n : Nat) : Fld := ⟨CH_SCRUB_CTRL n, 15, 8⟩
/-- CH_SCRUB_PTR (R279): address. -/
abbrev CH_SCRUB_PTR (n : Nat) : Nat := 0x100820 + n * 0x10000
abbrev CH_SCRUB_PTR_ROW (n : Nat) : Fld := ⟨CH_SCRUB_PTR n, 17, 0⟩
/-- CH_SCRUB_POS (R281): address. -/
abbrev CH_SCRUB_POS (n : Nat) : Nat := 0x100830 + n * 0x10000
abbrev CH_SCRUB_POS_RANK (n : Nat) : Fld := ⟨CH_SCRUB_POS n, 15, 12⟩
abbrev CH_SCRUB_POS_BG (n : Nat) : Fld := ⟨CH_SCRUB_POS n, 11, 9⟩
abbrev CH_SCRUB_POS_BANK (n : Nat) : Fld := ⟨CH_SCRUB_POS n, 8, 7⟩
abbrev CH_SCRUB_POS_SC (n : Nat) : Fld := ⟨CH_SCRUB_POS n, 6, 6⟩
abbrev CH_SCRUB_POS_COLQ (n : Nat) : Fld := ⟨CH_SCRUB_POS n, 4, 0⟩
/-- CH_ECC_STATUS (R281): address. -/
abbrev CH_ECC_STATUS (n : Nat) : Nat := 0x100840 + n * 0x10000
abbrev CH_ECC_STATUS_SEQ (n : Nat) : Fld := ⟨CH_ECC_STATUS n, 31, 24⟩
abbrev CH_ECC_STATUS_PATROL_LATE (n : Nat) : Fld := ⟨CH_ECC_STATUS n, 6, 6⟩
abbrev CH_ECC_STATUS_PATROL_DONE (n : Nat) : Fld := ⟨CH_ECC_STATUS n, 5, 5⟩
abbrev CH_ECC_STATUS_LOG_OVF (n : Nat) : Fld := ⟨CH_ECC_STATUS n, 4, 4⟩
abbrev CH_ECC_STATUS_META_UE (n : Nat) : Fld := ⟨CH_ECC_STATUS n, 3, 3⟩
abbrev CH_ECC_STATUS_MARK_UE (n : Nat) : Fld := ⟨CH_ECC_STATUS n, 2, 2⟩
abbrev CH_ECC_STATUS_UE (n : Nat) : Fld := ⟨CH_ECC_STATUS n, 1, 1⟩
abbrev CH_ECC_STATUS_DEV_HOT (n : Nat) : Fld := ⟨CH_ECC_STATUS n, 0, 0⟩
/-- CH_CNT_CE (R279): address. -/
abbrev CH_CNT_CE (n : Nat) : Nat := 0x100850 + n * 0x10000
abbrev CH_CNT_CE_VALUE (n : Nat) : Fld := ⟨CH_CNT_CE n, 31, 0⟩
/-- CH_CNT_UE (R279): address. -/
abbrev CH_CNT_UE (n : Nat) : Nat := 0x100860 + n * 0x10000
abbrev CH_CNT_UE_VALUE (n : Nat) : Fld := ⟨CH_CNT_UE n, 31, 0⟩
/-- CH_CNT_POISON_RD (R279): address. -/
abbrev CH_CNT_POISON_RD (n : Nat) : Nat := 0x100870 + n * 0x10000
abbrev CH_CNT_POISON_RD_VALUE (n : Nat) : Fld := ⟨CH_CNT_POISON_RD n, 31, 0⟩
/-- CH_CNT_SCRUB_WB (R279): address. -/
abbrev CH_CNT_SCRUB_WB (n : Nat) : Nat := 0x100880 + n * 0x10000
abbrev CH_CNT_SCRUB_WB_VALUE (n : Nat) : Fld := ⟨CH_CNT_SCRUB_WB n, 31, 0⟩
/-- CH_CNT_PATROL (R279): address. -/
abbrev CH_CNT_PATROL (n : Nat) : Nat := 0x100890 + n * 0x10000
abbrev CH_CNT_PATROL_VALUE (n : Nat) : Fld := ⟨CH_CNT_PATROL n, 31, 0⟩
/-- CH_CNT_LOG_DROP (R279): address. -/
abbrev CH_CNT_LOG_DROP (n : Nat) : Nat := 0x1008A0 + n * 0x10000
abbrev CH_CNT_LOG_DROP_VALUE (n : Nat) : Fld := ⟨CH_CNT_LOG_DROP n, 31, 0⟩
/-- CH_ECC_MARK (R282): address. -/
abbrev CH_ECC_MARK (n m : Nat) : Nat := 0x100900 + n * 0x10000 + m * 0x10
abbrev CH_ECC_MARK_VALID (n m : Nat) : Fld := ⟨CH_ECC_MARK n m, 31, 31⟩
abbrev CH_ECC_MARK_RANK (n m : Nat) : Fld := ⟨CH_ECC_MARK n m, 8, 5⟩
abbrev CH_ECC_MARK_SC (n m : Nat) : Fld := ⟨CH_ECC_MARK n m, 4, 4⟩
abbrev CH_ECC_MARK_DEV (n m : Nat) : Fld := ⟨CH_ECC_MARK n m, 3, 0⟩
/-- CH_PPR_STATE (R281): address. -/
abbrev CH_PPR_STATE (n : Nat) : Nat := 0x100980 + n * 0x10000
abbrev CH_PPR_STATE_BUSY (n : Nat) : Fld := ⟨CH_PPR_STATE n, 31, 31⟩
abbrev CH_PPR_STATE_COMMITTED (n : Nat) : Fld := ⟨CH_PPR_STATE n, 30, 30⟩
abbrev CH_PPR_STATE_HARD (n : Nat) : Fld := ⟨CH_PPR_STATE n, 29, 29⟩
abbrev CH_PPR_STATE_SLOTS (n : Nat) : Fld := ⟨CH_PPR_STATE n, 7, 0⟩
/-- CH_LANE_DQ (R250): address. -/
abbrev CH_LANE_DQ (n p s j : Nat) : Nat := 0x101000 + n * 0x10000 + p * 0x1000 + s * 0x800 + j * 0x10
abbrev CH_LANE_DQ_RD_MARGIN (n p s j : Nat) : Fld := ⟨CH_LANE_DQ n p s j, 31, 24⟩
abbrev CH_LANE_DQ_WR_MARGIN (n p s j : Nat) : Fld := ⟨CH_LANE_DQ n p s j, 23, 16⟩
abbrev CH_LANE_DQ_RD_DLY (n p s j : Nat) : Fld := ⟨CH_LANE_DQ n p s j, 15, 8⟩
abbrev CH_LANE_DQ_WR_DLY (n p s j : Nat) : Fld := ⟨CH_LANE_DQ n p s j, 7, 0⟩
/-- CH_LANE_DQS (R250): address. -/
abbrev CH_LANE_DQS (n p s j : Nat) : Nat := 0x101280 + n * 0x10000 + p * 0x1000 + s * 0x800 + j * 0x10
abbrev CH_LANE_DQS_GATE (n p s j : Nat) : Fld := ⟨CH_LANE_DQS n p s j, 31, 21⟩
abbrev CH_LANE_DQS_WL_DLY (n p s j : Nat) : Fld := ⟨CH_LANE_DQS n p s j, 20, 10⟩
abbrev CH_LANE_DQS_OSC_BASE (n p s j : Nat) : Fld := ⟨CH_LANE_DQS n p s j, 9, 0⟩
/-- CH_LANE_DEV (R250): address. -/
abbrev CH_LANE_DEV (n p s j : Nat) : Nat := 0x101320 + n * 0x10000 + p * 0x1000 + s * 0x800 + j * 0x10
abbrev CH_LANE_DEV_HOST_VREF (n p s j : Nat) : Fld := ⟨CH_LANE_DEV n p s j, 30, 24⟩
abbrev CH_LANE_DEV_DEV_VREF (n p s j : Nat) : Fld := ⟨CH_LANE_DEV n p s j, 22, 16⟩
abbrev CH_LANE_DEV_HOST_DFE1 (n p s j : Nat) : Fld := ⟨CH_LANE_DEV n p s j, 15, 12⟩
abbrev CH_LANE_DEV_HOST_DFE2 (n p s j : Nat) : Fld := ⟨CH_LANE_DEV n p s j, 11, 8⟩
abbrev CH_LANE_DEV_BUF_DFE1 (n p s j : Nat) : Fld := ⟨CH_LANE_DEV n p s j, 7, 4⟩
abbrev CH_LANE_DEV_BUF_DFE2 (n p s j : Nat) : Fld := ⟨CH_LANE_DEV n p s j, 3, 0⟩
/-- CH_LANE_CA (R250): address. -/
abbrev CH_LANE_CA (n p s j : Nat) : Nat := 0x1013C0 + n * 0x10000 + p * 0x1000 + s * 0x800 + j * 0x10
abbrev CH_LANE_CA_MARGIN (n p s j : Nat) : Fld := ⟨CH_LANE_CA n p s j, 31, 24⟩
abbrev CH_LANE_CA_DLY (n p s j : Nat) : Fld := ⟨CH_LANE_CA n p s j, 10, 0⟩
/-- CH_ECC_DEV (R282): address. -/
abbrev CH_ECC_DEV (n r s d : Nat) : Nat := 0x108000 + n * 0x10000 + r * 0x200 + s * 0x100 + d * 0x10
abbrev CH_ECC_DEV_CE_CNT (n r s d : Nat) : Fld := ⟨CH_ECC_DEV n r s d, 31, 16⟩
abbrev CH_ECC_DEV_ECS_ERR (n r s d : Nat) : Fld := ⟨CH_ECC_DEV n r s d, 15, 8⟩
abbrev CH_ECC_DEV_HOT (n r s d : Nat) : Fld := ⟨CH_ECC_DEV n r s d, 0, 0⟩
/-- DIR_CTRL (R369): address. -/
abbrev DIR_CTRL : Nat := 0x200000
abbrev DIR_CTRL_DIR_EN : Fld := ⟨DIR_CTRL, 31, 31⟩
abbrev DIR_CTRL_MODE : Fld := ⟨DIR_CTRL, 24, 24⟩
/-- DIR_BI_TIMEOUT (R368): address. -/
abbrev DIR_BI_TIMEOUT : Nat := 0x200010
abbrev DIR_BI_TIMEOUT_TIMEOUT_US : Fld := ⟨DIR_BI_TIMEOUT, 19, 0⟩
/-- DIR_STATUS (R370): address. -/
abbrev DIR_STATUS : Nat := 0x200020
abbrev DIR_STATUS_SEQ : Fld := ⟨DIR_STATUS, 31, 24⟩
abbrev DIR_STATUS_AGENT : Fld := ⟨DIR_STATUS, 23, 12⟩
abbrev DIR_STATUS_ECC_UE : Fld := ⟨DIR_STATUS, 7, 7⟩
abbrev DIR_STATUS_ECC_CE : Fld := ⟨DIR_STATUS, 6, 6⟩
abbrev DIR_STATUS_LOG_OVF : Fld := ⟨DIR_STATUS, 5, 5⟩
abbrev DIR_STATUS_PUSH_SKIP : Fld := ⟨DIR_STATUS, 4, 4⟩
abbrev DIR_STATUS_WIDE : Fld := ⟨DIR_STATUS, 3, 3⟩
abbrev DIR_STATUS_RETRY_FULL : Fld := ⟨DIR_STATUS, 2, 2⟩
abbrev DIR_STATUS_RESET_RECLAIM : Fld := ⟨DIR_STATUS, 1, 1⟩
abbrev DIR_STATUS_DEAD : Fld := ⟨DIR_STATUS, 0, 0⟩
/-- DIR_OCC (R368): address. -/
abbrev DIR_OCC : Nat := 0x200030
abbrev DIR_OCC_USED : Fld := ⟨DIR_OCC, 23, 0⟩
/-- DIR_QUEUE (R368): address. -/
abbrev DIR_QUEUE : Nat := 0x200040
abbrev DIR_QUEUE_RETRY_OCC : Fld := ⟨DIR_QUEUE, 31, 23⟩
abbrev DIR_QUEUE_VICTIM_OCC : Fld := ⟨DIR_QUEUE, 22, 15⟩
abbrev DIR_QUEUE_SNOOP_OCC : Fld := ⟨DIR_QUEUE, 12, 0⟩
/-- DIR_OTT (R368): address. -/
abbrev DIR_OTT : Nat := 0x200050
abbrev DIR_OTT_OTT_OCC : Fld := ⟨DIR_OTT, 11, 0⟩
/-- DIR_CFG_REJECT (R569): address. -/
abbrev DIR_CFG_REJECT : Nat := 0x200060
abbrev DIR_CFG_REJECT_SEQ : Fld := ⟨DIR_CFG_REJECT, 31, 24⟩
abbrev DIR_CFG_REJECT_CAUSE : Fld := ⟨DIR_CFG_REJECT, 23, 22⟩
abbrev DIR_CFG_REJECT_INTERNAL : Fld := ⟨DIR_CFG_REJECT, 21, 21⟩
abbrev DIR_CFG_REJECT_MULTI : Fld := ⟨DIR_CFG_REJECT, 20, 20⟩
abbrev DIR_CFG_REJECT_ADDR : Fld := ⟨DIR_CFG_REJECT, 17, 0⟩
/-- DIR_WALK (R368): address. -/
abbrev DIR_WALK : Nat := 0x200070
abbrev DIR_WALK_BUSY : Fld := ⟨DIR_WALK, 31, 31⟩
abbrev DIR_WALK_KIND : Fld := ⟨DIR_WALK, 30, 30⟩
abbrev DIR_WALK_AGENT : Fld := ⟨DIR_WALK, 29, 18⟩
abbrev DIR_WALK_SET : Fld := ⟨DIR_WALK, 17, 0⟩
/-- DIR_PROTO_STATUS (R392): address. -/
abbrev DIR_PROTO_STATUS : Nat := 0x200080
abbrev DIR_PROTO_STATUS_SEQ : Fld := ⟨DIR_PROTO_STATUS, 31, 24⟩
abbrev DIR_PROTO_STATUS_AGENT : Fld := ⟨DIR_PROTO_STATUS, 23, 12⟩
abbrev DIR_PROTO_STATUS_PORT : Fld := ⟨DIR_PROTO_STATUS, 11, 5⟩
abbrev DIR_PROTO_STATUS_UNSOLICITED : Fld := ⟨DIR_PROTO_STATUS, 3, 3⟩
abbrev DIR_PROTO_STATUS_FW_CAP : Fld := ⟨DIR_PROTO_STATUS, 2, 2⟩
abbrev DIR_PROTO_STATUS_WRONG_RSP : Fld := ⟨DIR_PROTO_STATUS, 1, 1⟩
abbrev DIR_PROTO_STATUS_BAD_BITAG : Fld := ⟨DIR_PROTO_STATUS, 0, 0⟩
/-- DIR_CNT_LOOKUP (R368): address. -/
abbrev DIR_CNT_LOOKUP : Nat := 0x200100
abbrev DIR_CNT_LOOKUP_VALUE : Fld := ⟨DIR_CNT_LOOKUP, 31, 0⟩
/-- DIR_CNT_EVICT (R368): address. -/
abbrev DIR_CNT_EVICT : Nat := 0x200110
abbrev DIR_CNT_EVICT_VALUE : Fld := ⟨DIR_CNT_EVICT, 31, 0⟩
/-- DIR_CNT_BISNP (R368): address. -/
abbrev DIR_CNT_BISNP : Nat := 0x200120
abbrev DIR_CNT_BISNP_VALUE : Fld := ⟨DIR_CNT_BISNP, 31, 0⟩
/-- DIR_CNT_RETRY (R368): address. -/
abbrev DIR_CNT_RETRY : Nat := 0x200130
abbrev DIR_CNT_RETRY_VALUE : Fld := ⟨DIR_CNT_RETRY, 31, 0⟩
/-- DIR_CNT_TIMEOUT (R368): address. -/
abbrev DIR_CNT_TIMEOUT : Nat := 0x200140
abbrev DIR_CNT_TIMEOUT_VALUE : Fld := ⟨DIR_CNT_TIMEOUT, 31, 0⟩
/-- DIR_CNT_POISON (R368): address. -/
abbrev DIR_CNT_POISON : Nat := 0x200150
abbrev DIR_CNT_POISON_VALUE : Fld := ⟨DIR_CNT_POISON, 31, 0⟩
/-- DIR_CNT_PUSH_SKIP (R368): address. -/
abbrev DIR_CNT_PUSH_SKIP : Nat := 0x200160
abbrev DIR_CNT_PUSH_SKIP_VALUE : Fld := ⟨DIR_CNT_PUSH_SKIP, 31, 0⟩
/-- DIR_CNT_WIDE (R368): address. -/
abbrev DIR_CNT_WIDE : Nat := 0x200170
abbrev DIR_CNT_WIDE_VALUE : Fld := ⟨DIR_CNT_WIDE, 31, 0⟩
/-- DIR_CNT_UNENROLLED (R368): address. -/
abbrev DIR_CNT_UNENROLLED : Nat := 0x200180
abbrev DIR_CNT_UNENROLLED_VALUE : Fld := ⟨DIR_CNT_UNENROLLED, 31, 0⟩
/-- DIR_CNT_ECC_CE (R368): address. -/
abbrev DIR_CNT_ECC_CE : Nat := 0x200190
abbrev DIR_CNT_ECC_CE_VALUE : Fld := ⟨DIR_CNT_ECC_CE, 31, 0⟩
/-- DIR_CNT_FWRITE (R391): address. -/
abbrev DIR_CNT_FWRITE : Nat := 0x2001A0
abbrev DIR_CNT_FWRITE_VALUE : Fld := ⟨DIR_CNT_FWRITE, 31, 0⟩
/-- DIR_CNT_PUSH (R391): address. -/
abbrev DIR_CNT_PUSH : Nat := 0x2001B0
abbrev DIR_CNT_PUSH_VALUE : Fld := ⟨DIR_CNT_PUSH, 31, 0⟩
/-- DIR_CNT_CONFLICT (R391): address. -/
abbrev DIR_CNT_CONFLICT : Nat := 0x2001C0
abbrev DIR_CNT_CONFLICT_VALUE : Fld := ⟨DIR_CNT_CONFLICT, 31, 0⟩
/-- DIR_CNT_PROTO (R391): address. -/
abbrev DIR_CNT_PROTO : Nat := 0x2001D0
abbrev DIR_CNT_PROTO_VALUE : Fld := ⟨DIR_CNT_PROTO, 31, 0⟩
/-- DIR_ENROLL (R370): address. -/
abbrev DIR_ENROLL (a : Nat) : Nat := 0x201000 + a * 0x10
abbrev DIR_ENROLL_ENROLLED (a : Nat) : Fld := ⟨DIR_ENROLL a, 31, 31⟩
abbrev DIR_ENROLL_PLACE (a : Nat) : Fld := ⟨DIR_ENROLL a, 30, 30⟩
abbrev DIR_ENROLL_DEAD (a : Nat) : Fld := ⟨DIR_ENROLL a, 29, 29⟩
abbrev DIR_ENROLL_WALK (a : Nat) : Fld := ⟨DIR_ENROLL a, 28, 28⟩
abbrev DIR_ENROLL_PORT (a : Nat) : Fld := ⟨DIR_ENROLL a, 12, 6⟩
abbrev DIR_ENROLL_VIDX (a : Nat) : Fld := ⟨DIR_ENROLL a, 5, 0⟩
/-- CRY_CTRL (R341): address. -/
abbrev CRY_CTRL : Nat := 0x300000
abbrev CRY_CTRL_CRY_EN : Fld := ⟨CRY_CTRL, 31, 31⟩
abbrev CRY_CTRL_LOCK : Fld := ⟨CRY_CTRL, 30, 30⟩
abbrev CRY_CTRL_PRIV_AGENT : Fld := ⟨CRY_CTRL, 29, 18⟩
abbrev CRY_CTRL_FRESH_LOG2 : Fld := ⟨CRY_CTRL, 13, 8⟩
/-- CRY_STATUS (R342): address. -/
abbrev CRY_STATUS : Nat := 0x300010
abbrev CRY_STATUS_SEQ : Fld := ⟨CRY_STATUS, 31, 24⟩
abbrev CRY_STATUS_CTX : Fld := ⟨CRY_STATUS, 23, 12⟩
abbrev CRY_STATUS_ZEROIZED : Fld := ⟨CRY_STATUS, 6, 6⟩
abbrev CRY_STATUS_ENT_WAIT : Fld := ⟨CRY_STATUS, 5, 5⟩
abbrev CRY_STATUS_REBUILD : Fld := ⟨CRY_STATUS, 4, 4⟩
abbrev CRY_STATUS_CTR_LOST : Fld := ⟨CRY_STATUS, 3, 3⟩
abbrev CRY_STATUS_MAC_LOST : Fld := ⟨CRY_STATUS, 2, 2⟩
abbrev CRY_STATUS_FRESH_FAIL : Fld := ⟨CRY_STATUS, 1, 1⟩
abbrev CRY_STATUS_MAC_FAIL : Fld := ⟨CRY_STATUS, 0, 0⟩
/-- CRY_PT_VER (R340): address. -/
abbrev CRY_PT_VER : Nat := 0x300020
abbrev CRY_PT_VER_DRAINING : Fld := ⟨CRY_PT_VER, 17, 17⟩
abbrev CRY_PT_VER_BANK : Fld := ⟨CRY_PT_VER, 16, 16⟩
abbrev CRY_PT_VER_VER : Fld := ⟨CRY_PT_VER, 15, 0⟩
/-- CRY_CASK_CFG (R343): address. -/
abbrev CRY_CASK_CFG : Nat := 0x300030
abbrev CRY_CASK_CFG_SC_WAYS : Fld := ⟨CRY_CASK_CFG, 11, 8⟩
abbrev CRY_CASK_CFG_CTR_WAYS : Fld := ⟨CRY_CASK_CFG, 3, 0⟩
/-- CRY_ADM (R343): address. -/
abbrev CRY_ADM : Nat := 0x300040
abbrev CRY_ADM_FRESH_WR : Fld := ⟨CRY_ADM, 31, 24⟩
abbrev CRY_ADM_FRESH_RD : Fld := ⟨CRY_ADM, 23, 16⟩
abbrev CRY_ADM_AUTH_WR : Fld := ⟨CRY_ADM, 15, 8⟩
abbrev CRY_ADM_AUTH_RD : Fld := ⟨CRY_ADM, 7, 0⟩
/-- CRY_FW_SVN (R340): address. -/
abbrev CRY_FW_SVN : Nat := 0x300050
abbrev CRY_FW_SVN_RUN_SVN : Fld := ⟨CRY_FW_SVN, 31, 16⟩
abbrev CRY_FW_SVN_MIN_SVN : Fld := ⟨CRY_FW_SVN, 15, 0⟩
/-- CRY_CFG_REJECT (R569): address. -/
abbrev CRY_CFG_REJECT : Nat := 0x300060
abbrev CRY_CFG_REJECT_SEQ : Fld := ⟨CRY_CFG_REJECT, 31, 24⟩
abbrev CRY_CFG_REJECT_CAUSE : Fld := ⟨CRY_CFG_REJECT, 23, 22⟩
abbrev CRY_CFG_REJECT_INTERNAL : Fld := ⟨CRY_CFG_REJECT, 21, 21⟩
abbrev CRY_CFG_REJECT_MULTI : Fld := ⟨CRY_CFG_REJECT, 20, 20⟩
abbrev CRY_CFG_REJECT_ADDR : Fld := ⟨CRY_CFG_REJECT, 17, 0⟩
/-- CRY_CNT_DENY (R340): address. -/
abbrev CRY_CNT_DENY : Nat := 0x300100
abbrev CRY_CNT_DENY_VALUE : Fld := ⟨CRY_CNT_DENY, 31, 0⟩
/-- CRY_CNT_INTEG (R340): address. -/
abbrev CRY_CNT_INTEG : Nat := 0x300110
abbrev CRY_CNT_INTEG_VALUE : Fld := ⟨CRY_CNT_INTEG, 31, 0⟩
/-- CRY_CNT_REBASE (R340): address. -/
abbrev CRY_CNT_REBASE : Nat := 0x300120
abbrev CRY_CNT_REBASE_VALUE : Fld := ⟨CRY_CNT_REBASE, 31, 0⟩
/-- CRY_CNT_CASK_HIT (R340): address. -/
abbrev CRY_CNT_CASK_HIT : Nat := 0x300130
abbrev CRY_CNT_CASK_HIT_VALUE : Fld := ⟨CRY_CNT_CASK_HIT, 31, 0⟩
/-- CRY_CNT_CASK_MISS (R340): address. -/
abbrev CRY_CNT_CASK_MISS : Nat := 0x300140
abbrev CRY_CNT_CASK_MISS_VALUE : Fld := ⟨CRY_CNT_CASK_MISS, 31, 0⟩
/-- QOS_CTRL (R414): address. -/
abbrev QOS_CTRL : Nat := 0x400000
abbrev QOS_CTRL_QOS_EN : Fld := ⟨QOS_CTRL, 31, 31⟩
abbrev QOS_CTRL_COMMIT : Fld := ⟨QOS_CTRL, 30, 30⟩
abbrev QOS_CTRL_HOT_ADMIT : Fld := ⟨QOS_CTRL, 29, 29⟩
abbrev QOS_CTRL_MISS_TH : Fld := ⟨QOS_CTRL, 15, 8⟩
abbrev QOS_CTRL_MISS_WIN : Fld := ⟨QOS_CTRL, 7, 0⟩
/-- QOS_DEGRADED (R414): address. -/
abbrev QOS_DEGRADED : Nat := 0x400010
abbrev QOS_DEGRADED_SEQ : Fld := ⟨QOS_DEGRADED, 31, 24⟩
abbrev QOS_DEGRADED_CLASSES : Fld := ⟨QOS_DEGRADED, 23, 16⟩
abbrev QOS_DEGRADED_ACTIVE : Fld := ⟨QOS_DEGRADED, 15, 8⟩
abbrev QOS_DEGRADED_DEGRADED : Fld := ⟨QOS_DEGRADED, 0, 0⟩
/-- QOS_SHORTFALL (R412): address. -/
abbrev QOS_SHORTFALL : Nat := 0x400020
abbrev QOS_SHORTFALL_MAX : Fld := ⟨QOS_SHORTFALL, 31, 16⟩
abbrev QOS_SHORTFALL_NOW : Fld := ⟨QOS_SHORTFALL, 15, 0⟩
/-- QOS_MISS_STATUS (R412): address. -/
abbrev QOS_MISS_STATUS : Nat := 0x400030
abbrev QOS_MISS_STATUS_SEQ : Fld := ⟨QOS_MISS_STATUS, 31, 24⟩
abbrev QOS_MISS_STATUS_CLASSES : Fld := ⟨QOS_MISS_STATUS, 7, 0⟩
/-- QOS_SERVICE (R412): address. -/
abbrev QOS_SERVICE : Nat := 0x400040
abbrev QOS_SERVICE_SERVICE : Fld := ⟨QOS_SERVICE, 15, 0⟩
/-- QOS_CFG_REJECT (R569): address. -/
abbrev QOS_CFG_REJECT : Nat := 0x400050
abbrev QOS_CFG_REJECT_SEQ : Fld := ⟨QOS_CFG_REJECT, 31, 24⟩
abbrev QOS_CFG_REJECT_CAUSE : Fld := ⟨QOS_CFG_REJECT, 23, 22⟩
abbrev QOS_CFG_REJECT_INTERNAL : Fld := ⟨QOS_CFG_REJECT, 21, 21⟩
abbrev QOS_CFG_REJECT_MULTI : Fld := ⟨QOS_CFG_REJECT, 20, 20⟩
abbrev QOS_CFG_REJECT_ADDR : Fld := ⟨QOS_CFG_REJECT, 17, 0⟩
/-- QOS_CLASS (R415): address. -/
abbrev QOS_CLASS (c : Nat) : Nat := 0x400100 + c * 0x40
abbrev QOS_CLASS_LIMIT_EN (c : Nat) : Fld := ⟨QOS_CLASS c, 31, 31⟩
abbrev QOS_CLASS_BASE_PRI (c : Nat) : Fld := ⟨QOS_CLASS c, 30, 28⟩
abbrev QOS_CLASS_BURST (c : Nat) : Fld := ⟨QOS_CLASS c, 27, 20⟩
abbrev QOS_CLASS_CEIL (c : Nat) : Fld := ⟨QOS_CLASS c, 19, 0⟩
/-- QOS_RESV (R412): address. -/
abbrev QOS_RESV (c : Nat) : Nat := 0x400110 + c * 0x40
abbrev QOS_RESV_WEIGHTED (c : Nat) : Fld := ⟨QOS_RESV c, 19, 0⟩
/-- QOS_TGT (R412): address. -/
abbrev QOS_TGT (c : Nat) : Nat := 0x400120 + c * 0x40
abbrev QOS_TGT_TARGET (c : Nat) : Fld := ⟨QOS_TGT c, 15, 0⟩
/-- QOS_CAP (R415): address. -/
abbrev QOS_CAP (n : Nat) : Nat := 0x400400 + n * 0x10
abbrev QOS_CAP_BASE (n : Nat) : Fld := ⟨QOS_CAP n, 31, 16⟩
abbrev QOS_CAP_HOT_DELTA (n : Nat) : Fld := ⟨QOS_CAP n, 15, 0⟩
/-- QOS_DROP (R415): address. -/
abbrev QOS_DROP (n : Nat) : Nat := 0x400500 + n * 0x10
abbrev QOS_DROP_FW_DROP (n : Nat) : Fld := ⟨QOS_DROP n, 31, 16⟩
abbrev QOS_DROP_EXCESS (n : Nat) : Fld := ⟨QOS_DROP n, 15, 0⟩
/-- QOS_SHED (R412): address. -/
abbrev QOS_SHED (n : Nat) : Nat := 0x400600 + n * 0x10
abbrev QOS_SHED_CLASSES (n : Nat) : Fld := ⟨QOS_SHED n, 23, 16⟩
abbrev QOS_SHED_SHORT (n : Nat) : Fld := ⟨QOS_SHED n, 15, 0⟩
/-- QOS_CNT_MISS (R412): address. -/
abbrev QOS_CNT_MISS (c : Nat) : Nat := 0x400700 + c * 0x10
abbrev QOS_CNT_MISS_VALUE (c : Nat) : Fld := ⟨QOS_CNT_MISS c, 31, 0⟩
/-- FLT_CTRL (R557): address. -/
abbrev FLT_CTRL : Nat := 0x500000
abbrev FLT_CTRL_MODE : Fld := ⟨FLT_CTRL, 31, 31⟩
abbrev FLT_CTRL_AUTO_EXIT : Fld := ⟨FLT_CTRL, 30, 30⟩
abbrev FLT_CTRL_INJ_EN : Fld := ⟨FLT_CTRL, 29, 29⟩
abbrev FLT_CTRL_QUIET_MS : Fld := ⟨FLT_CTRL, 15, 0⟩
/-- FLT_STATUS (R558): address. -/
abbrev FLT_STATUS : Nat := 0x500010
abbrev FLT_STATUS_SEQ : Fld := ⟨FLT_STATUS, 31, 24⟩
abbrev FLT_STATUS_SOURCE : Fld := ⟨FLT_STATUS, 23, 16⟩
abbrev FLT_STATUS_SELF : Fld := ⟨FLT_STATUS, 5, 5⟩
abbrev FLT_STATUS_SAFE : Fld := ⟨FLT_STATUS, 4, 4⟩
abbrev FLT_STATUS_OVF : Fld := ⟨FLT_STATUS, 3, 3⟩
abbrev FLT_STATUS_FATAL : Fld := ⟨FLT_STATUS, 2, 2⟩
abbrev FLT_STATUS_CONT : Fld := ⟨FLT_STATUS, 1, 1⟩
abbrev FLT_STATUS_CE : Fld := ⟨FLT_STATUS, 0, 0⟩
/-- FLT_SAFE (R558): address. -/
abbrev FLT_SAFE : Nat := 0x500020
abbrev FLT_SAFE_PHASE : Fld := ⟨FLT_SAFE, 31, 29⟩
abbrev FLT_SAFE_DUMP_DONE : Fld := ⟨FLT_SAFE, 28, 28⟩
abbrev FLT_SAFE_DUMP_TGT : Fld := ⟨FLT_SAFE, 27, 27⟩
abbrev FLT_SAFE_NO_AUTO : Fld := ⟨FLT_SAFE, 26, 24⟩
abbrev FLT_SAFE_CAUSE_SRC : Fld := ⟨FLT_SAFE, 23, 16⟩
abbrev FLT_SAFE_DUMP_ID : Fld := ⟨FLT_SAFE, 15, 0⟩
/-- FLT_RECOVERY (R559): address. -/
abbrev FLT_RECOVERY : Nat := 0x500030
abbrev FLT_RECOVERY_RECENT : Fld := ⟨FLT_RECOVERY, 31, 30⟩
abbrev FLT_RECOVERY_RECOVERY_COUNT : Fld := ⟨FLT_RECOVERY, 15, 0⟩
/-- FLT_HIST_STATE (R556): address. -/
abbrev FLT_HIST_STATE : Nat := 0x500040
abbrev FLT_HIST_STATE_COUNT : Fld := ⟨FLT_HIST_STATE, 5, 0⟩
/-- FLT_HIST_POP (R556): address. -/
abbrev FLT_HIST_POP : Nat := 0x500050
abbrev FLT_HIST_POP_POP : Fld := ⟨FLT_HIST_POP, 5, 0⟩
/-- FLT_CFG_REJECT (R569): address. -/
abbrev FLT_CFG_REJECT : Nat := 0x500060
abbrev FLT_CFG_REJECT_SEQ : Fld := ⟨FLT_CFG_REJECT, 31, 24⟩
abbrev FLT_CFG_REJECT_CAUSE : Fld := ⟨FLT_CFG_REJECT, 23, 22⟩
abbrev FLT_CFG_REJECT_INTERNAL : Fld := ⟨FLT_CFG_REJECT, 21, 21⟩
abbrev FLT_CFG_REJECT_MULTI : Fld := ⟨FLT_CFG_REJECT, 20, 20⟩
abbrev FLT_CFG_REJECT_ADDR : Fld := ⟨FLT_CFG_REJECT, 17, 0⟩
/-- FLT_PEND (R556): address. -/
abbrev FLT_PEND (k : Nat) : Nat := 0x500070 + k * 0x10
abbrev FLT_PEND_VALUE (k : Nat) : Fld := ⟨FLT_PEND k, 31, 0⟩
/-- FLT_DOWN_ENG (R556): address. -/
abbrev FLT_DOWN_ENG : Nat := 0x5000A0
abbrev FLT_DOWN_ENG_VALUE : Fld := ⟨FLT_DOWN_ENG, 31, 0⟩
/-- FLT_DOWN_EXCL (R556): address. -/
abbrev FLT_DOWN_EXCL : Nat := 0x5000B0
abbrev FLT_DOWN_EXCL_VALUE : Fld := ⟨FLT_DOWN_EXCL, 31, 0⟩
/-- FLT_DOWN_PLAN (R556): address. -/
abbrev FLT_DOWN_PLAN : Nat := 0x5000C0
abbrev FLT_DOWN_PLAN_VALUE : Fld := ⟨FLT_DOWN_PLAN, 31, 0⟩
/-- FLT_CNT_CE (R556): address. -/
abbrev FLT_CNT_CE : Nat := 0x5000D0
abbrev FLT_CNT_CE_VALUE : Fld := ⟨FLT_CNT_CE, 31, 0⟩
/-- FLT_CNT_CONT (R556): address. -/
abbrev FLT_CNT_CONT : Nat := 0x5000E0
abbrev FLT_CNT_CONT_VALUE : Fld := ⟨FLT_CNT_CONT, 31, 0⟩
/-- FLT_CNT_FATAL (R556): address. -/
abbrev FLT_CNT_FATAL : Nat := 0x5000F0
abbrev FLT_CNT_FATAL_VALUE : Fld := ⟨FLT_CNT_FATAL, 31, 0⟩
/-- FLT_CNT_HIST_DROP (R556): address. -/
abbrev FLT_CNT_HIST_DROP : Nat := 0x500100
abbrev FLT_CNT_HIST_DROP_VALUE : Fld := ⟨FLT_CNT_HIST_DROP, 31, 0⟩
/-- FLT_INJECT (R557): address. -/
abbrev FLT_INJECT : Nat := 0x500110
abbrev FLT_INJECT_GO : Fld := ⟨FLT_INJECT, 31, 31⟩
abbrev FLT_INJECT_CLASS : Fld := ⟨FLT_INJECT, 30, 29⟩
abbrev FLT_INJECT_SOURCE : Fld := ⟨FLT_INJECT, 23, 16⟩
/-- FLT_SRC_CFG (R559): address. -/
abbrev FLT_SRC_CFG (s : Nat) : Nat := 0x501000 + s * 0x40
abbrev FLT_SRC_CFG_N (s : Nat) : Fld := ⟨FLT_SRC_CFG s, 31, 24⟩
abbrev FLT_SRC_CFG_W_UNIT (s : Nat) : Fld := ⟨FLT_SRC_CFG s, 17, 16⟩
abbrev FLT_SRC_CFG_W_VAL (s : Nat) : Fld := ⟨FLT_SRC_CFG s, 15, 0⟩
/-- FLT_SRC_STATUS (R559): address. -/
abbrev FLT_SRC_STATUS (s : Nat) : Nat := 0x501010 + s * 0x40
abbrev FLT_SRC_STATUS_SEQ (s : Nat) : Fld := ⟨FLT_SRC_STATUS s, 31, 24⟩
abbrev FLT_SRC_STATUS_PEND (s : Nat) : Fld := ⟨FLT_SRC_STATUS s, 23, 23⟩
abbrev FLT_SRC_STATUS_CLASS (s : Nat) : Fld := ⟨FLT_SRC_STATUS s, 22, 21⟩
abbrev FLT_SRC_STATUS_COUNT (s : Nat) : Fld := ⟨FLT_SRC_STATUS s, 15, 0⟩
/-- FLT_SRC_SYN (R556): address. -/
abbrev FLT_SRC_SYN (s : Nat) : Nat := 0x501020 + s * 0x40
abbrev FLT_SRC_SYN_SYN (s : Nat) : Fld := ⟨FLT_SRC_SYN s, 31, 0⟩
/-- PWR_CTRL (R471): address. -/
abbrev PWR_CTRL : Nat := 0x600000
abbrev PWR_CTRL_IN_SERVICE : Fld := ⟨PWR_CTRL, 31, 31⟩
abbrev PWR_CTRL_PDE_IDLE : Fld := ⟨PWR_CTRL, 15, 0⟩
/-- PWR_STATE (R471): address. -/
abbrev PWR_STATE : Nat := 0x600010
abbrev PWR_STATE_STATE : Fld := ⟨PWR_STATE, 31, 29⟩
abbrev PWR_STATE_TARGET : Fld := ⟨PWR_STATE, 28, 26⟩
abbrev PWR_STATE_PENDING : Fld := ⟨PWR_STATE, 25, 23⟩
abbrev PWR_STATE_PEND_VALID : Fld := ⟨PWR_STATE, 22, 22⟩
abbrev PWR_STATE_TRANS : Fld := ⟨PWR_STATE, 21, 21⟩
abbrev PWR_STATE_REVERSING : Fld := ⟨PWR_STATE, 20, 20⟩
abbrev PWR_STATE_STEP : Fld := ⟨PWR_STATE, 19, 16⟩
/-- PWR_CMD (R472): address. -/
abbrev PWR_CMD : Nat := 0x600020
abbrev PWR_CMD_GO : Fld := ⟨PWR_CMD, 31, 31⟩
abbrev PWR_CMD_COMMANDED : Fld := ⟨PWR_CMD, 30, 30⟩
abbrev PWR_CMD_TARGET : Fld := ⟨PWR_CMD, 2, 0⟩
/-- PWR_HS_STATUS (R473): address. -/
abbrev PWR_HS_STATUS : Nat := 0x600030
abbrev PWR_HS_STATUS_SEQ : Fld := ⟨PWR_HS_STATUS, 31, 24⟩
abbrev PWR_HS_STATUS_BLOCK : Fld := ⟨PWR_HS_STATUS, 20, 16⟩
abbrev PWR_HS_STATUS_REVERSED : Fld := ⟨PWR_HS_STATUS, 4, 4⟩
abbrev PWR_HS_STATUS_SUPERSEDED : Fld := ⟨PWR_HS_STATUS, 3, 3⟩
abbrev PWR_HS_STATUS_EXPIRED : Fld := ⟨PWR_HS_STATUS, 2, 2⟩
abbrev PWR_HS_STATUS_REFUSED : Fld := ⟨PWR_HS_STATUS, 1, 1⟩
abbrev PWR_HS_STATUS_DONE : Fld := ⟨PWR_HS_STATUS, 0, 0⟩
/-- PWR_CH_PWR (R474): address. -/
abbrev PWR_CH_PWR : Nat := 0x600040
abbrev PWR_CH_PWR_PHY_EN : Fld := ⟨PWR_CH_PWR, 31, 16⟩
abbrev PWR_CH_PWR_CTL_EN : Fld := ⟨PWR_CH_PWR, 15, 0⟩
/-- PWR_CNT_TRANS (R470): address. -/
abbrev PWR_CNT_TRANS : Nat := 0x600050
abbrev PWR_CNT_TRANS_VALUE : Fld := ⟨PWR_CNT_TRANS, 31, 0⟩
/-- PWR_AON_STATUS (R470): address. -/
abbrev PWR_AON_STATUS : Nat := 0x600060
abbrev PWR_AON_STATUS_SEQ : Fld := ⟨PWR_AON_STATUS, 31, 24⟩
abbrev PWR_AON_STATUS_RET_LOST : Fld := ⟨PWR_AON_STATUS, 0, 0⟩
/-- PWR_CLK_STATUS (R449): address. -/
abbrev PWR_CLK_STATUS : Nat := 0x601000
abbrev PWR_CLK_STATUS_SEQ : Fld := ⟨PWR_CLK_STATUS, 31, 24⟩
abbrev PWR_CLK_STATUS_BIN : Fld := ⟨PWR_CLK_STATUS, 18, 16⟩
abbrev PWR_CLK_STATUS_CAL_VALID : Fld := ⟨PWR_CLK_STATUS, 2, 2⟩
abbrev PWR_CLK_STATUS_LOCKED : Fld := ⟨PWR_CLK_STATUS, 1, 1⟩
abbrev PWR_CLK_STATUS_KILN_BAD : Fld := ⟨PWR_CLK_STATUS, 0, 0⟩
/-- PWR_BIN_NEXT (R448): address. -/
abbrev PWR_BIN_NEXT : Nat := 0x601010
abbrev PWR_BIN_NEXT_BIN_NEXT : Fld := ⟨PWR_BIN_NEXT, 2, 0⟩
/-- PWR_RESET_CAUSE (R449): address. -/
abbrev PWR_RESET_CAUSE : Nat := 0x601020
abbrev PWR_RESET_CAUSE_SEQ : Fld := ⟨PWR_RESET_CAUSE, 31, 24⟩
abbrev PWR_RESET_CAUSE_OFF_WAKE : Fld := ⟨PWR_RESET_CAUSE, 5, 5⟩
abbrev PWR_RESET_CAUSE_REF_LOSS : Fld := ⟨PWR_RESET_CAUSE, 4, 4⟩
abbrev PWR_RESET_CAUSE_LOCK_LOST : Fld := ⟨PWR_RESET_CAUSE, 3, 3⟩
abbrev PWR_RESET_CAUSE_ABSENT : Fld := ⟨PWR_RESET_CAUSE, 2, 2⟩
abbrev PWR_RESET_CAUSE_SRST : Fld := ⟨PWR_RESET_CAUSE, 1, 1⟩
abbrev PWR_RESET_CAUSE_PORST : Fld := ⟨PWR_RESET_CAUSE, 0, 0⟩
/-- PWR_TB_STATE (R450): address. -/
abbrev PWR_TB_STATE : Nat := 0x601030
abbrev PWR_TB_STATE_SEQ : Fld := ⟨PWR_TB_STATE, 31, 24⟩
abbrev PWR_TB_STATE_STEPPED : Fld := ⟨PWR_TB_STATE, 4, 4⟩
abbrev PWR_TB_STATE_SLEW_NEG : Fld := ⟨PWR_TB_STATE, 3, 3⟩
abbrev PWR_TB_STATE_SLEW_POS : Fld := ⟨PWR_TB_STATE, 2, 2⟩
abbrev PWR_TB_STATE_WOKE : Fld := ⟨PWR_TB_STATE, 1, 1⟩
abbrev PWR_TB_STATE_EPOCH_INVALID : Fld := ⟨PWR_TB_STATE, 0, 0⟩
/-- PWR_TB_CFG (R450): address. -/
abbrev PWR_TB_CFG : Nat := 0x601040
abbrev PWR_TB_CFG_STEP_TH : Fld := ⟨PWR_TB_CFG, 31, 16⟩
abbrev PWR_TB_CFG_UNC_PPM : Fld := ⟨PWR_TB_CFG, 15, 0⟩
/-- PWR_TB_SET0 (R448): address. -/
abbrev PWR_TB_SET0 : Nat := 0x601050
abbrev PWR_TB_SET0_VALUE : Fld := ⟨PWR_TB_SET0, 31, 0⟩
/-- PWR_TB_SET1 (R448): address. -/
abbrev PWR_TB_SET1 : Nat := 0x601060
abbrev PWR_TB_SET1_VALUE : Fld := ⟨PWR_TB_SET1, 31, 0⟩
/-- PWR_TB_SETC (R448): address. -/
abbrev PWR_TB_SETC : Nat := 0x601070
abbrev PWR_TB_SETC_GO : Fld := ⟨PWR_TB_SETC, 31, 31⟩
abbrev PWR_TB_SETC_UNCERT : Fld := ⟨PWR_TB_SETC, 23, 0⟩
/-- PWR_KILN_PER (R448): address. -/
abbrev PWR_KILN_PER : Nat := 0x601080
abbrev PWR_KILN_PER_PERIOD : Fld := ⟨PWR_KILN_PER, 31, 0⟩
/-- PWR_CFG_REJECT (R569): address. -/
abbrev PWR_CFG_REJECT : Nat := 0x6010F0
abbrev PWR_CFG_REJECT_SEQ : Fld := ⟨PWR_CFG_REJECT, 31, 24⟩
abbrev PWR_CFG_REJECT_CAUSE : Fld := ⟨PWR_CFG_REJECT, 23, 22⟩
abbrev PWR_CFG_REJECT_INTERNAL : Fld := ⟨PWR_CFG_REJECT, 21, 21⟩
abbrev PWR_CFG_REJECT_MULTI : Fld := ⟨PWR_CFG_REJECT, 20, 20⟩
abbrev PWR_CFG_REJECT_ADDR : Fld := ⟨PWR_CFG_REJECT, 17, 0⟩
/-- MBX_MB_D (R498): address. -/
abbrev MBX_MB_D (m w : Nat) : Nat := 0x700000 + m * 0x400 + w * 0x10
abbrev MBX_MB_D_DATA (m w : Nat) : Fld := ⟨MBX_MB_D m w, 31, 0⟩
/-- MBX_MB_STATE (R498): address. -/
abbrev MBX_MB_STATE (m : Nat) : Nat := 0x710000 + m * 0x10
abbrev MBX_MB_STATE_STATE (m : Nat) : Fld := ⟨MBX_MB_STATE m, 31, 29⟩
abbrev MBX_MB_STATE_MSG_CNT (m : Nat) : Fld := ⟨MBX_MB_STATE m, 15, 0⟩
/-- MBX_MB_CMD (R499): address. -/
abbrev MBX_MB_CMD (m : Nat) : Nat := 0x710400 + m * 0x10
abbrev MBX_MB_CMD_CONSUME (m : Nat) : Fld := ⟨MBX_MB_CMD m, 31, 31⟩
abbrev MBX_MB_CMD_RING (m : Nat) : Fld := ⟨MBX_MB_CMD m, 30, 30⟩
abbrev MBX_MB_CMD_RELEASE (m : Nat) : Fld := ⟨MBX_MB_CMD m, 29, 29⟩
/-- MBX_BIND (R499): address. -/
abbrev MBX_BIND (m : Nat) : Nat := 0x710800 + m * 0x10
abbrev MBX_BIND_VALID (m : Nat) : Fld := ⟨MBX_BIND m, 31, 31⟩
abbrev MBX_BIND_CORE (m : Nat) : Fld := ⟨MBX_BIND m, 30, 30⟩
abbrev MBX_BIND_IRQ (m : Nat) : Fld := ⟨MBX_BIND m, 29, 27⟩
abbrev MBX_BIND_AGENT (m : Nat) : Fld := ⟨MBX_BIND m, 11, 0⟩
/-- MBX_CTRL (R499): address. -/
abbrev MBX_CTRL : Nat := 0x711000
abbrev MBX_CTRL_LOCK : Fld := ⟨MBX_CTRL, 31, 31⟩
abbrev MBX_CTRL_CORE_WD : Fld := ⟨MBX_CTRL, 23, 16⟩
abbrev MBX_CTRL_CLAIM_TO : Fld := ⟨MBX_CTRL, 15, 8⟩
/-- MBX_STATUS (R500): address. -/
abbrev MBX_STATUS : Nat := 0x711010
abbrev MBX_STATUS_SEQ : Fld := ⟨MBX_STATUS, 31, 24⟩
abbrev MBX_STATUS_INDEX : Fld := ⟨MBX_STATUS, 21, 16⟩
abbrev MBX_STATUS_PAIR : Fld := ⟨MBX_STATUS, 10, 10⟩
abbrev MBX_STATUS_SEM_FOREIGN : Fld := ⟨MBX_STATUS, 9, 9⟩
abbrev MBX_STATUS_SEM_NOT_OWNER : Fld := ⟨MBX_STATUS, 8, 8⟩
abbrev MBX_STATUS_CORE_WD : Fld := ⟨MBX_STATUS, 7, 7⟩
abbrev MBX_STATUS_LOCKSTEP : Fld := ⟨MBX_STATUS, 6, 6⟩
abbrev MBX_STATUS_CORE_MEM_UE : Fld := ⟨MBX_STATUS, 5, 5⟩
abbrev MBX_STATUS_RESTART : Fld := ⟨MBX_STATUS, 4, 4⟩
abbrev MBX_STATUS_CLAIM_EXPIRED : Fld := ⟨MBX_STATUS, 3, 3⟩
abbrev MBX_STATUS_WR_DENIED : Fld := ⟨MBX_STATUS, 2, 2⟩
abbrev MBX_STATUS_DB_REFUSED : Fld := ⟨MBX_STATUS, 1, 1⟩
abbrev MBX_STATUS_UNBOUND : Fld := ⟨MBX_STATUS, 0, 0⟩
/-- MBX_CORE_STATE (R500): address. -/
abbrev MBX_CORE_STATE : Nat := 0x711030
abbrev MBX_CORE_STATE_ST01 : Fld := ⟨MBX_CORE_STATE, 31, 30⟩
abbrev MBX_CORE_STATE_ST23 : Fld := ⟨MBX_CORE_STATE, 29, 28⟩
abbrev MBX_CORE_STATE_RESTART01 : Fld := ⟨MBX_CORE_STATE, 15, 8⟩
abbrev MBX_CORE_STATE_RESTART23 : Fld := ⟨MBX_CORE_STATE, 7, 0⟩
/-- MBX_CORE_KICK (R498): address. -/
abbrev MBX_CORE_KICK : Nat := 0x711040
abbrev MBX_CORE_KICK_KICK : Fld := ⟨MBX_CORE_KICK, 0, 0⟩
/-- MBX_CFG_REJECT (R569): address. -/
abbrev MBX_CFG_REJECT : Nat := 0x7110F0
abbrev MBX_CFG_REJECT_SEQ : Fld := ⟨MBX_CFG_REJECT, 31, 24⟩
abbrev MBX_CFG_REJECT_CAUSE : Fld := ⟨MBX_CFG_REJECT, 23, 22⟩
abbrev MBX_CFG_REJECT_INTERNAL : Fld := ⟨MBX_CFG_REJECT, 21, 21⟩
abbrev MBX_CFG_REJECT_MULTI : Fld := ⟨MBX_CFG_REJECT, 20, 20⟩
abbrev MBX_CFG_REJECT_ADDR : Fld := ⟨MBX_CFG_REJECT, 17, 0⟩
/-- MBX_IRQ_EMPTY (R498): address. -/
abbrev MBX_IRQ_EMPTY (k : Nat) : Nat := 0x711100 + k * 0x10
abbrev MBX_IRQ_EMPTY_VALUE (k : Nat) : Fld := ⟨MBX_IRQ_EMPTY k, 31, 0⟩
/-- MBX_IRQ_MSG (R498): address. -/
abbrev MBX_IRQ_MSG (k : Nat) : Nat := 0x711120 + k * 0x10
abbrev MBX_IRQ_MSG_VALUE (k : Nat) : Fld := ⟨MBX_IRQ_MSG k, 31, 0⟩
/-- MBX_CNT_SEM_FAIL (R498): address. -/
abbrev MBX_CNT_SEM_FAIL : Nat := 0x711140
abbrev MBX_CNT_SEM_FAIL_VALUE : Fld := ⟨MBX_CNT_SEM_FAIL, 31, 0⟩
/-- MBX_IRQ_SRC (R492): address. -/
abbrev MBX_IRQ_SRC : Nat := 0x711200
abbrev MBX_IRQ_SRC_PENDING : Fld := ⟨MBX_IRQ_SRC, 5, 0⟩
/-- MBX_IRQ_EN (R492): address. -/
abbrev MBX_IRQ_EN : Nat := 0x711210
abbrev MBX_IRQ_EN_EN : Fld := ⟨MBX_IRQ_EN, 5, 0⟩
/-- MBX_IRQ_ROUTE (R492): address. -/
abbrev MBX_IRQ_ROUTE : Nat := 0x711220
abbrev MBX_IRQ_ROUTE_ROUTE : Fld := ⟨MBX_IRQ_ROUTE, 17, 0⟩
/-- MBX_SEM (R501): address. -/
abbrev MBX_SEM (s : Nat) : Nat := 0x720000 + s * 0x10
abbrev MBX_SEM_HELD (s : Nat) : Fld := ⟨MBX_SEM s, 31, 31⟩
abbrev MBX_SEM_ABANDONED (s : Nat) : Fld := ⟨MBX_SEM s, 30, 30⟩
abbrev MBX_SEM_CAUSE (s : Nat) : Fld := ⟨MBX_SEM s, 29, 28⟩
abbrev MBX_SEM_KIND (s : Nat) : Fld := ⟨MBX_SEM s, 27, 27⟩
abbrev MBX_SEM_OWNER (s : Nat) : Fld := ⟨MBX_SEM s, 26, 15⟩
abbrev MBX_SEM_PREV_KIND (s : Nat) : Fld := ⟨MBX_SEM s, 14, 14⟩
abbrev MBX_SEM_PREV_OWNER (s : Nat) : Fld := ⟨MBX_SEM s, 13, 2⟩
/-- MBX_SEM_OP (R501): address. -/
abbrev MBX_SEM_OP (s : Nat) : Nat := 0x720400 + s * 0x10
abbrev MBX_SEM_OP_ACQ (s : Nat) : Fld := ⟨MBX_SEM_OP s, 31, 31⟩
abbrev MBX_SEM_OP_REL (s : Nat) : Fld := ⟨MBX_SEM_OP s, 30, 30⟩
abbrev MBX_SEM_OP_CLR_ABN (s : Nat) : Fld := ⟨MBX_SEM_OP s, 29, 29⟩
abbrev MBX_SEM_OP_KIND (s : Nat) : Fld := ⟨MBX_SEM_OP s, 12, 12⟩
abbrev MBX_SEM_OP_ID (s : Nat) : Fld := ⟨MBX_SEM_OP s, 11, 0⟩
/-- TEL_CTRL (R431): address. -/
abbrev TEL_CTRL : Nat := 0x800000
abbrev TEL_CTRL_TEL_EN : Fld := ⟨TEL_CTRL, 31, 31⟩
abbrev TEL_CTRL_SNAP : Fld := ⟨TEL_CTRL, 30, 30⟩
abbrev TEL_CTRL_CNT_CLR : Fld := ⟨TEL_CTRL, 29, 29⟩
abbrev TEL_CTRL_PAGE_SZ : Fld := ⟨TEL_CTRL, 28, 28⟩
abbrev TEL_CTRL_COUNT_MODE : Fld := ⟨TEL_CTRL, 27, 26⟩
abbrev TEL_CTRL_SHIFT : Fld := ⟨TEL_CTRL, 25, 21⟩
abbrev TEL_CTRL_EPOCH_MS : Fld := ⟨TEL_CTRL, 15, 0⟩
/-- TEL_HOT_STATE (R431): address. -/
abbrev TEL_HOT_STATE : Nat := 0x800010
abbrev TEL_HOT_STATE_EPOCH : Fld := ⟨TEL_HOT_STATE, 31, 16⟩
abbrev TEL_HOT_STATE_SORTED : Fld := ⟨TEL_HOT_STATE, 15, 15⟩
abbrev TEL_HOT_STATE_PARTIAL : Fld := ⟨TEL_HOT_STATE, 14, 14⟩
abbrev TEL_HOT_STATE_ENTRIES : Fld := ⟨TEL_HOT_STATE, 12, 0⟩
/-- TEL_CFG_REJECT (R569): address. -/
abbrev TEL_CFG_REJECT : Nat := 0x800020
abbrev TEL_CFG_REJECT_SEQ : Fld := ⟨TEL_CFG_REJECT, 31, 24⟩
abbrev TEL_CFG_REJECT_CAUSE : Fld := ⟨TEL_CFG_REJECT, 23, 22⟩
abbrev TEL_CFG_REJECT_INTERNAL : Fld := ⟨TEL_CFG_REJECT, 21, 21⟩
abbrev TEL_CFG_REJECT_MULTI : Fld := ⟨TEL_CFG_REJECT, 20, 20⟩
abbrev TEL_CFG_REJECT_ADDR : Fld := ⟨TEL_CFG_REJECT, 17, 0⟩
/-- TEL_READER (R430): address. -/
abbrev TEL_READER : Nat := 0x800030
abbrev TEL_READER_READER_EN : Fld := ⟨TEL_READER, 12, 12⟩
abbrev TEL_READER_READER : Fld := ⟨TEL_READER, 11, 0⟩
/-- TEL_CNT_SAMPLE (R430): address. -/
abbrev TEL_CNT_SAMPLE : Nat := 0x800040
abbrev TEL_CNT_SAMPLE_VALUE : Fld := ⟨TEL_CNT_SAMPLE, 31, 0⟩
/-- TEL_CNT_SDROP (R430): address. -/
abbrev TEL_CNT_SDROP : Nat := 0x800050
abbrev TEL_CNT_SDROP_VALUE : Fld := ⟨TEL_CNT_SDROP, 31, 0⟩
/-- TEL_WM_SUMMARY (R430): address. -/
abbrev TEL_WM_SUMMARY : Nat := 0x800060
abbrev TEL_WM_SUMMARY_NOTICES : Fld := ⟨TEL_WM_SUMMARY, 15, 0⟩
/-- TEL_LAT_MAX (R430): address. -/
abbrev TEL_LAT_MAX (c : Nat) : Nat := 0x800100 + c * 0x20
abbrev TEL_LAT_MAX_MAX (c : Nat) : Fld := ⟨TEL_LAT_MAX c, 23, 0⟩
/-- TEL_LAT_CNT (R430): address. -/
abbrev TEL_LAT_CNT (c : Nat) : Nat := 0x800110 + c * 0x20
abbrev TEL_LAT_CNT_VALUE (c : Nat) : Fld := ⟨TEL_LAT_CNT c, 31, 0⟩
/-- TEL_HIST (R430): address. -/
abbrev TEL_HIST (c b : Nat) : Nat := 0x800400 + c * 0x80 + b * 0x10
abbrev TEL_HIST_VALUE (c b : Nat) : Fld := ⟨TEL_HIST c b, 31, 0⟩
/-- TEL_WM_CFG (R432): address. -/
abbrev TEL_WM_CFG (k : Nat) : Nat := 0x800800 + k * 0x20
abbrev TEL_WM_CFG_WM_EN (k : Nat) : Fld := ⟨TEL_WM_CFG k, 31, 31⟩
abbrev TEL_WM_CFG_SOURCE (k : Nat) : Fld := ⟨TEL_WM_CFG k, 30, 28⟩
abbrev TEL_WM_CFG_CH (k : Nat) : Fld := ⟨TEL_WM_CFG k, 27, 24⟩
abbrev TEL_WM_CFG_MARK (k : Nat) : Fld := ⟨TEL_WM_CFG k, 20, 8⟩
abbrev TEL_WM_CFG_HYST (k : Nat) : Fld := ⟨TEL_WM_CFG k, 7, 0⟩
/-- TEL_WM_STATUS (R432): address. -/
abbrev TEL_WM_STATUS (k : Nat) : Nat := 0x800810 + k * 0x20
abbrev TEL_WM_STATUS_SEQ (k : Nat) : Fld := ⟨TEL_WM_STATUS k, 31, 24⟩
abbrev TEL_WM_STATUS_NOTICE (k : Nat) : Fld := ⟨TEL_WM_STATUS k, 23, 23⟩
abbrev TEL_WM_STATUS_CROSS (k : Nat) : Fld := ⟨TEL_WM_STATUS k, 22, 15⟩
abbrev TEL_WM_STATUS_MAX (k : Nat) : Fld := ⟨TEL_WM_STATUS k, 12, 0⟩
/-- RING_CTRL (R134): address. -/
abbrev RING_CTRL : Nat := 0x900000
abbrev RING_CTRL_RING_EN : Fld := ⟨RING_CTRL, 31, 31⟩
abbrev RING_CTRL_TB_MASTER : Fld := ⟨RING_CTRL, 26, 24⟩
abbrev RING_CTRL_HB_MS : Fld := ⟨RING_CTRL, 19, 16⟩
abbrev RING_CTRL_FAULT_ACT : Fld := ⟨RING_CTRL, 9, 8⟩
abbrev RING_CTRL_ENG_IDX : Fld := ⟨RING_CTRL, 2, 0⟩
/-- RING_STATUS (R135): address. -/
abbrev RING_STATUS : Nat := 0x900010
abbrev RING_STATUS_SEQ : Fld := ⟨RING_STATUS, 31, 24⟩
abbrev RING_STATUS_PEER : Fld := ⟨RING_STATUS, 18, 16⟩
abbrev RING_STATUS_ORPHAN : Fld := ⟨RING_STATUS, 9, 9⟩
abbrev RING_STATUS_BAD_TYPE : Fld := ⟨RING_STATUS, 8, 8⟩
abbrev RING_STATUS_CRC : Fld := ⟨RING_STATUS, 7, 7⟩
abbrev RING_STATUS_TRUNC : Fld := ⟨RING_STATUS, 6, 6⟩
abbrev RING_STATUS_DUP_IDX : Fld := ⟨RING_STATUS, 5, 5⟩
abbrev RING_STATUS_BROKEN : Fld := ⟨RING_STATUS, 4, 4⟩
abbrev RING_STATUS_LEFT : Fld := ⟨RING_STATUS, 3, 3⟩
abbrev RING_STATUS_UNREACH : Fld := ⟨RING_STATUS, 2, 2⟩
abbrev RING_STATUS_TB_LOST : Fld := ⟨RING_STATUS, 1, 1⟩
abbrev RING_STATUS_DROP : Fld := ⟨RING_STATUS, 0, 0⟩
/-- RING_PRESENT (R133): address. -/
abbrev RING_PRESENT : Nat := 0x900020
abbrev RING_PRESENT_PRESENT : Fld := ⟨RING_PRESENT, 7, 0⟩
/-- RING_TB_CFG (R133): address. -/
abbrev RING_TB_CFG : Nat := 0x900030
abbrev RING_TB_CFG_PERIOD_US : Fld := ⟨RING_TB_CFG, 15, 0⟩
/-- RING_FAULT_LOG (R133): address. -/
abbrev RING_FAULT_LOG : Nat := 0x900040
abbrev RING_FAULT_LOG_SEQ : Fld := ⟨RING_FAULT_LOG, 31, 24⟩
abbrev RING_FAULT_LOG_SOURCE : Fld := ⟨RING_FAULT_LOG, 15, 8⟩
abbrev RING_FAULT_LOG_SRC : Fld := ⟨RING_FAULT_LOG, 6, 4⟩
abbrev RING_FAULT_LOG_EVENT : Fld := ⟨RING_FAULT_LOG, 3, 2⟩
abbrev RING_FAULT_LOG_COUNT : Fld := ⟨RING_FAULT_LOG, 1, 0⟩
/-- RING_DROP_CNT (R133): address. -/
abbrev RING_DROP_CNT : Nat := 0x900050
abbrev RING_DROP_CNT_VALUE : Fld := ⟨RING_DROP_CNT, 31, 0⟩
/-- RING_CFG_REJECT (R569): address. -/
abbrev RING_CFG_REJECT : Nat := 0x900060
abbrev RING_CFG_REJECT_SEQ : Fld := ⟨RING_CFG_REJECT, 31, 24⟩
abbrev RING_CFG_REJECT_CAUSE : Fld := ⟨RING_CFG_REJECT, 23, 22⟩
abbrev RING_CFG_REJECT_INTERNAL : Fld := ⟨RING_CFG_REJECT, 21, 21⟩
abbrev RING_CFG_REJECT_MULTI : Fld := ⟨RING_CFG_REJECT, 20, 20⟩
abbrev RING_CFG_REJECT_ADDR : Fld := ⟨RING_CFG_REJECT, 17, 0⟩

/-- The registers of the GC_ region: base, index ranges and strides, owning block, parity cover, fields. -/
def mapGC : List RegDesc :=
  [⟨0, [], none, true, [⟨31, 16, .ro, 0x5E16⟩, ⟨15, 12, .ro, 1⟩, ⟨11, 8, .ro, 0⟩, ⟨7, 4, .ro, 1⟩, ⟨3, 0, .ro, 1⟩]⟩,
   ⟨0x10, [], none, true, [⟨31, 31, .ro, 0⟩]⟩,
   ⟨0x20, [], none, true, [⟨31, 24, .sq, 0⟩, ⟨23, 22, .sq, 0⟩, ⟨21, 21, .sq, 0⟩, ⟨20, 20, .sq, 0⟩, ⟨17, 0, .sq, 0⟩]⟩,
   ⟨0x30, [], none, true, [⟨31, 24, .sq, 0⟩, ⟨23, 22, .sq, 0⟩, ⟨21, 0, .sq, 0⟩]⟩,
   ⟨0x40, [], none, false, [⟨31, 31, .rw, 0⟩, ⟨3, 0, .rw, 0⟩]⟩,
   ⟨0x100, [], none, false, [⟨31, 31, .ro, 0⟩, ⟨30, 30, .ro, 0⟩, ⟨15, 0, .rw, 0⟩]⟩,
   ⟨0x110, [(4, 0x10)], none, true, [⟨31, 0, .ro, 0⟩]⟩,
   ⟨0x1000, [], some .ingress, true, [⟨31, 31, .rw, 0⟩, ⟨20, 16, .rwd, 0x10⟩, ⟨12, 8, .rwd, 0x10⟩, ⟨3, 0, .rwd, 8⟩]⟩,
   ⟨0x1010, [(4, 0x10)], some .ingress, true, [⟨31, 0, .rwd, 0xFFFFFFFF⟩]⟩,
   ⟨0x1050, [(4, 0x10)], none, true, [⟨31, 0, .rw, 0⟩]⟩,
   ⟨0x1090, [], none, true, [⟨31, 24, .sq, 0⟩, ⟨16, 10, .sq, 0⟩, ⟨4, 4, .sq, 0⟩, ⟨3, 3, .sq, 0⟩, ⟨2, 2, .sq, 0⟩, ⟨1, 1, .sq, 0⟩, ⟨0, 0, .sq, 0⟩]⟩,
   ⟨0x10A0, [], none, true, [⟨31, 0, .ro, 0⟩]⟩] ++
  [⟨0x2000, [], some .grist, true, [⟨31, 31, .rw, 0⟩, ⟨14, 12, .rwd, 4⟩, ⟨11, 11, .rwd, 0⟩, ⟨10, 10, .rwd, 0⟩, ⟨9, 8, .rwd, 0⟩, ⟨4, 0, .rwd, 0x11⟩]⟩,
   ⟨0x2010, [], none, true, [⟨31, 24, .sq, 0⟩, ⟨19, 16, .ro, 0⟩, ⟨4, 4, .sq, 0⟩, ⟨3, 3, .sq, 0⟩, ⟨2, 2, .sq, 0⟩, ⟨1, 1, .sq, 0⟩, ⟨0, 0, .sq, 0⟩]⟩,
   ⟨0x2020, [], none, true, [⟨17, 0, .ro, 0⟩]⟩,
   ⟨0x2030, [], some .grist, true, [⟨17, 0, .rwd, 0⟩]⟩,
   ⟨0x2040, [], some .grist, true, [⟨17, 0, .rwd, 0⟩]⟩,
   ⟨0x2050, [], some .grist, true, [⟨17, 0, .rwd, 0⟩]⟩,
   ⟨0x2060, [], some .grist, true, [⟨15, 12, .rw, 0⟩, ⟨7, 0, .rwd, 8⟩]⟩,
   ⟨0x2070, [], none, true, [⟨31, 31, .rw, 0⟩, ⟨30, 30, .rw, 0⟩, ⟨11, 8, .rw, 0⟩, ⟨3, 0, .rw, 0⟩]⟩,
   ⟨0x2080, [], none, false, [⟨31, 0, .rw, 0⟩]⟩,
   ⟨0x2090, [], none, false, [⟨2, 0, .rw, 0⟩]⟩,
   ⟨0x20A0, [], none, true, [⟨7, 0, .rw, 8⟩]⟩,
   ⟨0x20B0, [], none, true, [⟨31, 24, .sq, 0⟩, ⟨1, 1, .sq, 0⟩, ⟨0, 0, .sq, 0⟩]⟩] ++
  [⟨0x20C0, [], none, true, [⟨15, 8, .rw, 4⟩, ⟨2, 2, .rw, 0⟩, ⟨1, 1, .rw, 1⟩, ⟨0, 0, .rw, 1⟩]⟩,
   ⟨0x2100, [], some .grist, true, [⟨31, 0, .rwd, 2⟩]⟩,
   ⟨0x2120, [], some .grist, true, [⟨31, 0, .rwd, 4⟩]⟩,
   ⟨0x2140, [], some .grist, true, [⟨31, 0, .rwd, 8⟩]⟩,
   ⟨0x2160, [], some .grist, true, [⟨31, 0, .rwd, 0x10⟩]⟩,
   ⟨0x2180, [], some .grist, true, [⟨31, 0, .rwd, 0x20⟩]⟩,
   ⟨0x21A0, [], some .grist, true, [⟨31, 0, .rwd, 0x1000⟩]⟩,
   ⟨0x21C0, [], some .grist, true, [⟨31, 0, .rwd, 0x2000⟩]⟩,
   ⟨0x21E0, [], some .grist, true, [⟨31, 0, .rwd, 0x4000⟩]⟩,
   ⟨0x2200, [], some .grist, true, [⟨31, 0, .rwd, 0x8000⟩]⟩,
   ⟨0x2220, [], some .grist, true, [⟨31, 0, .rwd, 0x10000⟩]⟩,
   ⟨0x2240, [], some .grist, true, [⟨31, 0, .rwd, 0⟩]⟩] ++
  [⟨0x2260, [], some .grist, true, [⟨31, 0, .rwd, 0⟩]⟩,
   ⟨0x2280, [], some .grist, true, [⟨31, 0, .rwd, 0⟩]⟩,
   ⟨0x22A0, [], some .grist, true, [⟨31, 0, .rwd, 0⟩]⟩,
   ⟨0x2110, [(14, 0x20)], some .grist, true, [⟨5, 0, .rwd, 0⟩]⟩,
   ⟨0x3000, [], none, true, [⟨31, 24, .sq, 0⟩, ⟨23, 20, .sq, 0⟩, ⟨4, 4, .sq, 0⟩, ⟨3, 3, .sq, 0⟩, ⟨2, 2, .sq, 0⟩, ⟨1, 1, .sq, 0⟩, ⟨0, 0, .sq, 0⟩]⟩,
   ⟨0x3010, [], none, true, [⟨28, 0, .ro, 0⟩]⟩,
   ⟨0x3020, [], none, true, [⟨31, 0, .ro, 0⟩]⟩,
   ⟨0x3030, [], none, true, [⟨31, 0, .ro, 0⟩]⟩,
   ⟨0x3040, [], none, true, [⟨31, 0, .ro, 0⟩]⟩,
   ⟨0x3050, [], none, true, [⟨31, 0, .ro, 0⟩]⟩,
   ⟨0x3060, [], none, true, [⟨31, 0, .ro, 0⟩]⟩,
   ⟨0x3070, [], none, true, [⟨31, 0, .ro, 0⟩]⟩] ++
  [⟨0x4000, [], none, true, [⟨31, 31, .ro, 0⟩, ⟨27, 24, .ro, 0⟩, ⟨23, 0, .ro, 0⟩]⟩,
   ⟨0x5000, [], none, true, [⟨31, 31, .rw, 0⟩, ⟨30, 30, .rw, 0⟩, ⟨4, 0, .rw, 0x1F⟩]⟩,
   ⟨0x5010, [], none, true, [⟨31, 31, .wo, 0⟩, ⟨30, 30, .wo, 0⟩, ⟨29, 29, .wo, 0⟩, ⟨24, 24, .rw, 0⟩, ⟨17, 17, .ro, 0⟩, ⟨16, 16, .ro, 0⟩]⟩]

/-- The registers of the CH_ region: base, index ranges and strides, owning block, parity cover, fields. -/
def mapCH : List RegDesc :=
  [⟨0x1000E0, [(16, 0x10000)], none, true, [⟨23, 0, .ro, 0⟩]⟩,
   ⟨0x1000F0, [(16, 0x10000)], none, true, [⟨31, 24, .sq, 0⟩, ⟨23, 22, .sq, 0⟩, ⟨21, 21, .sq, 0⟩, ⟨20, 20, .sq, 0⟩, ⟨17, 0, .sq, 0⟩]⟩,
   ⟨0x100100, [(16, 0x10000)], some .sched, true, [⟨31, 31, .rw, 0⟩, ⟨25, 24, .rwd, 2⟩, ⟨23, 16, .rwd, 0x20⟩, ⟨11, 0, .rwd, 0x200⟩]⟩,
   ⟨0x100110, [(16, 0x10000)], some .sched, true, [⟨31, 24, .rwd, 0x90⟩, ⟨23, 16, .rwd, 0x30⟩, ⟨15, 10, .rwd, 0x20⟩, ⟨7, 4, .rwd, 8⟩, ⟨3, 0, .rwd, 8⟩]⟩,
   ⟨0x100120, [(16, 0x10000)], none, true, [⟨24, 16, .ro, 0⟩, ⟨15, 8, .ro, 0⟩, ⟨1, 1, .ro, 0⟩, ⟨0, 0, .ro, 0⟩]⟩,
   ⟨0x100130, [(16, 0x10000)], none, true, [⟨31, 24, .sq, 0⟩, ⟨23, 16, .sq, 0⟩, ⟨3, 3, .sq, 0⟩, ⟨2, 2, .sq, 0⟩, ⟨1, 1, .sq, 0⟩, ⟨0, 0, .sq, 0⟩]⟩,
   ⟨0x100140, [(16, 0x10000)], none, true, [⟨31, 0, .ro, 0⟩]⟩,
   ⟨0x100150, [(16, 0x10000)], none, true, [⟨31, 0, .ro, 0⟩]⟩,
   ⟨0x100160, [(16, 0x10000)], none, true, [⟨31, 0, .ro, 0⟩]⟩,
   ⟨0x100170, [(16, 0x10000)], none, true, [⟨31, 0, .ro, 0⟩]⟩,
   ⟨0x100180, [(16, 0x10000)], none, true, [⟨31, 0, .ro, 0⟩]⟩,
   ⟨0x100190, [(16, 0x10000)], none, true, [⟨31, 0, .ro, 0⟩]⟩] ++
  [⟨0x100200, [(16, 0x10000)], some .sched, true, [⟨31, 24, .rwd, 0x5A⟩, ⟨23, 16, .rwd, 0x5A⟩, ⟨15, 8, .rwd, 0x30⟩, ⟨7, 0, .rwd, 0xC0⟩]⟩,
   ⟨0x100210, [(16, 0x10000)], some .sched, true, [⟨31, 23, .rwd, 0x127⟩, ⟨15, 8, .rwd, 0xCD⟩, ⟨7, 0, .rwd, 4⟩]⟩,
   ⟨0x100220, [(16, 0x10000)], some .sched, true, [⟨31, 24, .rwd, 0x10⟩, ⟨23, 16, .rwd, 0x20⟩, ⟨15, 8, .rwd, 0x40⟩, ⟨7, 0, .rwd, 8⟩]⟩,
   ⟨0x100230, [(16, 0x10000)], some .sched, true, [⟨31, 24, .rwd, 0x10⟩, ⟨23, 16, .rwd, 0x20⟩, ⟨15, 8, .rwd, 0x40⟩, ⟨7, 0, .rwd, 0x10⟩]⟩,
   ⟨0x100240, [(16, 0x10000)], some .sched, true, [⟨31, 24, .rwd, 0x10⟩, ⟨23, 16, .rwd, 0x40⟩, ⟨15, 8, .rwd, 0x10⟩]⟩,
   ⟨0x100250, [(16, 0x10000)], some .sched, true, [⟨31, 24, .rwd, 0x60⟩, ⟨23, 16, .rwd, 0x5C⟩, ⟨15, 8, .rwd, 0⟩, ⟨7, 0, .rwd, 4⟩]⟩,
   ⟨0x100260, [(16, 0x10000)], some .sched, true, [⟨31, 22, .rwd, 0x1D8⟩, ⟨21, 12, .rwd, 0x100⟩, ⟨11, 2, .rwd, 0xB8⟩]⟩,
   ⟨0x100270, [(16, 0x10000)], some .sched, true, [⟨31, 22, .rwd, 0x100⟩, ⟨21, 12, .rwd, 0x180⟩, ⟨11, 2, .rwd, 0x1E8⟩]⟩,
   ⟨0x100280, [(16, 0x10000)], some .sched, true, [⟨31, 21, .rwd, 0x640⟩, ⟨20, 13, .rwd, 0x30⟩, ⟨12, 5, .rwd, 0x18⟩, ⟨4, 0, .rwd, 0xC⟩]⟩,
   ⟨0x100290, [(16, 0x10000)], some .sched, true, [⟨31, 24, .rwd, 0x30⟩, ⟨23, 14, .rwd, 0xB8⟩]⟩,
   ⟨0x100300, [(16, 0x10000)], none, true, [⟨2, 2, .rw, 1⟩, ⟨1, 1, .rw, 1⟩, ⟨0, 0, .rw, 1⟩]⟩,
   ⟨0x100310, [(16, 0x10000)], none, true, [⟨26, 24, .rw, 7⟩, ⟨22, 20, .rw, 6⟩, ⟨18, 16, .rw, 5⟩, ⟨14, 12, .rw, 2⟩, ⟨10, 8, .rw, 1⟩, ⟨6, 4, .rw, 3⟩, ⟨2, 0, .rw, 0⟩]⟩] ++
  [⟨0x100320, [(16, 0x10000)], none, true, [⟨29, 20, .rw, 0xC8⟩, ⟨19, 10, .rw, 0xC8⟩, ⟨9, 0, .rw, 0xC8⟩]⟩,
   ⟨0x100330, [(16, 0x10000)], none, true, [⟨31, 30, .ro, 0⟩, ⟨29, 29, .ro, 0⟩, ⟨28, 26, .ro, 0⟩, ⟨25, 23, .ro, 0⟩, ⟨18, 18, .ro, 0⟩, ⟨17, 17, .ro, 0⟩, ⟨16, 16, .ro, 0⟩, ⟨12, 0, .ro, 0⟩]⟩,
   ⟨0x100340, [(16, 0x10000)], none, true, [⟨31, 16, .ro, 0⟩, ⟨7, 0, .ro, 0⟩]⟩,
   ⟨0x100350, [(16, 0x10000)], none, true, [⟨31, 24, .sq, 0⟩, ⟨2, 2, .sq, 0⟩, ⟨1, 1, .sq, 0⟩, ⟨0, 0, .sq, 0⟩]⟩,
   ⟨0x100360, [(16, 0x10000)], none, true, [⟨31, 0, .ro, 0⟩]⟩,
   ⟨0x100400, [(16, 0x10000)], some .refresh, true, [⟨31, 31, .rw, 0⟩, ⟨25, 24, .rwd, 0⟩, ⟨23, 20, .rwd, 4⟩, ⟨19, 16, .rwd, 2⟩, ⟨15, 12, .rwd, 2⟩, ⟨11, 0, .rwd, 0x40⟩]⟩,
   ⟨0x100410, [(16, 0x10000)], some .refresh, true, [⟨15, 0, .rwd, 0x1860⟩]⟩,
   ⟨0x100420, [(16, 0x10000)], none, true, [⟨31, 31, .ro, 0⟩, ⟨30, 30, .ro, 0⟩, ⟨29, 29, .ro, 0⟩, ⟨28, 24, .ro, 0⟩, ⟨23, 23, .ro, 0⟩, ⟨22, 22, .ro, 0⟩, ⟨21, 21, .ro, 0⟩, ⟨20, 16, .ro, 0⟩, ⟨15, 15, .ro, 0⟩, ⟨14, 14, .ro, 0⟩, ⟨13, 13, .ro, 0⟩, ⟨12, 8, .ro, 0⟩, ⟨7, 7, .ro, 0⟩, ⟨6, 6, .ro, 0⟩, ⟨5, 5, .ro, 0⟩, ⟨4, 0, .ro, 0⟩]⟩,
   ⟨0x100430, [(16, 0x10000)], none, true, [⟨31, 24, .rw, 0x5F⟩, ⟨23, 16, .rw, 0x55⟩, ⟨15, 8, .rw, 0x50⟩, ⟨7, 0, .rw, 0x10⟩]⟩,
   ⟨0x100440, [(16, 0x10000)], none, true, [⟨24, 24, .ro, 0⟩, ⟨23, 16, .ro, 0⟩, ⟨9, 8, .ro, 0⟩]⟩,
   ⟨0x100450, [(16, 0x10000)], some .rowGuard, true, [⟨31, 31, .rw, 0⟩, ⟨27, 26, .rwd, 0⟩, ⟨25, 24, .rwd, 1⟩, ⟨13, 0, .rwd, 0x400⟩]⟩,
   ⟨0x100460, [(16, 0x10000)], some .rowGuard, true, [⟨23, 16, .rwd, 0x40⟩, ⟨15, 8, .rwd, 0x40⟩, ⟨2, 0, .rwd, 1⟩]⟩] ++
  [⟨0x100470, [(16, 0x10000)], some .rowGuard, true, [⟨31, 31, .rwd, 0⟩, ⟨15, 8, .rwd, 0⟩, ⟨7, 0, .rwd, 0⟩]⟩,
   ⟨0x100480, [(16, 0x10000)], none, true, [⟨31, 24, .sq, 0⟩, ⟨17, 16, .sq, 0⟩, ⟨7, 7, .sq, 0⟩, ⟨6, 6, .sq, 0⟩, ⟨5, 5, .sq, 0⟩, ⟨4, 4, .sq, 0⟩, ⟨3, 3, .sq, 0⟩, ⟨2, 2, .sq, 0⟩, ⟨1, 1, .sq, 0⟩, ⟨0, 0, .sq, 0⟩]⟩,
   ⟨0x100490, [(16, 0x10000)], none, true, [⟨31, 0, .ro, 0⟩]⟩,
   ⟨0x1004A0, [(16, 0x10000)], none, true, [⟨31, 0, .ro, 0⟩]⟩,
   ⟨0x1004B0, [(16, 0x10000)], none, true, [⟨31, 0, .ro, 0⟩]⟩,
   ⟨0x1004C0, [(16, 0x10000)], none, true, [⟨31, 0, .ro, 0⟩]⟩,
   ⟨0x1004D0, [(16, 0x10000)], none, true, [⟨31, 0, .ro, 0⟩]⟩,
   ⟨0x1004E0, [(16, 0x10000)], none, true, [⟨31, 0, .ro, 0⟩]⟩,
   ⟨0x100600, [(16, 0x10000)], some .training, true, [⟨31, 31, .rw, 0⟩, ⟨23, 16, .rwd, 0xA⟩, ⟨11, 8, .rwd, 0xA⟩, ⟨7, 0, .rwd, 8⟩]⟩,
   ⟨0x100610, [(16, 0x10000)], none, true, [⟨31, 31, .wo, 0⟩, ⟨25, 24, .rw, 1⟩, ⟨23, 20, .rw, 0xF⟩, ⟨10, 0, .rw, 0x7FF⟩]⟩,
   ⟨0x100620, [(16, 0x10000)], some .training, true, [⟨31, 24, .rwd, 0x18⟩, ⟨23, 20, .rwd, 4⟩, ⟨19, 16, .rwd, 2⟩, ⟨15, 8, .rwd, 0xC8⟩, ⟨7, 0, .rwd, 0x40⟩]⟩,
   ⟨0x100630, [(16, 0x10000)], none, true, [⟨31, 31, .ro, 0⟩, ⟨30, 29, .ro, 0⟩, ⟨28, 28, .ro, 0⟩, ⟨27, 24, .ro, 0⟩, ⟨23, 22, .ro, 0⟩, ⟨21, 21, .ro, 0⟩, ⟨15, 0, .ro, 0⟩]⟩] ++
  [⟨0x100640, [(16, 0x10000)], none, true, [⟨31, 24, .sq, 0⟩, ⟨23, 17, .sq, 0⟩, ⟨16, 16, .sq, 0⟩, ⟨15, 14, .sq, 0⟩, ⟨13, 10, .sq, 0⟩, ⟨9, 9, .sq, 0⟩, ⟨8, 8, .sq, 0⟩, ⟨7, 7, .sq, 0⟩, ⟨6, 6, .sq, 0⟩, ⟨5, 5, .sq, 0⟩, ⟨4, 4, .sq, 0⟩, ⟨3, 3, .sq, 0⟩, ⟨2, 2, .sq, 0⟩, ⟨1, 1, .sq, 0⟩, ⟨0, 0, .sq, 0⟩]⟩,
   ⟨0x100650, [(16, 0x10000)], none, true, [⟨31, 30, .ro, 0⟩, ⟨29, 28, .ro, 0⟩, ⟨27, 26, .ro, 0⟩, ⟨25, 24, .ro, 0⟩, ⟨23, 23, .ro, 0⟩, ⟨15, 0, .ro, 0⟩]⟩,
   ⟨0x100660, [(16, 0x10000)], none, true, [⟨15, 8, .ro, 0⟩, ⟨7, 0, .ro, 0⟩]⟩,
   ⟨0x100670, [(16, 0x10000)], none, true, [⟨31, 0, .ro, 0⟩]⟩,
   ⟨0x100680, [(16, 0x10000)], none, true, [⟨31, 0, .ro, 0⟩]⟩,
   ⟨0x100690, [(16, 0x10000)], none, true, [⟨31, 0, .ro, 0⟩]⟩,
   ⟨0x1006A0, [(8, 0x20000)], none, true, [⟨31, 31, .wo, 0⟩, ⟨30, 30, .ro, 0⟩, ⟨29, 29, .ro, 0⟩, ⟨28, 28, .ro, 0⟩, ⟨27, 27, .rw, 0⟩, ⟨26, 25, .rw, 0⟩, ⟨22, 12, .rw, 0⟩, ⟨2, 0, .rw, 0⟩]⟩,
   ⟨0x1006B0, [(8, 0x20000)], none, true, [⟨31, 0, .rw, 0⟩]⟩,
   ⟨0x100800, [(16, 0x10000)], none, true, [⟨31, 31, .rw, 1⟩, ⟨30, 30, .wo, 0⟩, ⟨23, 16, .rw, 0x40⟩, ⟨15, 0, .rw, 0x3E8⟩]⟩,
   ⟨0x100810, [(16, 0x10000)], some .scrub, true, [⟨31, 31, .rw, 0⟩, ⟨23, 16, .rwd, 0x18⟩, ⟨15, 8, .rwd, 0x18⟩]⟩,
   ⟨0x100820, [(16, 0x10000)], none, true, [⟨17, 0, .ro, 0⟩]⟩,
   ⟨0x100830, [(16, 0x10000)], none, true, [⟨15, 12, .ro, 0⟩, ⟨11, 9, .ro, 0⟩, ⟨8, 7, .ro, 0⟩, ⟨6, 6, .ro, 0⟩, ⟨4, 0, .ro, 0⟩]⟩] ++
  [⟨0x100840, [(16, 0x10000)], none, true, [⟨31, 24, .sq, 0⟩, ⟨6, 6, .sq, 0⟩, ⟨5, 5, .sq, 0⟩, ⟨4, 4, .sq, 0⟩, ⟨3, 3, .sq, 0⟩, ⟨2, 2, .sq, 0⟩, ⟨1, 1, .sq, 0⟩, ⟨0, 0, .sq, 0⟩]⟩,
   ⟨0x100850, [(16, 0x10000)], none, true, [⟨31, 0, .ro, 0⟩]⟩,
   ⟨0x100860, [(16, 0x10000)], none, true, [⟨31, 0, .ro, 0⟩]⟩,
   ⟨0x100870, [(16, 0x10000)], none, true, [⟨31, 0, .ro, 0⟩]⟩,
   ⟨0x100880, [(16, 0x10000)], none, true, [⟨31, 0, .ro, 0⟩]⟩,
   ⟨0x100890, [(16, 0x10000)], none, true, [⟨31, 0, .ro, 0⟩]⟩,
   ⟨0x1008A0, [(16, 0x10000)], none, true, [⟨31, 0, .ro, 0⟩]⟩,
   ⟨0x100900, [(16, 0x10000), (8, 0x10)], none, true, [⟨31, 31, .rw, 0⟩, ⟨8, 5, .rw, 0⟩, ⟨4, 4, .rw, 0⟩, ⟨3, 0, .rw, 0⟩]⟩,
   ⟨0x100980, [(16, 0x10000)], none, true, [⟨31, 31, .ro, 0⟩, ⟨30, 30, .ro, 0⟩, ⟨29, 29, .ro, 0⟩, ⟨7, 0, .ro, 0⟩]⟩,
   ⟨0x101000, [(16, 0x10000), (4, 0x1000), (2, 0x800), (40, 0x10)], none, true, [⟨31, 24, .ro, 0⟩, ⟨23, 16, .ro, 0⟩, ⟨15, 8, .ro, 0⟩, ⟨7, 0, .ro, 0⟩]⟩,
   ⟨0x101280, [(16, 0x10000), (4, 0x1000), (2, 0x800), (10, 0x10)], none, true, [⟨31, 21, .ro, 0⟩, ⟨20, 10, .ro, 0⟩, ⟨9, 0, .ro, 0⟩]⟩,
   ⟨0x101320, [(16, 0x10000), (4, 0x1000), (2, 0x800), (10, 0x10)], none, true, [⟨30, 24, .ro, 0⟩, ⟨22, 16, .ro, 0⟩, ⟨15, 12, .ro, 0⟩, ⟨11, 8, .ro, 0⟩, ⟨7, 4, .ro, 0⟩, ⟨3, 0, .ro, 0⟩]⟩] ++
  [⟨0x1013C0, [(16, 0x10000), (4, 0x1000), (2, 0x800), (9, 0x10)], none, true, [⟨31, 24, .ro, 0⟩, ⟨10, 0, .ro, 0⟩]⟩,
   ⟨0x108000, [(16, 0x10000), (16, 0x200), (2, 0x100), (10, 0x10)], none, true, [⟨31, 16, .ro, 0⟩, ⟨15, 8, .ro, 0⟩, ⟨0, 0, .ro, 0⟩]⟩]

/-- The registers of the DIR_ region: base, index ranges and strides, owning block, parity cover, fields. -/
def mapDIR : List RegDesc :=
  [⟨0x200000, [], some .directory, true, [⟨31, 31, .rw, 0⟩, ⟨24, 24, .rwd, 0⟩]⟩,
   ⟨0x200010, [], none, true, [⟨19, 0, .rw, 0x3E8⟩]⟩,
   ⟨0x200020, [], none, true, [⟨31, 24, .sq, 0⟩, ⟨23, 12, .sq, 0⟩, ⟨7, 7, .sq, 0⟩, ⟨6, 6, .sq, 0⟩, ⟨5, 5, .sq, 0⟩, ⟨4, 4, .sq, 0⟩, ⟨3, 3, .sq, 0⟩, ⟨2, 2, .sq, 0⟩, ⟨1, 1, .sq, 0⟩, ⟨0, 0, .sq, 0⟩]⟩,
   ⟨0x200030, [], none, true, [⟨23, 0, .ro, 0⟩]⟩,
   ⟨0x200040, [], none, true, [⟨31, 23, .ro, 0⟩, ⟨22, 15, .ro, 0⟩, ⟨12, 0, .ro, 0⟩]⟩,
   ⟨0x200050, [], none, true, [⟨11, 0, .ro, 0⟩]⟩,
   ⟨0x200060, [], none, true, [⟨31, 24, .sq, 0⟩, ⟨23, 22, .sq, 0⟩, ⟨21, 21, .sq, 0⟩, ⟨20, 20, .sq, 0⟩, ⟨17, 0, .sq, 0⟩]⟩,
   ⟨0x200070, [], none, true, [⟨31, 31, .ro, 0⟩, ⟨30, 30, .ro, 0⟩, ⟨29, 18, .ro, 0⟩, ⟨17, 0, .ro, 0⟩]⟩,
   ⟨0x200080, [], none, true, [⟨31, 24, .sq, 0⟩, ⟨23, 12, .sq, 0⟩, ⟨11, 5, .sq, 0⟩, ⟨3, 3, .sq, 0⟩, ⟨2, 2, .sq, 0⟩, ⟨1, 1, .sq, 0⟩, ⟨0, 0, .sq, 0⟩]⟩,
   ⟨0x200100, [], none, true, [⟨31, 0, .ro, 0⟩]⟩,
   ⟨0x200110, [], none, true, [⟨31, 0, .ro, 0⟩]⟩,
   ⟨0x200120, [], none, true, [⟨31, 0, .ro, 0⟩]⟩] ++
  [⟨0x200130, [], none, true, [⟨31, 0, .ro, 0⟩]⟩,
   ⟨0x200140, [], none, true, [⟨31, 0, .ro, 0⟩]⟩,
   ⟨0x200150, [], none, true, [⟨31, 0, .ro, 0⟩]⟩,
   ⟨0x200160, [], none, true, [⟨31, 0, .ro, 0⟩]⟩,
   ⟨0x200170, [], none, true, [⟨31, 0, .ro, 0⟩]⟩,
   ⟨0x200180, [], none, true, [⟨31, 0, .ro, 0⟩]⟩,
   ⟨0x200190, [], none, true, [⟨31, 0, .ro, 0⟩]⟩,
   ⟨0x2001A0, [], none, true, [⟨31, 0, .ro, 0⟩]⟩,
   ⟨0x2001B0, [], none, true, [⟨31, 0, .ro, 0⟩]⟩,
   ⟨0x2001C0, [], none, true, [⟨31, 0, .ro, 0⟩]⟩,
   ⟨0x2001D0, [], none, true, [⟨31, 0, .ro, 0⟩]⟩,
   ⟨0x201000, [(4096, 0x10)], none, true, [⟨31, 31, .ro, 0⟩, ⟨30, 30, .ro, 0⟩, ⟨29, 29, .ro, 0⟩, ⟨28, 28, .ro, 0⟩, ⟨12, 6, .ro, 0⟩, ⟨5, 0, .ro, 0⟩]⟩]

/-- The registers of the CRY_ region: base, index ranges and strides, owning block, parity cover, fields. -/
def mapCRY : List RegDesc :=
  [⟨0x300000, [], some .crypto, true, [⟨31, 31, .rw, 0⟩, ⟨30, 30, .rw, 0⟩, ⟨29, 18, .rwd, 0⟩, ⟨13, 8, .rwd, 0⟩]⟩,
   ⟨0x300010, [], none, true, [⟨31, 24, .sq, 0⟩, ⟨23, 12, .sq, 0⟩, ⟨6, 6, .sq, 0⟩, ⟨5, 5, .sq, 0⟩, ⟨4, 4, .sq, 0⟩, ⟨3, 3, .sq, 0⟩, ⟨2, 2, .sq, 0⟩, ⟨1, 1, .sq, 0⟩, ⟨0, 0, .sq, 0⟩]⟩,
   ⟨0x300020, [], none, true, [⟨17, 17, .ro, 0⟩, ⟨16, 16, .ro, 0⟩, ⟨15, 0, .ro, 0⟩]⟩,
   ⟨0x300030, [], none, true, [⟨11, 8, .rw, 2⟩, ⟨3, 0, .rw, 6⟩]⟩,
   ⟨0x300040, [], none, true, [⟨31, 24, .rw, 0x41⟩, ⟨23, 16, .rw, 0x14⟩, ⟨15, 8, .rw, 0x20⟩, ⟨7, 0, .rw, 0x12⟩]⟩,
   ⟨0x300050, [], none, true, [⟨31, 16, .ro, 0⟩, ⟨15, 0, .ro, 0⟩]⟩,
   ⟨0x300060, [], none, true, [⟨31, 24, .sq, 0⟩, ⟨23, 22, .sq, 0⟩, ⟨21, 21, .sq, 0⟩, ⟨20, 20, .sq, 0⟩, ⟨17, 0, .sq, 0⟩]⟩,
   ⟨0x300100, [], none, true, [⟨31, 0, .ro, 0⟩]⟩,
   ⟨0x300110, [], none, true, [⟨31, 0, .ro, 0⟩]⟩,
   ⟨0x300120, [], none, true, [⟨31, 0, .ro, 0⟩]⟩,
   ⟨0x300130, [], none, true, [⟨31, 0, .ro, 0⟩]⟩,
   ⟨0x300140, [], none, true, [⟨31, 0, .ro, 0⟩]⟩]

/-- The registers of the QOS_ region: base, index ranges and strides, owning block, parity cover, fields. -/
def mapQOS : List RegDesc :=
  [⟨0x400000, [], none, true, [⟨31, 31, .rw, 0⟩, ⟨30, 30, .wo, 0⟩, ⟨29, 29, .rw, 0⟩, ⟨15, 8, .rw, 1⟩, ⟨7, 0, .rw, 1⟩]⟩,
   ⟨0x400010, [], none, true, [⟨31, 24, .sq, 0⟩, ⟨23, 16, .sq, 0⟩, ⟨15, 8, .ro, 0⟩, ⟨0, 0, .sq, 0⟩]⟩,
   ⟨0x400020, [], none, true, [⟨31, 16, .ro, 0⟩, ⟨15, 0, .ro, 0⟩]⟩,
   ⟨0x400030, [], none, true, [⟨31, 24, .sq, 0⟩, ⟨7, 0, .sq, 0⟩]⟩,
   ⟨0x400040, [], none, true, [⟨15, 0, .rw, 0xFFFF⟩]⟩,
   ⟨0x400050, [], none, true, [⟨31, 24, .sq, 0⟩, ⟨23, 22, .sq, 0⟩, ⟨21, 21, .sq, 0⟩, ⟨20, 20, .sq, 0⟩, ⟨17, 0, .sq, 0⟩]⟩,
   ⟨0x400100, [(8, 0x40)], none, true, [⟨31, 31, .rw, 0⟩, ⟨30, 28, .rw, 0⟩, ⟨27, 20, .rw, 0x10⟩, ⟨19, 0, .rw, 0⟩]⟩,
   ⟨0x400110, [(8, 0x40)], none, true, [⟨19, 0, .rw, 0⟩]⟩,
   ⟨0x400120, [(8, 0x40)], none, true, [⟨15, 0, .rw, 0⟩]⟩,
   ⟨0x400400, [(16, 0x10)], none, true, [⟨31, 16, .rw, 0⟩, ⟨15, 0, .rw, 0⟩]⟩,
   ⟨0x400500, [(16, 0x10)], none, true, [⟨31, 16, .rw, 0⟩, ⟨15, 0, .ro, 0⟩]⟩,
   ⟨0x400600, [(16, 0x10)], none, true, [⟨23, 16, .ro, 0⟩, ⟨15, 0, .ro, 0⟩]⟩] ++
  [⟨0x400700, [(8, 0x10)], none, true, [⟨31, 0, .ro, 0⟩]⟩]

/-- The registers of the FLT_ region: base, index ranges and strides, owning block, parity cover, fields. -/
def mapFLT : List RegDesc :=
  [⟨0x500000, [], none, true, [⟨31, 31, .rw, 0⟩, ⟨30, 30, .rw, 1⟩, ⟨29, 29, .rw, 0⟩, ⟨15, 0, .rw, 0xFA⟩]⟩,
   ⟨0x500010, [], none, true, [⟨31, 24, .sq, 0⟩, ⟨23, 16, .sq, 0⟩, ⟨5, 5, .ro, 0⟩, ⟨4, 4, .ro, 0⟩, ⟨3, 3, .sq, 0⟩, ⟨2, 2, .sq, 0⟩, ⟨1, 1, .sq, 0⟩, ⟨0, 0, .sq, 0⟩]⟩,
   ⟨0x500020, [], none, true, [⟨31, 29, .ro, 0⟩, ⟨28, 28, .ro, 0⟩, ⟨27, 27, .ro, 0⟩, ⟨26, 24, .ro, 0⟩, ⟨23, 16, .ro, 0⟩, ⟨15, 0, .ro, 0⟩]⟩,
   ⟨0x500030, [], none, true, [⟨31, 30, .ro, 0⟩, ⟨15, 0, .ro, 0⟩]⟩,
   ⟨0x500040, [], none, true, [⟨5, 0, .ro, 0⟩]⟩,
   ⟨0x500050, [], none, true, [⟨5, 0, .wo, 0⟩]⟩,
   ⟨0x500060, [], none, true, [⟨31, 24, .sq, 0⟩, ⟨23, 22, .sq, 0⟩, ⟨21, 21, .sq, 0⟩, ⟨20, 20, .sq, 0⟩, ⟨17, 0, .sq, 0⟩]⟩,
   ⟨0x500070, [(3, 0x10)], none, true, [⟨31, 0, .ro, 0⟩]⟩,
   ⟨0x5000A0, [], none, true, [⟨31, 0, .ro, 0⟩]⟩,
   ⟨0x5000B0, [], none, true, [⟨31, 0, .ro, 0⟩]⟩,
   ⟨0x5000C0, [], none, true, [⟨31, 0, .ro, 0⟩]⟩,
   ⟨0x5000D0, [], none, true, [⟨31, 0, .ro, 0⟩]⟩] ++
  [⟨0x5000E0, [], none, true, [⟨31, 0, .ro, 0⟩]⟩,
   ⟨0x5000F0, [], none, true, [⟨31, 0, .ro, 0⟩]⟩,
   ⟨0x500100, [], none, true, [⟨31, 0, .ro, 0⟩]⟩,
   ⟨0x500110, [], none, true, [⟨31, 31, .wo, 0⟩, ⟨30, 29, .wo, 0⟩, ⟨23, 16, .wo, 0⟩]⟩,
   ⟨0x501000, [(80, 0x40)], none, true, [⟨31, 24, .rw, 0x10⟩, ⟨17, 16, .rw, 2⟩, ⟨15, 0, .rw, 1⟩]⟩,
   ⟨0x501010, [(80, 0x40)], none, true, [⟨31, 24, .sq, 0⟩, ⟨23, 23, .sq, 0⟩, ⟨22, 21, .sq, 0⟩, ⟨15, 0, .sq, 0⟩]⟩,
   ⟨0x501020, [(80, 0x40)], none, true, [⟨31, 0, .ro, 0⟩]⟩]

/-- The registers of the PWR_ region: base, index ranges and strides, owning block, parity cover, fields. -/
def mapPWR : List RegDesc :=
  [⟨0x600000, [], none, true, [⟨31, 31, .rw, 0⟩, ⟨15, 0, .rw, 0x40⟩]⟩,
   ⟨0x600010, [], none, true, [⟨31, 29, .ro, 0⟩, ⟨28, 26, .ro, 0⟩, ⟨25, 23, .ro, 0⟩, ⟨22, 22, .ro, 0⟩, ⟨21, 21, .ro, 0⟩, ⟨20, 20, .ro, 0⟩, ⟨19, 16, .ro, 0⟩]⟩,
   ⟨0x600020, [], none, true, [⟨31, 31, .wo, 0⟩, ⟨30, 30, .rw, 0⟩, ⟨2, 0, .rw, 0⟩]⟩,
   ⟨0x600030, [], none, true, [⟨31, 24, .sq, 0⟩, ⟨20, 16, .sq, 0⟩, ⟨4, 4, .sq, 0⟩, ⟨3, 3, .sq, 0⟩, ⟨2, 2, .sq, 0⟩, ⟨1, 1, .sq, 0⟩, ⟨0, 0, .sq, 0⟩]⟩,
   ⟨0x600040, [], none, true, [⟨31, 16, .rw, 0xFFFF⟩, ⟨15, 0, .rw, 0xFFFF⟩]⟩,
   ⟨0x600050, [], none, true, [⟨31, 0, .ro, 0⟩]⟩,
   ⟨0x600060, [], none, true, [⟨31, 24, .sq, 0⟩, ⟨0, 0, .sq, 0⟩]⟩,
   ⟨0x601000, [], none, true, [⟨31, 24, .sq, 0⟩, ⟨18, 16, .ro, 6⟩, ⟨2, 2, .ro, 0⟩, ⟨1, 1, .ro, 0⟩, ⟨0, 0, .sq, 0⟩]⟩,
   ⟨0x601010, [], none, true, [⟨2, 0, .rw, 6⟩]⟩,
   ⟨0x601020, [], none, true, [⟨31, 24, .sq, 0⟩, ⟨5, 5, .sq, 0⟩, ⟨4, 4, .sq, 0⟩, ⟨3, 3, .sq, 0⟩, ⟨2, 2, .sq, 0⟩, ⟨1, 1, .sq, 0⟩, ⟨0, 0, .sq, 1⟩]⟩,
   ⟨0x601030, [], none, true, [⟨31, 24, .sq, 0⟩, ⟨4, 4, .sq, 0⟩, ⟨3, 3, .ro, 0⟩, ⟨2, 2, .ro, 0⟩, ⟨1, 1, .sq, 0⟩, ⟨0, 0, .ro, 1⟩]⟩,
   ⟨0x601040, [], none, true, [⟨31, 16, .rw, 0x3E8⟩, ⟨15, 0, .rw, 0xC8⟩]⟩] ++
  [⟨0x601050, [], none, false, [⟨31, 0, .rw, 0⟩]⟩,
   ⟨0x601060, [], none, false, [⟨31, 0, .rw, 0⟩]⟩,
   ⟨0x601070, [], none, false, [⟨31, 31, .wo, 0⟩, ⟨23, 0, .rw, 0⟩]⟩,
   ⟨0x601080, [], none, true, [⟨31, 0, .ro, 0x3E80000⟩]⟩,
   ⟨0x6010F0, [], none, true, [⟨31, 24, .sq, 0⟩, ⟨23, 22, .sq, 0⟩, ⟨21, 21, .sq, 0⟩, ⟨20, 20, .sq, 0⟩, ⟨17, 0, .sq, 0⟩]⟩]

/-- The registers of the MBX_ region: base, index ranges and strides, owning block, parity cover, fields. -/
def mapMBX : List RegDesc :=
  [⟨0x700000, [(64, 0x400), (64, 0x10)], none, false, [⟨31, 0, .rw, 0⟩]⟩,
   ⟨0x710000, [(64, 0x10)], none, true, [⟨31, 29, .ro, 0⟩, ⟨15, 0, .ro, 0⟩]⟩,
   ⟨0x710400, [(64, 0x10)], none, true, [⟨31, 31, .wo, 0⟩, ⟨30, 30, .wo, 0⟩, ⟨29, 29, .wo, 0⟩]⟩,
   ⟨0x710800, [(64, 0x10)], none, true, [⟨31, 31, .rw, 0⟩, ⟨30, 30, .rw, 0⟩, ⟨29, 27, .rw, 0⟩, ⟨11, 0, .rw, 0⟩]⟩,
   ⟨0x711000, [], none, true, [⟨31, 31, .rw, 0⟩, ⟨23, 16, .rw, 0xA⟩, ⟨15, 8, .rw, 0xA⟩]⟩,
   ⟨0x711010, [], none, true, [⟨31, 24, .sq, 0⟩, ⟨21, 16, .sq, 0⟩, ⟨10, 10, .sq, 0⟩, ⟨9, 9, .sq, 0⟩, ⟨8, 8, .sq, 0⟩, ⟨7, 7, .sq, 0⟩, ⟨6, 6, .sq, 0⟩, ⟨5, 5, .sq, 0⟩, ⟨4, 4, .sq, 0⟩, ⟨3, 3, .sq, 0⟩, ⟨2, 2, .sq, 0⟩, ⟨1, 1, .sq, 0⟩, ⟨0, 0, .sq, 0⟩]⟩,
   ⟨0x711030, [], none, true, [⟨31, 30, .ro, 0⟩, ⟨29, 28, .ro, 0⟩, ⟨15, 8, .ro, 0⟩, ⟨7, 0, .ro, 0⟩]⟩,
   ⟨0x711040, [], none, true, [⟨0, 0, .wo, 0⟩]⟩,
   ⟨0x7110F0, [], none, true, [⟨31, 24, .sq, 0⟩, ⟨23, 22, .sq, 0⟩, ⟨21, 21, .sq, 0⟩, ⟨20, 20, .sq, 0⟩, ⟨17, 0, .sq, 0⟩]⟩,
   ⟨0x711100, [(2, 0x10)], none, false, [⟨31, 0, .rw, 0⟩]⟩,
   ⟨0x711120, [(2, 0x10)], none, true, [⟨31, 0, .ro, 0⟩]⟩,
   ⟨0x711140, [], none, true, [⟨31, 0, .ro, 0⟩]⟩] ++
  [⟨0x711200, [], none, true, [⟨5, 0, .ro, 0⟩]⟩,
   ⟨0x711210, [], none, true, [⟨5, 0, .rw, 0⟩]⟩,
   ⟨0x711220, [], none, true, [⟨17, 0, .rw, 0⟩]⟩,
   ⟨0x720000, [(64, 0x10)], none, true, [⟨31, 31, .ro, 0⟩, ⟨30, 30, .ro, 0⟩, ⟨29, 28, .ro, 0⟩, ⟨27, 27, .ro, 0⟩, ⟨26, 15, .ro, 0⟩, ⟨14, 14, .ro, 0⟩, ⟨13, 2, .ro, 0⟩]⟩,
   ⟨0x720400, [(64, 0x10)], none, true, [⟨31, 31, .wo, 0⟩, ⟨30, 30, .wo, 0⟩, ⟨29, 29, .wo, 0⟩, ⟨12, 12, .wo, 0⟩, ⟨11, 0, .wo, 0⟩]⟩]

/-- The registers of the TEL_ region: base, index ranges and strides, owning block, parity cover, fields. -/
def mapTEL : List RegDesc :=
  [⟨0x800000, [], some .telemetry, true, [⟨31, 31, .rw, 0⟩, ⟨30, 30, .wo, 0⟩, ⟨29, 29, .wo, 0⟩, ⟨28, 28, .rwd, 0⟩, ⟨27, 26, .rwd, 3⟩, ⟨25, 21, .rwd, 0xA⟩, ⟨15, 0, .rwd, 0x64⟩]⟩,
   ⟨0x800010, [], none, true, [⟨31, 16, .ro, 0⟩, ⟨15, 15, .ro, 0⟩, ⟨14, 14, .ro, 0⟩, ⟨12, 0, .ro, 0⟩]⟩,
   ⟨0x800020, [], none, true, [⟨31, 24, .sq, 0⟩, ⟨23, 22, .sq, 0⟩, ⟨21, 21, .sq, 0⟩, ⟨20, 20, .sq, 0⟩, ⟨17, 0, .sq, 0⟩]⟩,
   ⟨0x800030, [], some .telemetry, true, [⟨12, 12, .rwd, 0⟩, ⟨11, 0, .rwd, 0⟩]⟩,
   ⟨0x800040, [], none, true, [⟨31, 0, .ro, 0⟩]⟩,
   ⟨0x800050, [], none, true, [⟨31, 0, .ro, 0⟩]⟩,
   ⟨0x800060, [], none, true, [⟨15, 0, .ro, 0⟩]⟩,
   ⟨0x800100, [(8, 0x20)], none, true, [⟨23, 0, .ro, 0⟩]⟩,
   ⟨0x800110, [(8, 0x20)], none, true, [⟨31, 0, .ro, 0⟩]⟩,
   ⟨0x800400, [(8, 0x80), (8, 0x10)], none, true, [⟨31, 0, .ro, 0⟩]⟩,
   ⟨0x800800, [(16, 0x20)], none, true, [⟨31, 31, .rw, 0⟩, ⟨30, 28, .rw, 0⟩, ⟨27, 24, .rw, 0⟩, ⟨20, 8, .rw, 0⟩, ⟨7, 0, .rw, 0⟩]⟩,
   ⟨0x800810, [(16, 0x20)], none, true, [⟨31, 24, .sq, 0⟩, ⟨23, 23, .sq, 0⟩, ⟨22, 15, .sq, 0⟩, ⟨12, 0, .sq, 0⟩]⟩]

/-- The registers of the RING_ region: base, index ranges and strides, owning block, parity cover, fields. -/
def mapRING : List RegDesc :=
  [⟨0x900000, [], some .ring, true, [⟨31, 31, .rw, 0⟩, ⟨26, 24, .rw, 0⟩, ⟨19, 16, .rwd, 0xA⟩, ⟨9, 8, .rw, 1⟩, ⟨2, 0, .rwd, 0⟩]⟩,
   ⟨0x900010, [], none, true, [⟨31, 24, .sq, 0⟩, ⟨18, 16, .sq, 0⟩, ⟨9, 9, .sq, 0⟩, ⟨8, 8, .sq, 0⟩, ⟨7, 7, .sq, 0⟩, ⟨6, 6, .sq, 0⟩, ⟨5, 5, .sq, 0⟩, ⟨4, 4, .sq, 0⟩, ⟨3, 3, .sq, 0⟩, ⟨2, 2, .sq, 0⟩, ⟨1, 1, .sq, 0⟩, ⟨0, 0, .sq, 0⟩]⟩,
   ⟨0x900020, [], none, true, [⟨7, 0, .ro, 0⟩]⟩,
   ⟨0x900030, [], none, true, [⟨15, 0, .rw, 0x3E8⟩]⟩,
   ⟨0x900040, [], none, true, [⟨31, 24, .sq, 0⟩, ⟨15, 8, .ro, 0⟩, ⟨6, 4, .ro, 0⟩, ⟨3, 2, .ro, 0⟩, ⟨1, 0, .ro, 0⟩]⟩,
   ⟨0x900050, [], none, true, [⟨31, 0, .ro, 0⟩]⟩,
   ⟨0x900060, [], none, true, [⟨31, 24, .sq, 0⟩, ⟨23, 22, .sq, 0⟩, ⟨21, 21, .sq, 0⟩, ⟨20, 20, .sq, 0⟩, ⟨17, 0, .sq, 0⟩]⟩]

/-- R586: the registers of the region that a byte address lies in. -/
def registerMap (a : Nat) : List RegDesc :=
  match a / 0x100000 with
  | 0 => mapGC
  | 1 => mapCH
  | 2 => mapDIR
  | 3 => mapCRY
  | 4 => mapQOS
  | 5 => mapFLT
  | 6 => mapPWR
  | 7 => mapMBX
  | 8 => mapTEL
  | 9 => mapRING
  | _ => []

end Sys2Proof.Machine
end

