-- ==== Sys2Proof/Machine/Tbl.lean ====
section
/-! DEFINITION. Sparse tables: a list of (key, value) pairs in one canonical form, keys strictly
rising and no entry equal to what an unlisted key reads as. Registers, DRAM and the engine's
large arrays are such tables, so that equal contents are equal data. -/

namespace Sys2Proof.Machine

/-- A sparse table. -/
abbrev Tbl (α : Type) := List (Nat × α)

variable {α : Type}

/-- The listed value of a key. -/
def tlookup : Tbl α → Nat → Option α
  | [], _ => none
  | (k', v) :: t, k => if k' = k then some v else tlookup t k

/-- What a key reads as, where `d` is what an unlisted key reads as. -/
def tget (d : α) (t : Tbl α) (k : Nat) : α := (tlookup t k).getD d

/-- Lists a value, keeping the keys rising. -/
def tinsert (k : Nat) (v : α) : Tbl α → Tbl α
  | [] => [(k, v)]
  | (k', v') :: t =>
    if k < k' then (k, v) :: (k', v') :: t
    else if k = k' then (k, v) :: t
    else (k', v') :: tinsert k v t

/-- Removes a key. -/
def terase (k : Nat) : Tbl α → Tbl α
  | [] => []
  | (k', v') :: t => if k' = k then terase k t else (k', v') :: terase k t

/-- Writes a key: the value an unlisted key reads as is not listed. -/
def tput [DecidableEq α] (d : α) (t : Tbl α) (k : Nat) (v : α) : Tbl α :=
  if v = d then terase k t else tinsert k v t

/-- Every listed key is above `lo` and the keys rise. -/
def trising : Nat → Tbl α → Bool
  | _, [] => true
  | lo, (k, _) :: t => decide (lo < k) && trising k t

/-- The keys rise strictly. -/
def tsorted : Tbl α → Bool
  | [] => true
  | (k, _) :: t => trising k t

/-- The canonical form: rising keys, and no entry equal to the unlisted value of its key. -/
def twf [DecidableEq α] (d : Nat → α) (t : Tbl α) : Bool :=
  tsorted t && t.all fun kv => decide (kv.2 ≠ d kv.1)

end Sys2Proof.Machine
end

