-- ==== Sys2Proof/Machine/State.lean ====
section
/-! DEFINITION. The state of the engine: every register, queue, buffer, table, counter and pin that
the manual gives it, as plain data, the queue of waiting commands, and the state after reset. -/

namespace Sys2Proof.Machine

/-- Why a step could stop with a fault. No command of this model raises one: every event of the
table has an effect or leaves the engine as it is. The constructor stands for the type's sake. -/
inductive Fault where
  /-- Raised by nobody; safe. -/
  | unreachable
  deriving DecidableEq, Repr

/-- Why a command is refused. -/
inductive Refusal where
  /-- Raised by a dispatch arm whose command has no meaning yet; safe. -/
  | notModelled (mnemonic : String)
  deriving DecidableEq, Repr

/-! ## Clocks and time (R433–R450) -/

/-- The root PLL: stopped, started and not yet locked, or locked with the dividers running. -/
inductive Root where
  | stopped | starting | locked
  deriving DecidableEq, Repr

/-- Clock, timebase and Kiln state. TB, the nominal time of R442 and the slew count units of 2^-24 ns. -/
structure Clk where
  root : Root
  /-- Running bin code (R433). -/
  bin : Nat
  /-- CTL cycles of the root since power-on. -/
  cyc : Nat
  tb : Nat
  rem : Nat
  nominal : Nat
  slew : Int
  uncert : Nat
  epochInvalid : Bool
  kiln : Nat
  /-- Nominal time at which the Kiln count was last brought up to date (R445). -/
  kilnAt : Nat
  /-- Kiln count and TB latched when the root stopped (R446). -/
  kilnStop : Nat
  tbStop : Nat
  lastSleep : Nat
  /-- Calibration window (R445): TB at its start, and whether TB jumped, slewed or stopped in it. -/
  winTb : Nat
  winDirty : Bool
  calValid : Bool
  /-- Clock loss holds the core in reset until a reset pin is asserted (R436). -/
  lost : Bool
  deriving DecidableEq, Repr

/-! ## Pins (R36–R65) -/

/-- The input pins and straps that act as levels, and the bypass relay. -/
structure Pins where
  engPresent : Bool
  porst : Bool
  srst : Bool
  /-- WAKE_N asserted and recognised. -/
  wake : Bool
  /-- The supplies of the core domains are present (R469). -/
  supply : Bool
  relayClosed : Bool
  /-- CHn_RESET_N high, by 2 × channel + module slot (R59, R64, Steep step 1). -/
  chReset : List Bool
  deriving DecidableEq, Repr

/-! ## Faults (R528–R559) -/

/-- Fault classes of R528. -/
inductive FClass where
  | corrected | contained | fatal
  deriving DecidableEq, Repr

/-- The promotion counters of one source (R530); starts are in nominal time. -/
structure SrcCnt where
  ceCount : Nat
  ceStart : Nat
  ctCount : Nat
  ctStart : Nat
  deriving DecidableEq, Repr

/-- A history record (R536). -/
structure HistRec where
  tb : Nat
  cls : FClass
  promoted : Bool
  ovf : Bool
  source : Nat
  rseq : Nat
  syn : Word
  deriving DecidableEq, Repr

/-- A lost line of the dump's section 0x0002 (R549). -/
structure LostLine where
  la : Nat
  ch : Nat
  kind : Nat
  reason : Nat
  deriving DecidableEq, Repr

/-- A dump held in one of the two stores (R545, R550). -/
structure Dump where
  id : Nat
  moved : Bool
  bytes : List Byte
  deriving DecidableEq, Repr

/-- The fault collector and the safe state. -/
structure Flt where
  counts : Tbl SrcCnt
  hist : List HistRec
  ovfPend : Bool
  rseq : Nat
  cause : Option HistRec
  /-- TB (integer ns) and nominal time at SAFE. -/
  safeTb : Nat
  safeAt : Nat
  /-- Nominal time from which the quiet period counts (R551). -/
  quietAt : Nat
  /-- Sources of the events since SAFE (R545). -/
  since : List Nat
  /-- TB of the automatic recoveries of the last 86,400 s (R553). -/
  recent : List Nat
  lost : List LostLine
  tun : Option Dump
  dram : Option Dump
  /-- No FAULT_CLEAR has released the dump tun since its dump was written (R524, R550). -/
  tunHeld : Bool
  /-- A DRAM dump was abandoned for the dump tun (R541, R545). -/
  moved : Bool
  /-- Start of the planned downtime of a quiesced commit (R555). -/
  planAt : Option Nat
  deriving DecidableEq, Repr

/-! ## Register port and debug (R560–R585) -/

/-- One trace record (R582). -/
structure TraceRec where
  tb : Nat
  kind : Nat
  loc : Nat
  value : Word
  deriving DecidableEq, Repr

/-- One bank of the wide-read window (R574). -/
structure WrwBank where
  sel : Nat
  valid : Bool
  bad : Bool
  /-- A selector write waits for its capture. -/
  pend : Bool
  words : List Word
  deriving DecidableEq, Repr

/-- Parity, the wide-read window and debug. -/
structure Dbg where
  /-- Registers with the lanes that were stored under inverted parity and the value that they were stored
  with (R573): a lane that has changed since has a new parity bit. -/
  badLanes : Tbl (Nat × Word)
  /-- The CFG_REJECT registers that hold a rejection (R569). -/
  rejHeld : List Nat
  /-- The CTL cycle by which the Grist check in progress completes, and whether the internal port asked for
  it (R103). -/
  gristEnd : Option (Nat × Bool)
  /-- Debug access has reached MC2/MC3 of an unlocked part (R311). -/
  touched : Bool
  wrw : List WrwBank
  trace : List TraceRec
  halted : List Bool
  deriving DecidableEq, Repr

/-! ## Requests and ports (R66–R96) -/

/-- The request opcodes of R73 that carry an address. -/
inductive ReqOp where
  | memRd | memRdData | memInv | memInvNT | memClnEvct | memWr | memWrPtl | placeWr
  deriving DecidableEq, Repr

/-- The header and data of an inbound request or write (R72, R77). -/
structure Req where
  op : ReqOp
  port : Nat
  agent : Nat
  ctx : Nat
  tag : Nat
  la : Nat
  qc : Nat
  dl : Option Nat
  reqSt : Nat
  poison : Bool
  mask : BitVec 64
  target : Nat
  data : Line
  deriving DecidableEq, Repr

/-- Retry causes of R357. -/
inductive Cause where
  | setPinned | victimFull | lineBusy
  deriving DecidableEq, Repr

/-- Transient states of R373 held in an OTT entry. -/
inductive TState where
  | opened | ws | wi | wp
  deriving DecidableEq, Repr

/-- Where a transaction stands. -/
inductive Stage where
  /-- In the retry buffer. -/
  | retry (c : Cause)
  /-- In its OTT entry, waiting for snoop answers. -/
  | snoop
  /-- A held foreign write or PlaceWr (R380). -/
  | held
  /-- In a QoS queue. -/
  | qos
  /-- In the channel back end, the packer or the crypto stage. -/
  | chan
  /-- Its response is formed and waits in the outbound arbiter. -/
  | formed
  /-- A placement push waits to be read or sent (R381). -/
  | push
  deriving DecidableEq, Repr

/-- A request or write from its commit until its answer has left and its OTT entry ended. -/
structure Txn where
  id : Nat
  req : Req
  /-- TB at commit, the age stamp. -/
  commit : Nat
  /-- The protection-table version the request is bound to (R12). -/
  ver : Nat
  stage : Stage
  /-- The OTT entry's transient state, where it holds one. -/
  ott : Option TState
  /-- Served as the request of a cacheless agent (R352, R348). -/
  cacheless : Bool
  /-- State granted: 0 I, 1 S, 2 M. -/
  grant : Nat
  /-- Absolute deadline (R396). -/
  deadline : Option Nat
  /-- Released in reservation (G), and excess read (R400, R403). -/
  onG : Bool
  excess : Bool
  /-- A read released ahead of a later write of its line, which may take the entries reserved for it (R137, R402). -/
  ahead : Bool
  /-- Target channel (R394). -/
  ch : Nat
  /-- Current PRI (R397). -/
  pri : Nat
  /-- The class 0 credit has been returned (R87). -/
  credited : Bool
  /-- The write's completion has been formed (R21). -/
  done : Bool
  /-- The engine's own write: it has no port, charges nothing and is not answered. -/
  eng : Bool
  /-- Whether a read addresses a packed slot, once the size-class bits are known (R294). -/
  packed : Option Bool
  /-- MAC and version of the slot before a later write of it entered the write queue (R331). -/
  snap : Option (Nat × Nat)
  deriving DecidableEq, Repr

/-- An outbound packet, complete in the arbiter (R82, R83). -/
structure OutPkt where
  cls : Nat
  op : Nat
  agent : Nat
  tag : Nat
  bitag : Nat
  la : Nat
  devload : Nat
  err : Option Nat
  poison : Bool
  grant : Nat
  data : Line
  /-- The transaction that the packet answers, ended or advanced when it leaves. -/
  txn : Option Nat
  qc : Nat
  deriving DecidableEq, Repr

/-- A committed class 3 packet that waits in its port's FIFO, with its age stamp (R67, R78) and what the directory ways
read as when its lookup comes. -/
structure FifoReq where
  req : Req
  commit : Nat
  way : WayErr
  deriving DecidableEq, Repr

/-- A request port (R86–R93). `held`, `due` and `out` index the classes 0 to 3. Every class 0 or class 1 packet leaves
its FIFO in the command that commits it, so that only the class 3 FIFO holds packets between commands. -/
structure Port where
  /-- Credits that the sender holds. -/
  held : List Nat
  /-- Credits whose packets reached their return point and wait for their pulse. -/
  due : List Nat
  /-- Outbound credits. -/
  out : List Nat
  outq : List OutPkt
  /-- Class 0 packets sent in a row past a waiting class 2 packet. -/
  run0 : Nat
  /-- CreditRecall sent and the yield not yet received: nominal time of the recall. -/
  recallAt : Option Nat
  /-- Returns are stopped (R90). -/
  stopped : Bool
  /-- The last packet that left, and the last credit pulses, as they stood on the pins. -/
  lastOut : Option OutPkt
  lastCred : List Nat
  /-- The class 3 FIFO, oldest first (R67, R359). -/
  fifo3 : List FifoReq
  deriving DecidableEq, Repr

/-! ## Directory (R344–R392) -/

/-- One recorded holder of a line; `gen` is the agent's reset count when it was recorded (R363). -/
structure Holder where
  agent : Nat
  m : Bool
  gen : Nat
  deriving DecidableEq, Repr

/-- A way (vector mode) or a pair slot (shadow mode); `resv` names the agents it is reserved for (R354). -/
structure Way where
  idx : Nat
  tag : Nat
  holders : List Holder
  resv : List Nat
  deriving DecidableEq, Repr

/-- One set: its occupied ways in rising index and its replacement bits. -/
structure DSet where
  ways : List Way
  plru : Nat
  deriving DecidableEq, Repr

/-- A row of the enrollment table (R370). -/
structure Enroll where
  enrolled : Bool
  place : Bool
  dead : Bool
  port : Nat
  vidx : Nat
  gen : Nat
  deriving DecidableEq, Repr

/-- Who waits on a snoop. -/
inductive SnpOwner where
  | txn (id : Nat) | victim | unenroll
  deriving DecidableEq, Repr

/-- An outstanding snoop (R360). `tag` is none while it waits for a BITAG. -/
structure Snoop where
  tag : Option Nat
  la : Nat
  agent : Nat
  inv : Bool
  owner : SnpOwner
  /-- Nominal time at which the timer started, and the timeout that it was formed under (R360). -/
  since : Nat
  limit : Nat
  deriving DecidableEq, Repr

/-- A reclaim or unenroll walk (R353, R361, R363). -/
structure Walk where
  unenroll : Bool
  agent : Nat
  set : Nat
  poisoned : Nat
  /-- Cause of poison records: false timeout, true AgentReset. -/
  byReset : Bool
  /-- Ports with an AgentReset that takes effect at the end (R362). -/
  resets : List Nat
  deriving DecidableEq, Repr

/-- A poison-log record (R364). -/
structure PoisonRec where
  tb : Nat
  byReset : Bool
  ovf : Bool
  agent : Nat
  la : Nat
  deriving DecidableEq, Repr

/-- A line in the victim buffer, with the holders that it had (R355). -/
structure Victim where
  la : Nat
  holders : List Holder
  deriving DecidableEq, Repr

structure Dir where
  sets : Tbl DSet
  /-- Lines in the victim buffer (WE). -/
  victims : List Victim
  /-- Lines named by OTT eviction entries of an unenroll walk. -/
  evicts : List Nat
  snoops : List Snoop
  enroll : Tbl Enroll
  walks : List Walk
  log : List PoisonRec
  logOvf : Bool
  /-- DIR cycles left of an initialisation (R349): CTL cycle at which it ends. -/
  initEnd : Option Nat
  deriving DecidableEq, Repr

/-! ## QoS (R393–R415) -/

/-- The two buckets of a class in a channel, in weighted bytes, and the nominal time of the last refill. -/
structure Bucket where
  g : Rat
  x : Rat
  since : Nat
  deriving DecidableEq, Repr

structure Qos where
  /-- Active copies of the staged registers, by address (R413). -/
  active : Tbl Word
  buckets : Tbl Bucket
  /-- Hold queues by 16 × class + channel, and write queues by channel: transaction identities. -/
  hold : Tbl (List Nat)
  writes : Tbl (List Nat)
  /-- Misses in the current window of a class: nominal times, newest first. -/
  misses : Tbl (List Nat)
  /-- Shed set and cuts of a channel: 8 × channel + class (R409). -/
  cut : Tbl Rat
  /-- A shed recomputation is due (R409). -/
  shedDue : Bool
  /-- The engine's total shortfall at the last recomputation, in units of 10 MB/s (R411). -/
  short : Rat
  deriving DecidableEq, Repr

/-! ## Telemetry (R416–R432) -/

structure HotEntry where
  page : Nat
  count : Nat
  err : Nat
  deriving DecidableEq, Repr

/-- The counters of one class (R424). -/
structure TelCnt where
  rd : Nat
  wr : Nat
  latSum : Nat
  latCnt : Nat
  latMax : Nat
  hist : List Nat
  deriving DecidableEq, Repr

structure Tel where
  /-- Seed of the sampler, and words drawn since it was seeded. -/
  seed : BitVec 256
  /-- TEL_EN has set, and the seed waits for the DRBG (R320). -/
  seedWait : Bool
  drawn : Nat
  fifo : List Nat
  live : List HotEntry
  samples : Nat
  partialEp : Bool
  epoch : Nat
  epochAt : Nat
  snap : List HotEntry
  snapSamples : Nat
  snapCtrl : Word
  snapEpoch : Nat
  cnt : Tbl TelCnt
  shadow : Tbl TelCnt
  /-- Monitors that are disarmed (R427). -/
  disarmed : List Nat
  deriving DecidableEq, Repr

/-! ## Channel back ends: queues, banks and the timing log (R136–R169) -/

/-- A DRAM location: `col` is COL[6:0]. -/
structure Loc where
  ch : Nat
  sc : Nat
  rank : Nat
  bg : Nat
  bank : Nat
  row : Nat
  col : Nat
  deriving DecidableEq, Repr

/-- A stored slot: 64 B of data in bits 511:0 and 16 B of check bits above them (R254). -/
abbrev Slot := BitVec 640

/-- Whose read it is: an agent's, a merge read (R80), a placement push (R381), a partner read of a pair
(R299), a metadata read (R337), or the read of a pair by a rebuild (R305). -/
inductive Use where
  | agent (txn : Nat) | merge (txn : Nat) | push (txn : Nat) | partner (pair : Nat) | metaRead | rebuild (pair : Nat)
  deriving DecidableEq, Repr

/-- A read-queue entry (R137). `la` is the line address of the slot that it reads, `cyc` the CTL cycle
of its entry, `issued` the PHY cycle of its CAS. -/
structure RqEntry where
  seq : Nat
  uses : List Use
  /-- The class of the request that made the entry; none for the engine's own reads. -/
  cls : Option Nat
  la : Nat
  loc : Loc
  age : Nat
  pri : Nat
  cyc : Nat
  promoted : Bool
  /-- The entry's own need caused an ACT (R143). -/
  acted : Bool
  issued : Option Nat
  /-- Its burst had no preamble, and it was reissued once (R224). -/
  miss : Bool
  again : Bool
  /-- The slot as DRAM held it when the CAS issued, and whether a write of the slot has entered the write
  queue since (R264). -/
  data : Slot
  newer : Bool
  deriving DecidableEq, Repr

/-- A write-queue entry (R137), or a replay write (R241). -/
structure WqEntry where
  seq : Nat
  /-- The class of the request; none for the engine's own writes. -/
  cls : Option Nat
  /-- The metadata update of the slot: its MAC line and its MAC (R137, R326). -/
  upd : Option (Nat × Nat)
  /-- The slot is a packed one, or one of a pair that its decision split (R303). -/
  pair : Bool
  la : Nat
  loc : Loc
  slot : Slot
  age : Nat
  acted : Bool
  deriving DecidableEq, Repr

/-- A row of a Row Guard table (R205); `sampled` says that its closing PRE carried the sample flag. -/
structure RgRow where
  row : Nat
  count : Nat
  pending : Bool
  sampled : Bool
  deriving DecidableEq, Repr

/-- Open row, hit predictor and CTL cycle of the last CAS of a bank (R143, R144); its Row Guard table,
epoch activation counter and cap (R205, R209), and its rolling accumulated activation count (R213). -/
structure Bank where
  row : Option Nat
  pred : Nat
  lastCas : Nat
  rg : List RgRow
  n : Nat
  capped : Bool
  raa : Nat
  deriving DecidableEq, Repr

/-- The timing fields of R163. -/
structure Tim where
  trcd : Nat
  trp : Nat
  trtp : Nat
  twr : Nat
  trc : Nat
  tras : Nat
  tppd : Nat
  trrdS : Nat
  trrdL : Nat
  tfaw : Nat
  trrdDlr : Nat
  tccdS : Nat
  tccdL : Nat
  tccdLWr : Nat
  tccdDlr : Nat
  twtrS : Nat
  twtrL : Nat
  trtw : Nat
  rl : Nat
  wl : Nat
  gapRank : Nat
  gapTurn : Nat
  trfc1 : Nat
  trfc2 : Nat
  trfcsb : Nat
  trfmab : Nat
  tdrfm : Nat
  txs : Nat
  tzqcal : Nat
  tzqlat : Nat
  tmrd : Nat
  txp : Nat
  trefsbrd : Nat
  trfmsb : Nat
  deriving DecidableEq, Repr

/-- The DDR5 commands of R160, with ZQ calibration (R163) and the MPC that starts an oscillator (R230). -/
inductive DKind where
  | act | rd | rda | wr | wra | mrw | mrr | pre | preab | presb | refab | refsb | rfmab | rfmsb
  | drfm | sre | srx | pde | pdx | zqcal | zqlat | mpc
  deriving DecidableEq, Repr

/-- A command as it stood on a subchannel's CA bus at PHY cycle `t`, with the timing values in force when it issued.
`fine` marks a REFab in fine granularity. -/
structure DCmd where
  kind : DKind
  rank : Nat
  bg : Nat
  bank : Nat
  row : Nat
  t : Nat
  fine : Bool
  tim : Tim
  /-- C[10:0] of a RD or WR (R99), and the blast radius of a DRFM (R207). -/
  col : Nat
  brc : Nat
  /-- Timing fields written since, newest first: the PHY cycle of the write and the new values (R162). -/
  later : List (Nat × Tim)
  deriving DecidableEq, Repr

/-- Drain kinds (R150). -/
inductive DrainKind where
  | watermark | cap | opportunistic
  deriving DecidableEq, Repr

/-- The drain of one subchannel: kind, tail rank of the stagger and the writes that it may still take (R152), pause,
and write CAS commands since a read was promoted (R153). -/
structure Drain where
  kind : Option DrainKind
  tail : Option Nat
  tailLeft : Nat
  paused : Bool
  casSince : Nat
  deriving DecidableEq, Repr

/-- One subchannel: its drain, the log of its CA bus, the CTL cycle since which it has had no queued read (R150), and
the bank groups of the last ACT, PRE, read CAS and write CAS (R147). -/
structure SubCh where
  drain : Drain
  log : List DCmd
  idleSince : Nat
  lastBg : List (Option Nat)
  deriving DecidableEq, Repr

/-- One physical rank: the CTL cycle of its next refresh tick, the next bank index of its unit (R196),
the refresh mode last written to its devices (R195), its Row Guard credits (R208), the CTL cycle at
which an entry last addressed it (R198), power-down and self-refresh, its deferred DRFM (R200) with the
pending row, and ACT refusals by an alert back-off until a PHY cycle (R158). -/
structure PRank where
  tickAt : Nat
  unit : Nat
  mode : Nat
  credits : Nat
  lastUse : Nat
  pd : Bool
  sr : Bool
  deferred : Option Loc
  /-- MEn wants an opportunistic refresh (R198). -/
  opp : Bool
  /-- Step 1 of Steep has set the devices' error check and scrub to automatic mode (R269). -/
  ecsAuto : Bool
  /-- Refreshes issue back to back until D is below DUE_AT (R198). -/
  overrun : Bool
  /-- The CTL cycle up to which maintenance keeps the rank busy, by subchannel (R216). -/
  busyTo : List Nat
  deriving DecidableEq, Repr

/-- An alert of one module slot: the CTL cycle at which it was sampled, its class once it is known, and
the first CTL cycle of the uncertain window (R214, R240). `prior` is the window of the recovery during which it was
sampled (R242), and `rounds` counts the RFMab that a back-off has had of each rank. -/
structure Alert where
  at_ : Nat
  parity : Bool
  backoff : Bool
  winFrom : Nat
  prior : Option (Nat × Nat)
  rounds : Nat
  /-- PHY cycle until which a back-off refuses ACTs, once its RFMab have issued. -/
  upto : Option Nat
  deriving DecidableEq, Repr

/-- A write of the replay log (R241), with what its slot held before it. -/
structure Replay where
  t : Nat
  entry : WqEntry
  old : Slot
  deriving DecidableEq, Repr

/-- A refresh, DRFM or RFM of the replay window (R241 step 5). -/
structure MaintLog where
  t : Nat
  prank : Nat
  kind : DKind
  loc : Loc
  /-- By how much the command lowered the count of each bank (R213). -/
  lowered : List (Nat × Nat)
  deriving DecidableEq, Repr

/-- The RCD of a module slot: it checks CA parity in blocking mode (R239), and the width of its parity alert in CTL
cycles (R225). -/
structure Rcd where
  blocking : Bool
  pulse : Nat
  deriving DecidableEq, Repr

/-- The arbiter (R170–R179): when each subchannel's entry was parked and each line raised, in CTL
cycles, and the nominal time of the holder's last command, preemption point or release (R188). -/
structure Arb where
  park : List (Option Nat)
  me : Option Nat
  ts : Option Nat
  /-- The CTL cycle from which the holder holds, and that of the contest that set preemption pending. -/
  since : Nat
  pend : Option Nat
  wd : Nat
  /-- Operations completed in MEn's current batch. -/
  batch : Nat
  /-- A fatal fault or a power entry: the bids of R185. -/
  fatal : Bool
  /-- R186: held for the maintenance-only exit of a dump. -/
  dump : Bool
  /-- R185: the channel has still to enter self-refresh. -/
  sre : Bool
  deriving DecidableEq, Repr

/-- How a run ends once its saved lines are back: its steps are done, a power entry or an abort stops it, or it has run
too long (R236, R244, R513). -/
inductive TrnEnd where
  | completed | stopped | aborted | timeout
  deriving DecidableEq, Repr

/-- The slice and the progress of a training run (R231). -/
structure Train where
  /-- Units completed in the current step for the current physical rank. -/
  units : Nat
  steps : Nat
  pranks : Nat
  /-- Nominal time of the slice's grant. -/
  slice : Option Nat
  /-- Nominal time before which the line is not raised again. -/
  gapUntil : Nat
  /-- Nominal time of the run's start, and of the end of the last completed run. -/
  began : Nat
  ended : Nat
  /-- Channel temperature at the last completed run. -/
  temp : Nat
  /-- Steps asked for by the pending trigger. -/
  pendSteps : Nat
  /-- Runs in a row that failed a step, by step (R233). -/
  fails : Tbl Nat
  /-- The current step has been rerun once for a low margin (R233). -/
  rerun : Bool
  /-- The failures of the current run by step, oldest first (R233, R249). -/
  failed : List (Nat × LaneFail)
  /-- The run ends as soon as its saved lines are back (R236). -/
  stop : Option TrnEnd
  /-- Retries of the current Steep step by physical rank (R227). -/
  retries : Tbl Nat
  /-- An incomplete step that recovery reruns: step and physical rank (R28, R611). -/
  redo : Option (Nat × Nat)
  /-- Save buffer of training lines: locations and raw slots (R236). -/
  save : List (Loc × Slot)
  /-- Nominal time of the last drift measurement (R234), with the accumulated shifts by device. -/
  drift : Nat
  /-- A drift measurement in progress: the physical rank that is next, and the PHY cycle in which its oscillators
  started (R234). -/
  track : Option (Nat × Option Nat)
  acc : Tbl Int
  /-- WR_DLY of lanes that take their device's shift at the next commit (R234). -/
  shift : Tbl Nat
  trained : Tbl Nat
  /-- Probe copies of the lane registers of the current step (R223). -/
  probe : Tbl Word
  /-- The run was started by a RETRAIN ticket. -/
  ticket : Option Nat
  /-- Firmware took the channel out of service for offline retraining (R235). -/
  offline : Bool
  deriving DecidableEq, Repr

/-- A record of the ECC error log (R259): kind, origin, overflow, device, location, codewords. -/
structure EccRec where
  tb : Nat
  kind : Nat
  origin : Nat
  ovf : Bool
  dev : Nat
  loc : Loc
  cw : Nat
  deriving DecidableEq, Repr

/-- A repair (R271–R274): its row, the devices, saved slots, whether its declared point has passed, and
which slots are superseded. -/
structure Repair where
  loc : Loc
  dev : Option Nat
  hard : Bool
  phase : Nat
  saved : List Slot
  restored : Nat
  superseded : List Nat
  ticket : Option Nat
  /-- MRWs of the guard key that have issued, and the nominal time at which the program time ends (R272 step 4). -/
  keys : Nat
  prog : Option Nat
  deriving DecidableEq, Repr

/-- A slot that waits for its second read after a scrub or agent read found it uncorrectable (R265). -/
structure Reread where
  loc : Loc
  /-- Origin of the reread in the error log. -/
  origin : Nat
  /-- Nominal time at which the first read found it; after an agent's read the second is due within 1 ms. -/
  since : Nat
  /-- A write to the slot has entered the write queue since. -/
  cancelled : Bool
  deriving DecidableEq, Repr

/-- What a read of MEn or TSn is for: scrub, the second read of a slot, slot `i` of a repair's row, the sparing copy, or a
training line, which is kept raw where it is to be saved (R262, R265, R272, R277, R236). -/
inductive MissUse where
  | scrub | reread (r : Reread) | save (i : Nat) | copy | line (keep : Bool)
  deriving DecidableEq, Repr

/-- A read of MEn or TSn whose burst had no preamble, and which waits for PAR_WIN to pass (R224). -/
structure Missed where
  loc : Loc
  /-- CTL cycle of its RD. -/
  cyc : Nat
  /-- What the burst of its reissue turns over, and whether that one has no preamble either. -/
  err : Slot
  twice : Bool
  /-- It has been reissued. -/
  again : Bool
  /-- The window of a parity recovery held it: it is issued again without a count (R241). -/
  parity : Bool
  use : MissUse
  deriving DecidableEq, Repr

/-- An extra pass of the command SCRUB over the line addresses `base` to `last` (R267). -/
structure Pass where
  base : Nat
  next : Nat
  last : Nat
  done : Nat
  ticket : Nat
  deriving DecidableEq, Repr

/-- What a sideband transaction is for: the RCD error log (R214), a hub's temperature (R201), discovery of a module
(R225 step 0), or firmware's command (R251). -/
inductive I3cKind where
  | log | temp | spd | host
  deriving DecidableEq, Repr

/-- A sideband transaction that waits (R245): its requester 0–4, what it is for, the module slot that it addresses, and
the reading that a temperature poll finds. -/
structure I3cReq where
  who : Nat
  kind : I3cKind
  slot : Nat
  value : Nat
  deriving DecidableEq, Repr

/-- A sideband controller: the transactions that wait, and the requester served last (R245). -/
structure I3c where
  queue : List I3cReq
  last : Nat
  /-- In-band interrupts that wait for the end of a transaction: hub and temperature. -/
  ibis : List (Nat × Nat)
  deriving DecidableEq, Repr

structure Chan where
  rq : List RqEntry
  wq : List WqEntry
  replay : List WqEntry
  seq : Nat
  /-- R142: the write that waits at intake: its subchannel, and its transaction where it has one. -/
  capWait : Option (Nat × Option Nat)
  subs : List SubCh
  banks : Tbl Bank
  pranks : List PRank
  arb : Arb
  alerts : Tbl Alert
  /-- The RCDs of the two module slots. -/
  rcd : List Rcd
  replayLog : List Replay
  maintLog : List MaintLog
  /-- Nominal times of the parity recoveries of each slot in the last 1 ms (R242). -/
  parity : Tbl (List Nat)
  train : Train
  ecc : List EccRec
  eccOvf : Bool
  /-- Window counts of the devices and the nominal time of the last restart (R260). -/
  win : Tbl Nat
  winAt : Nat
  /-- Corrected errors by row and device, and uncorrectable ones by rank, of the last WIN_MS (R275). -/
  rowErr : List (Nat × Loc × Nat)
  ueErr : List (Nat × Nat)
  rereads : List Reread
  /-- Reads of MEn and TSn that wait to be reissued, oldest first (R224). -/
  missed : List Missed
  pass : List Pass
  /-- Slots of the patrol pass, and the nominal time at which it began (R263). -/
  patrolAt : Nat
  scrubAt : Nat
  ecsAt : Nat
  /-- MEn waits for the channel to read the devices' ECS counts (R269). -/
  ecsWant : Bool
  repair : Option Repair
  /-- The nominal time before which RATE admits no further line of the sparing copy (R276). -/
  copyAt : Nat
  /-- Hub readings by slot and MR4 readings by physical rank; nominal times of the last poll and of the
  moment since which every source has been cool (R201). -/
  hubs : Tbl Nat
  mr4 : Tbl Nat
  pollAt : Nat
  coolAt : Option Nat
  /-- A poll waits for its reads of MR4 (R201). -/
  mrrWant : Bool
  /-- The temperature stands at the critical value (R203). -/
  crit : Bool
  /-- CH_MNT_TIME's running sum and the nominal start of its interval (R216). -/
  busy : Nat
  busyAt : Nat
  i3c : I3c
  /-- The CTL cycle from which the phases of the refresh ticks count (R197). -/
  tickBase : Nat
  /-- RG_MODE as it took effect when RG_EN last set (R212). -/
  rgMode : Nat
  /-- The SPD write protection of all blocks of each slot's hub (R246). -/
  spdProt : List Bool
  /-- The channel failed in its own data path (R29). -/
  ownFault : Bool
  deriving DecidableEq, Repr

/-! ## Packer, Cask and crypto (R284–R343) -/

/-- The keys of a context (R319). -/
structure Keys where
  k1 : BitVec 256
  k2 : BitVec 256
  k3 : BitVec 256
  h : BitVec 128
  deriving DecidableEq, Repr

/-- A region entry (R314): pages, context, mode, HDM-DB, PACK, PAIRS_SEEN, agent set and index bases. -/
structure Region where
  base : Nat
  limit : Nat
  ctx : Nat
  mode : Nat
  hdmDb : Bool
  pack : Bool
  pairsSeen : Bool
  agset : Nat
  macBase : Nat
  freshBase : Nat
  deriving DecidableEq, Repr

/-- One bank of the protection table: regions by entry, and the 2-bit rights of 4,096 × set + agent. -/
structure ProtBank where
  regions : Tbl Region
  rights : Tbl Nat
  deriving DecidableEq, Repr

/-- Kinds of Cask lines (R336), with KIND of R324: 1 size-class, 2 MAC, 3 counter. -/
structure CaskLine where
  way : Nat
  la : Nat
  kind : Nat
  level : Nat
  data : Line
  deriving DecidableEq, Repr

structure CaskSet where
  lines : List CaskLine
  plru : Nat
  deriving DecidableEq, Repr

/-- A slot as a read returned it: ciphertext, or poison, or uncorrectable. -/
inductive Got where
  | data (d : Line) | poison | ue
  deriving DecidableEq, Repr

/-- A read that has returned and waits for its command or for metadata. `la` is the slot's line. -/
structure Ret where
  use : Use
  la : Nat
  got : Got
  deriving DecidableEq, Repr

/-- A pair-table entry (R297). -/
structure PairEnt where
  ch : Nat
  pair : Nat
  writes : List Nat
  reads : List Nat
  deriving DecidableEq, Repr

/-- The rebuild of a size-class slot in progress (R305): the slot, the pairs whose read has been asked for, those whose
read has not been taken, the bits found so far, and whether a pair fell in the poisoned row. -/
structure Rebuild where
  slot : Nat
  asked : Nat
  left : List Nat
  bits : Line
  bad : Bool
  deriving DecidableEq, Repr

/-- The packer, the Cask and the requests that wait in them. -/
structure Pack where
  pairs : List PairEnt
  /-- Writes whose merge read is in flight or has returned. -/
  merges : List Nat
  rets : List Ret
  /-- Reads that wait at the packer: for size-class bits (R294), or for a rebuild. -/
  waits : List Nat
  /-- Metadata slots to be read when a read-queue entry frees. -/
  want : List Nat
  cask : Tbl CaskSet
  /-- Indices of size-class slots that are to be rebuilt (R305). -/
  rebuilds : List Nat
  /-- The rebuild in progress, of one of them. -/
  rebuild : Option Rebuild
  /-- Reads in the hold slot of the sparing copy (R112); a held write waits in the queue of its channel. -/
  hold : List Nat
  deriving DecidableEq, Repr

/-- The DRBG (R320): AES-256 CTR_DRBG state, the requests since the last reseed, and whether it is seeded. -/
structure Drbg where
  key : BitVec 256
  v : BitVec 128
  count : Nat
  seeded : Bool
  deriving DecidableEq, Repr

/-- Work of firmware on the protected memory that goes on from step to step (R312, R317, R318, R322, R323, R595). -/
inductive SecWork where
  /-- A PROT_SET after its first commit: the final table, the entries that its records name, the regions that it
  creates with INIT, those that the first commit has dropped, and those that the last one drops. -/
  | protFirst (ticket : Nat) (final : ProtBank) (named : List Nat) (init gone later : List Region)
  /-- A PROT_SET that writes the lines of its new regions; its final table stands in the other bank. `clean` says that
  uninitialised memory is sanitized first (R104). -/
  | protInit (ticket : Nat) (gone : List Region) (clean : Bool)
  /-- The last commit has been made: the released size-class bits are cleared, and the ticket ends with OK. -/
  | ending (ticket : Nat) (gone : List Region)
  /-- A CTX_DESTROY after its commit. -/
  | destroy (ticket : Nat) (ctx : Nat) (regions : List Region)
  /-- A SANITIZE before its key switch; whether it has waited for entropy. -/
  | sanitize (ticket : Nat) (ctx : Nat) (waited : Bool)
  /-- A SANITIZE that writes its lines. -/
  | sanitizing (ticket : Nat)
  /-- The recovery from a zeroization before CTX 0 has its keys, and while the metadata bands are written. -/
  | zeroize (waited : Bool)
  | zeroizing
  /-- The Fill stage of the boot. -/
  | fill
  deriving DecidableEq, Repr

/-- Lines that firmware writes one after the other: zeros to `left` lines from `la` on, as writes under the current
table or the one in the other bank (R318, R323, R595); metadata lines of a kind as the boot fill writes them; and
size-class lines from `sla` on, in which the bits of the lines from `first` to before `last` are cleared (R292). -/
inductive MemRun where
  | lines (next : Bool) (la left : Nat)
  | band (kind la left : Nat)
  | bits (first last sla left : Nat)
  deriving DecidableEq, Repr

/-- What the rebuild of a counter line has still to write: a counter line under its parent's version, or a data slot as
poisoned (R334). -/
inductive CtrTask where
  | node (level n pv : Nat)
  | slot (la : Nat)
  deriving DecidableEq, Repr

/-- The security block: both protection banks, keys of active contexts, entropy, DRBG, counter-tree root
and rebuild count. -/
structure Sec where
  banks : List ProtBank
  keys : Tbl Keys
  active : List Nat
  /-- Raw samples towards the next conditioned block, conditioned bits in hand, and health-test state. -/
  raw : List (BitVec 16)
  cond : List (BitVec 128)
  rct : Option (BitVec 16 × Nat)
  apt : Option (BitVec 16 × Nat × Nat)
  healthy : Bool
  drbg : Drbg
  root : Tbl Nat
  rebuild : Nat
  /-- Counter lines that wait for their rebuild, and what the rebuild in progress has still to write (R334). -/
  lostCtr : List Nat
  ctrTasks : List CtrTask
  /-- Keys zeroized by debug and not yet recovered (R311, R312). -/
  zeroized : Bool
  /-- Context creations that wait for entropy, oldest first: ticket, context and nominal start (R320). -/
  waitKey : List (Nat × Nat × Nat)
  work : Option SecWork
  /-- Commands that wait for the work in hand to end: their tickets and words. -/
  waiting : List (Nat × List Word)
  /-- Lines that the work has still to write, and the engine write of the line that is on its way. -/
  memRuns : List MemRun
  line : Option Nat
  /-- The memory is uninitialised since a quiesced change of the mapping (R104). -/
  dirty : Bool
  deriving DecidableEq, Repr

/-! ## Management ring (R117–R135) -/

/-- A message on the ring. -/
structure RingMsg where
  typ : Nat
  src : Nat
  dst : Nat
  bcast : Bool
  seq : Nat
  hops : Nat
  payload : List (BitVec 16)
  deriving DecidableEq, Repr

/-- A MGMT message that waits for its acknowledgement (R124); `at_` is the nominal time of its last sending. -/
structure Unacked where
  msg : RingMsg
  at_ : Nat
  resends : Nat
  deriving DecidableEq, Repr

/-- A partly received MCI message: source, identity, next fragment and the words so far (R510). -/
structure Frag where
  src : Nat
  ident : Nat
  next : Nat
  words : List (BitVec 16)
  deriving DecidableEq, Repr

/-- A transit message that waits in the transit buffer (R122): `at_` is the REG cycle in which its H0 was
retimed. -/
structure Transit where
  at_ : Nat
  msg : RingMsg
  deriving DecidableEq, Repr

/-- An own message that waits to be inserted (R122), with the REG cycle since which it waits. -/
structure OwnMsg where
  at_ : Nat
  msg : RingMsg
  deriving DecidableEq, Repr

/-- An own PRESENCE on its lap (R131, R132): its SEQ, whether it carries LEAVING, and the nominal time at which it
was sent. -/
structure Lap where
  seq : Nat
  leave : Bool
  at_ : Nat
  /-- A LEAVING that has not returned within its 100 µs: it is still awaited (R131, R132). -/
  late : Bool
  deriving DecidableEq, Repr

structure Ring where
  /-- Own sequence number, message identity and nonce. -/
  seq : Nat
  ident : Nat
  nonce : Nat
  /-- RING_EN has set, and the nonce waits for the DRBG (R119, R320). -/
  noNonce : Bool
  unacked : List Unacked
  /-- Last SEQ delivered, by source. -/
  lastSeq : List (Nat × Nat)
  /-- FAULT messages of which the second copy is awaited: source, SEQ and nominal time of the first (R128). -/
  lastFault : List (Nat × Nat × Nat)
  /-- Own PRESENCE messages that have not returned, oldest first. -/
  laps : List Lap
  /-- A PRESENCE with LEAVING has completed its lap. -/
  left : Bool
  /-- The transit buffer and the own messages that wait, oldest first. -/
  transit : List Transit
  own : List OwnMsg
  /-- The REG cycle from which RING_OUT is free, whether the message in progress comes from the transit buffer,
  and the REG cycle in which an own message of the last group of R122 was last inserted. -/
  outFree : Nat
  outBuf : Bool
  ownAt : Option Nat
  /-- Destinations whose MGMT was given up, reported to firmware and not yet taken by it (R124). -/
  failed : List Nat
  /-- Nominal time of the last PRESENCE of each present engine, and of the own last one. -/
  beats : Tbl Nat
  beatAt : Nat
  /-- Second copies of FAULT messages, with the nominal time at which each is due (R128). -/
  copies : List (Nat × RingMsg)
  /-- MGMT messages that wait for the acknowledgement of an earlier one to their destination (R124). -/
  waiting : List RingMsg
  /-- Nominal times of the last TB_SYNC received and sent; this engine sends in place of the master. -/
  syncAt : Nat
  sentAt : Nat
  sender : Bool
  frags : List Frag
  /-- Complete MCI messages that wait for firmware, by source. -/
  inbox : List (Nat × List Word)
  /-- The bursts that the last step drove on RING_OUT. -/
  sent : List (List (BitVec 16))
  deriving DecidableEq, Repr

/-! ## Power (R451–R474) -/

/-- The power controller beside PWR_STATE: the blocks of R473 that have agreed to the current step, their
delays in this transition and when each is asked again, the completed steps, the tickets of the request in
progress and of the pending one, and the stage of a wake. -/
structure Pwr where
  agreed : List Nat
  delay : Tbl Nat
  reask : Tbl Nat
  done : Nat
  tickets : List Nat
  pend : Option Nat
  wake : Option Nat
  deep : Bool
  /-- Nominal time at which firmware first delayed the handshake for a roll (R27). -/
  rollAt : Option Nat
  /-- The status with which a reversing entry's own requests end (R456, R457). -/
  reverse : Option Nat
  deriving DecidableEq, Repr

/-! ## Management cores (R475–R481) -/

/-- One lockstep pair: the nominal time of its last kick, the nominal time at which it completed a restart,
its debug halt, and the SVN of its image; `released` says that it has left the boot ROM's hold. -/
structure Core where
  kick : Nat
  restarted : Option Nat
  released : Bool
  svn : Nat
  deriving DecidableEq, Repr

/-! ## Mulum (R502–R527) -/

/-- An open ticket (R511): its mailbox (64 and above for a ring source), TAG, opcode, progress, whether its
declared point has passed, and whether an abort has been answered OK. `drop` discards its record (R509). -/
structure Ticket where
  id : Nat
  box : Nat
  tag : Nat
  op : Nat
  progress : Nat
  declared : Bool
  aborting : Bool
  drop : Bool
  body : List Word
  deriving DecidableEq, Repr

/-- A session: version, stage buffer (ITEM, SCOPE, VALUE) and the TAGs last consumed (R507–R517). -/
structure Session where
  ver : Nat
  stage : List (Nat × Nat × Word)
  recent : List Nat
  deriving DecidableEq, Repr

/-- A stored record; `ticket` says that it answers a ticketed command. -/
structure Rec where
  box : Nat
  tag : Nat
  ticket : Bool
  words : List Word
  deriving DecidableEq, Repr

/-- A reservation of a class as committed (R406): rates in 100 MB/s and MODE. -/
structure ResvItem where
  rd : Nat
  wr : Nat
  mode : Nat
  deriving DecidableEq, Repr

/-- The CONFIG_COMMIT in progress: channels still to roll, channels rolled, drain attempts, the step reached
on the current channel or of the quiesce, the register values before it, and its status once it stops. -/
structure Commit where
  ticket : Nat
  items : List (Nat × Nat × Word)
  quiesce : Bool
  todo : List Nat
  rolled : List Nat
  count : Nat
  tries : Nat
  step : Nat
  saved : List (Nat × Word)
  stop : Option Nat
  deriving DecidableEq, Repr

/-- An offline RETRAIN whose channel still drains: its request, whether the ports are throttled, and the drain attempts
that have failed (R516, R520). -/
structure OffRun where
  ch : Nat
  pranks : Nat
  steps : Nat
  ticket : Nat
  throttled : Bool
  tries : Nat
  deriving DecidableEq, Repr

/-- What firmware of MC0/MC1 does of its own accord; it waits while the pair does not run (R32, R478). -/
inductive FwAct where
  /-- Its part of the reactions to a fatal fault (R538 step 5). -/
  | safe
  /-- A mark for a HOT device of a channel (R275): rank, subchannel, position. -/
  | mark (ch rank sc dev : Nat)
  /-- The soft repair of a row in a device (R275). -/
  | repair (l : Loc) (dev : Nat)
  /-- Sparing (R275): a rank first where its bound is met, else the channel. -/
  | spare (ch rank : Nat) (rankFirst : Bool)
  deriving DecidableEq, Repr

structure Mci where
  sessions : Tbl (Option Session)
  tickets : List Ticket
  nextTicket : Nat
  records : List Rec
  /-- The record that each mailbox in TO_HOST holds. -/
  inBox : Tbl (Option Rec)
  resv : List ResvItem
  commit : Option Commit
  /-- The offline RETRAINs that drain their channels, in order. -/
  offRuns : List OffRun
  /-- Boot configuration: admin list and privileged agent. -/
  admin : List Nat
  priv : Option Nat
  /-- Nominal time of the claim of each mailbox in a WRITING state. -/
  claims : Tbl Nat
  /-- What firmware is to do when MC0/MC1 runs again, oldest first. -/
  acts : List FwAct
  /-- The repairs that firmware has recorded, oldest first: the repaired address as PPR w1 and w2 (R272). -/
  repairs : List (Word × Word)
  /-- The FW_STAGE with END whose image firmware verifies (R515, R524). -/
  verify : Option Nat
  deriving DecidableEq, Repr

/-! ## Firmware images and bring-up (R524, R587–R596) -/

/-- An image stage: KIND, bytes, and the SVN once it has verified. -/
structure FwStage where
  kind : Nat
  bytes : List Byte
  verified : Option Nat
  deriving DecidableEq, Repr

structure Boot where
  /-- Stage of R593 that is next, 1 to 13; 14 when the boot has completed. -/
  stage : Nat
  /-- The boot has stopped with a failure. -/
  failed : Bool
  /-- Verified images by KIND: SVN and payload. -/
  images : List (Nat × Nat × List Byte)
  /-- Records of the boot configuration: KEY, SCOPE, VALUE. -/
  recs : List (Nat × Nat × Word)
  /-- The stage buffer of FW_STAGE, on the boot mailbox or in the dump tun. -/
  stageBuf : Option FwStage
  /-- Nominal time since which the Crypto stage has waited for a DRBG seed (R593). -/
  waitAt : Option Nat
  /-- Masks of the channels that Steep has trained and of those that it has failed (R594, R596). -/
  trained : Nat
  failedChs : Nat
  deriving DecidableEq, Repr

/-! ## The engine -/

structure Engine where
  /-- The register file, by value address; what is not listed reads as its reset value. -/
  regs : Tbl Word
  clk : Clk
  pins : Pins
  flt : Flt
  dbg : Dbg
  ports : Tbl Port
  txns : List Txn
  nextId : Nat
  dir : Dir
  qos : Qos
  tel : Tel
  chans : Tbl Chan
  pack : Pack
  sec : Sec
  ring : Ring
  pwr : Pwr
  cores : List Core
  mci : Mci
  boot : Boot
  /-- DRAM slots written in the current step, newest first; the step moves them to DRAM, and the list
  is empty between steps. -/
  store : List (Nat × Slot)
  /-- The model's own counter of free values drawn. -/
  free : Nat
  deriving DecidableEq, Repr

/-- DRAM: how often the contents of each channel have been lost, and the slots written since, by location. -/
structure Dram where
  epoch : Tbl Nat
  cells : Tbl Slot
  deriving DecidableEq, Repr

/-! ## Reset (R437–R439) -/

/-- The AON domain and the core domain right after PORST_N is asserted, with the supplies in range and
ENG_PRESENT high. -/
def engineReset : Engine :=
  { regs := []
    clk :=
      { root := .stopped, bin := 6, cyc := 0, tb := 0, rem := 0, nominal := 0, slew := 0, uncert := 0
        epochInvalid := true, kiln := 0, kilnAt := 0, kilnStop := 0, tbStop := 0, lastSleep := 0, winTb := 0
        winDirty := true, calValid := false, lost := false }
    pins :=
      { engPresent := true, porst := true, srst := false, wake := false, supply := true
        relayClosed := true, chReset := List.replicate 32 false }
    flt :=
      { counts := [], hist := [], ovfPend := false, rseq := 0, cause := none, safeTb := 0, safeAt := 0
        quietAt := 0, since := [], recent := [], lost := [], tun := none, dram := none, tunHeld := false, moved := false
        planAt := none }
    dbg :=
      { badLanes := [], rejHeld := [], gristEnd := none, touched := false, wrw := List.replicate 3 ⟨0, false, false, false, [0, 0, 0, 0]⟩, trace := []
        halted := [false, false] }
    ports := []
    txns := []
    nextId := 0
    dir :=
      { sets := [], victims := [], evicts := [], snoops := [], enroll := [], walks := [], log := []
        logOvf := false, initEnd := none }
    qos :=
      { active := [], buckets := [], hold := [], writes := [], misses := [], cut := [], shedDue := false, short := 0 }
    tel :=
      { seed := 0, seedWait := false, drawn := 0, fifo := [], live := [], samples := 0, partialEp := false, epoch := 0
        epochAt := 0, snap := [], snapSamples := 0, snapCtrl := 0, snapEpoch := 0, cnt := [], shadow := []
        disarmed := [] }
    chans := []
    pack :=
      { pairs := [], merges := [], rets := [], waits := [], want := [], cask := [], rebuilds := [], rebuild := none
        hold := [] }
    sec :=
      { banks := [⟨[], []⟩, ⟨[], []⟩], keys := [], active := [], raw := [], cond := [], rct := none
        apt := none, healthy := true, drbg := ⟨0, 0, 0, false⟩, root := [], rebuild := 0, lostCtr := [], ctrTasks := []
        zeroized := false, waitKey := [], work := none, waiting := [], memRuns := [], line := none, dirty := false }
    ring :=
      { seq := 0, ident := 0, nonce := 0, noNonce := false, unacked := [], lastSeq := [], lastFault := [], laps := []
        left := false, transit := [], own := [], outFree := 0, outBuf := false, ownAt := none, failed := [], beats := [], beatAt := 0, copies := [], waiting := []
        syncAt := 0, sentAt := 0, sender := false, frags := [], inbox := [], sent := [] }
    pwr :=
      { agreed := [], delay := [], reask := [], done := 0, tickets := [], pend := none
        wake := none, deep := false, rollAt := none, reverse := none }
    cores := [⟨0, none, false, 0⟩, ⟨0, none, false, 0⟩]
    mci :=
      { sessions := [], tickets := [], nextTicket := 1, records := [], inBox := []
        resv := List.replicate 8 ⟨0, 0, 0⟩, commit := none, offRuns := [], admin := [], priv := none, claims := []
        acts := [], repairs := [], verify := none }
    boot := { stage := 1, failed := false, images := [], recs := [], stageBuf := none, waitAt := none, trained := 0, failedChs := 0 }
    store := []
    free := 0 }

/-! ## The machine -/

/-- The engine and its DRAM with the queue of commands that wait, first in, first out. -/
structure State where
  pending : List Instr
  e : Engine
  dram : Dram
  deriving DecidableEq, Repr

/-- The machine right after reset: PORST_N is asserted, DRAM contents are lost and no command waits. -/
def State.reset : State := ⟨[], engineReset, ⟨[], []⟩⟩

end Sys2Proof.Machine
end

