-- ==== Sys2Proof/Machine/Ops.lean ====
section
/-! DEFINITION. The operations that every block uses: reading and writing registers and fields,
status registers with a sequence number (R565), the passage of time (R433–R444), and raising a
fault event (R528–R541). -/

namespace Sys2Proof.Machine

/-! ## Registers -/

/-- The description of the register at a value address (R586). -/
def regDesc (a : Nat) : Option RegDesc := findIn a (registerMap a)

/-- The register's status fields are guarded by a SEQ in bits 31:24. -/
def isSeqReg (d : RegDesc) : Bool := d.fields.any fun f => f.acc == .sq && f.hi == 31 && f.lo == 24

/-- The reset value of the register at a value address. -/
def resetOf (a : Nat) : Word :=
  match regDesc a with
  | some d => resetWord d.fields
  | none => 0

/-- The stored value of a register. -/
def reg (e : Engine) (a : Nat) : Word := tget (resetOf a) e.regs a

/-- Stores a register's value. -/
def setReg (e : Engine) (a : Nat) (w : Word) : Engine :=
  { e with regs := tput (resetOf a) e.regs a w }

/-- A field's stored value. -/
def rd (e : Engine) (f : Fld) : Nat := wordField (reg e f.addr) f.hi f.lo

/-- Whether a one-bit field is set. -/
def on (e : Engine) (f : Fld) : Bool := rd e f == 1

/-- Stores a field; the register's other bits stay. -/
def wr (e : Engine) (f : Fld) (v : Nat) : Engine :=
  setReg e f.addr (setWordField (reg e f.addr) f.hi f.lo v)

/-- Adds to a field, wrapping at its width. -/
def addF (e : Engine) (f : Fld) (n : Nat) : Engine := wr e f (rd e f + n)

/-- Adds 1 to a 32-bit counter register, which wraps to 0. -/
def inc (e : Engine) (a : Nat) : Engine := setReg e a (reg e a + 1)

/-- Adds to a field, saturating at its width. -/
def satF (e : Engine) (f : Fld) (n : Nat) : Engine :=
  wr e f (min (rd e f + n) (2 ^ fldWidth f - 1))

/-- A word with several of its fields replaced. -/
def setFields (w : Word) : List (Fld × Nat) → Word
  | [] => w
  | (f, v) :: fs => setFields (setWordField w f.hi f.lo v) fs

/-- R565: changes SQ fields of the register at `a`; SEQ increases by 1 when a field changed. -/
def sqSet (e : Engine) (a : Nat) (fs : List (Fld × Nat)) : Engine :=
  let w := reg e a
  let w' := setFields w fs
  if w' = w then e else setReg e a (setWordField w' 31 24 (wordField w 31 24 + 1))

/-- The bits that a clearing write of SEQ clears: the SQ fields below SEQ. The ring's fault log is cleared
as one status (DEDUCED: R492 says that its interrupt is cleared by clearing it). -/
def sqMask (a : Nat) : Word :=
  if a = RING_FAULT_LOG then 0x00FFFFFF
  else match regDesc a with
    | some d => accMask [.sq] d.fields &&& 0x00FFFFFF
    | none => 0

/-- R8, R565: a write of `seq` to a status register clears its SQ fields when it is the current SEQ;
SEQ itself stays. -/
def sqClear (e : Engine) (a seq : Nat) : Engine :=
  if wordField (reg e a) 31 24 = seq then setReg e a (reg e a &&& ~~~ (sqMask a)) else e

/-! ## Time -/

/-- Units of TB in a nanosecond. -/
def nsUnit : Nat := 2 ^ 24

def usUnits (n : Nat) : Nat := n * 1000 * nsUnit
def msUnits (n : Nat) : Nat := n * 1000000 * nsUnit

/-- The data rate of a bin in MT/s (R433). -/
def binRate : Nat → Nat
  | 0 => 12800 | 1 => 8800 | 2 => 8000 | 3 => 7200 | 4 => 6400 | 5 => 5600 | _ => 4800

/-- STEP of a bin (R433, R440). -/
def binStep : Nat → Nat
  | 0 => 167772160 | 1 => 244032232 | 2 => 268435456 | 3 => 298261617 | 4 => 335544320
  | 5 => 383479222 | _ => 447392426

/-- REM of a bin (R433, R440). -/
def binRem : Nat → Nat
  | 0 => 0 | 1 => 6400 | 2 => 0 | 3 => 5600 | 4 => 0 | 5 => 4800 | _ => 3200

/-- TB in whole nanoseconds. -/
def tbNs (e : Engine) : Nat := e.clk.tb / nsUnit

/-- R440: the nominal advance of `n` TBS cycles from a remainder, with the new remainder. -/
def nominalAdvance (bin rem n : Nat) : Nat × Nat :=
  let r := rem + n * binRem bin
  (n * binStep bin + r / binRate bin, r % binRate bin)

/-- R444: the part of a slew absorbed in `n` TBS cycles. -/
def slewPart (bin : Nat) (slew : Int) (n : Nat) : Int :=
  let m := Int.ofNat (n * (binStep bin / 16))
  if slew ≥ 0 then min slew m else max slew (-m)

/-- `n` TBS cycles of the timebase (R440, R444): TB wraps at 64 bits of nanoseconds. -/
def tbsCycles (c : Clk) (n : Nat) : Clk :=
  let a := nominalAdvance c.bin c.rem n
  let k := slewPart c.bin c.slew n
  { c with
    rem := a.2
    nominal := c.nominal + a.1
    slew := c.slew - k
    tb := ((c.tb + a.1 : Nat) + k : Int).toNat % 2 ^ 88
    winDirty := c.winDirty || (c.slew ≠ 0 && n ≠ 0) }

/-- `n` CTL cycles pass while the root runs; a TBS cycle is 16 of them (R433). -/
def clkCycles (c : Clk) (n : Nat) : Clk :=
  if c.root = .locked then
    let t := (c.cyc + n) / 16 - c.cyc / 16
    { tbsCycles c t with cyc := c.cyc + n }
  else c

/-- `n` CTL cycles pass. -/
def tick (e : Engine) (n : Nat) : Engine := { e with clk := clkCycles e.clk n }

/-- The CTL cycles until nominal time first reaches `t`. -/
def cyclesTo (c : Clk) (t : Nat) : Nat :=
  if t ≤ c.nominal then 0
  else
    let k := (t - c.nominal + binStep c.bin - 1) / binStep c.bin
    let k' := if (nominalAdvance c.bin c.rem (k - 1)).1 + c.nominal ≥ t then k - 1 else k
    (c.cyc / 16 + k') * 16 - c.cyc

/-- Time passes until nominal time has reached `t`; none passes when it has. -/
def tickTo (e : Engine) (t : Nat) : Engine := tick e (cyclesTo e.clk t)

/-- The engine draws a free value: the index that names it. -/
def drawFree (e : Engine) : Engine := { e with free := e.free + 1 }

/-- The clocks of the core domain run: the data path is out of reset (R439 step 6). In a wake they are released in the
logic stage, 64 REG cycles after lock (R465). -/
def clocked (e : Engine) : Bool := e.clk.root == .locked && e.pwr.wake.all fun k => decide (4 ≤ k)

/-- The step of R460 that asks a block. -/
def askStep (b : Nat) : Nat := if b ≤ 3 then 1 else if b = 4 then 2 else if b ≤ 8 then 3 else if b = 9 then 5 else 4

/-- R459: a block has agreed to the entry in progress: it starts no work that would undo its agreement. An entry to OFF asks
no channel. -/
def hasAgreed (e : Engine) (b : Nat) : Bool :=
  on e PWR_CTRL_IN_SERVICE && on e PWR_STATE_TRANS && e.pwr.wake.isNone &&
    (e.pwr.agreed.contains b || decide (askStep b < rd e PWR_STATE_STEP) && (decide (b < 16) || rd e PWR_STATE_TARGET != 4))

/-! ## Trace -/

/-- R581: appends a trace record of kind `k` when it is traced. -/
def traceRec (e : Engine) (k loc : Nat) (v : Word) : Engine :=
  if on e GC_DBG_CTRL_TRACE_EN && (rd e GC_DBG_CTRL_TRACE_KINDS / 2 ^ (k - 1) % 2 == 1) then
    let r : TraceRec := ⟨tbNs e, k, loc, v⟩
    let t := e.dbg.trace ++ [r]
    { e with dbg := { e.dbg with trace := t.drop (t.length - 4096) } }
  else e

/-! ## Faults -/

/-- The code of a class (R528). -/
def classCode : FClass → Nat
  | .corrected => 0 | .contained => 1 | .fatal => 2

/-- The sources that exist (R529). -/
def srcDefined (s : Nat) : Bool :=
  s ≤ 0x0C || (0x10 ≤ s && s < 0x50)

/-- N of a source's promotion (R530). -/
def promoteN (e : Engine) (s : Nat) : Nat := rd e (FLT_SRC_CFG_N s)

/-- The window W of a source, in time units (R530, R559). -/
def promoteW (e : Engine) (s : Nat) : Nat :=
  let v := rd e (FLT_SRC_CFG_W_VAL s)
  match rd e (FLT_SRC_CFG_W_UNIT s) with
  | 0 => usUnits v
  | 1 => msUnits v
  | _ => msUnits (1000 * v)

def noCount : SrcCnt := ⟨0, 0, 0, 0⟩

/-- The oldest record of class at or below `c` removed, where there is one (R537). -/
def displace (c : FClass) : List HistRec → Option (List HistRec)
  | [] => none
  | r :: rs =>
    if classCode r.cls ≤ classCode c then some rs
    else (displace c rs).map (r :: ·)

/-- R536, R537: the history queue takes a record. -/
def pushHist (e : Engine) (cls : FClass) (promoted : Bool) (src : Nat) (syn : Word) : Engine :=
  let r : HistRec := ⟨tbNs e, cls, promoted, e.flt.ovfPend, src, e.flt.rseq % 256, syn⟩
  let f := { e.flt with rseq := (e.flt.rseq + 1) % 256 }
  if f.hist.length < 32 then
    { e with flt := { f with hist := f.hist ++ [r], ovfPend := false } }
  else
    let e := inc e FLT_CNT_HIST_DROP
    let e := sqSet e FLT_STATUS [(FLT_STATUS_OVF, 1)]
    match displace cls f.hist with
    | some h => { e with flt := { f with hist := h ++ [{ r with ovf := true }], ovfPend := false } }
    | none => { e with flt := { f with ovfPend := true } }

/-- The status flag of a class in FLT_STATUS. -/
def classFlag : FClass → Fld
  | .corrected => FLT_STATUS_CE | .contained => FLT_STATUS_CONT | .fatal => FLT_STATUS_FATAL

/-- The counter of a class. -/
def classCounter : FClass → Nat
  | .corrected => FLT_CNT_CE | .contained => FLT_CNT_CONT | .fatal => FLT_CNT_FATAL

/-- The engine is in the safe state (R538). -/
def isSafe (e : Engine) : Bool := on e FLT_STATUS_SAFE

/-- The window of R553, 86,400 s in time units. -/
abbrev dayUnits : Nat := msUnits 86400000

/-- R553: the times of the automatic recoveries completed within the last 86,400 s; the window counts nominal time, as
every timer does (R442). -/
def recentNow (e : Engine) : List Nat := e.flt.recent.filter fun t => decide (e.clk.nominal < t + dayUnits)

/-- R420: the snapshot of the current epoch will carry PARTIAL. -/
def telPartial (e : Engine) : Engine := { e with tel := { e.tel with partialEp := true } }

/-- R538, R543, R553: the collector's own part of entering the safe state: SAFE, the cause record,
PHASE = REACT and NO_AUTO. Every other block reacts in the same step (`settle`). -/
def enterSafe (e : Engine) (r : HistRec) (noAuto : Nat) : Engine :=
  let na := if noAuto ≠ 0 then noAuto
    else if (recentNow e).length ≥ 3 then 1
    else if on e FLT_CTRL_AUTO_EXIT then 0 else 5
  let e := wr (telPartial e) FLT_STATUS_SAFE 1
  let e := if noAuto = 2 then wr e FLT_STATUS_SELF 1 else e
  let e := wr e FLT_SAFE_PHASE 1
  let e := wr e FLT_SAFE_DUMP_DONE 0
  let e := wr e FLT_SAFE_NO_AUTO na
  let e := wr e FLT_SAFE_CAUSE_SRC r.source
  { e with flt := { e.flt with
      cause := some r, safeTb := tbNs e, safeAt := e.clk.nominal, quietAt := e.clk.nominal,
      since := [r.source], lost := [], moved := false } }

/-- R532, R533, R538, R541: the collector reports an event at its final class. `noAuto` is the
NO_AUTO value that the event itself sets, 0 for none. -/
def reportFault (e : Engine) (src : Nat) (cls : FClass) (promoted : Bool) (syn : Word)
    (noAuto : Nat) : Engine :=
  let e := sqSet e (FLT_SRC_STATUS src)
    [(FLT_SRC_STATUS_PEND src, 1),
     (FLT_SRC_STATUS_CLASS src, max (rd e (FLT_SRC_STATUS_CLASS src)) (classCode cls)),
     (FLT_SRC_STATUS_COUNT src, min (rd e (FLT_SRC_STATUS_COUNT src) + 1) 0xFFFF)]
  let e := setReg e (FLT_SRC_SYN src) syn
  let e := inc e (classCounter cls)
  let r : HistRec := ⟨tbNs e, cls, promoted, e.flt.ovfPend, src, e.flt.rseq % 256, syn⟩
  let e := if rd e FLT_CTRL_MODE = 0 ∨ cls = .fatal ∨ promoted then
      sqSet (pushHist e cls promoted src syn) FLT_STATUS
        [(classFlag cls, 1), (FLT_STATUS_SOURCE, src)]
    else e
  let e := traceRec e 5 src syn
  let e := if isSafe e then
      let q := if cls = .corrected then e.flt.quietAt else e.clk.nominal
      { e with flt := { e.flt with quietAt := q, since := src :: e.flt.since } }
    else e
  if cls = .fatal ∧ ¬ isSafe e then enterSafe e r noAuto
  else if cls = .fatal ∧ noAuto ≠ 0 then
    let e := wr (if noAuto = 2 then wr e FLT_STATUS_SELF 1 else e) FLT_SAFE_NO_AUTO noAuto
    if on e FLT_SAFE_DUMP_DONE ∨ rd e MBX_CORE_STATE_ST01 = 3 then wr e FLT_SAFE_PHASE 4 else e
  else e

/-- R530: a counted contained event. -/
def countContained (e : Engine) (src : Nat) (syn : Word) (promoted : Bool) : Engine :=
  let c := tget noCount e.flt.counts src
  let c := if c.ctCount = 0 ∨ e.clk.nominal ≥ c.ctStart + promoteW e src
    then { c with ctStart := e.clk.nominal, ctCount := 0 } else c
  let hit := c.ctCount + 1 = promoteN e src
  let c := { c with ctCount := if hit then 0 else c.ctCount + 1 }
  let e := { e with flt := { e.flt with counts := tput noCount e.flt.counts src c } }
  if hit then reportFault e src .fatal true syn 0
  else reportFault e src .contained promoted syn 0

/-- R530: a counted corrected event. -/
def countCorrected (e : Engine) (src : Nat) (syn : Word) : Engine :=
  let c := tget noCount e.flt.counts src
  let c := if c.ceCount = 0 ∨ e.clk.nominal ≥ c.ceStart + promoteW e src
    then { c with ceStart := e.clk.nominal, ceCount := 0 } else c
  let hit := c.ceCount + 1 = promoteN e src
  let c := { c with ceCount := if hit then 0 else c.ceCount + 1 }
  let e := { e with flt := { e.flt with counts := tput noCount e.flt.counts src c } }
  if hit then countContained e src syn true
  else reportFault e src .corrected false syn 0

/-- R530, R531: a source raises an event. -/
def raise (e : Engine) (src : Nat) (cls : FClass) (syn : Word) : Engine :=
  match cls with
  | .fatal => reportFault e src .fatal false syn 0
  | .contained => countContained e src syn false
  | .corrected => countCorrected e src syn

/-- R531: an event that is reported and never counted. -/
def raiseUncounted (e : Engine) (src : Nat) (cls : FClass) (syn : Word) : Engine :=
  reportFault e src cls false syn 0

/-- R529: a syndrome from the flag's bit position (0xFF for none) and the detail. -/
def synOf (bit detail : Nat) : Word := BitVec.ofNat 32 (bit % 256 * 2 ^ 24 + detail % 2 ^ 24)

/-! ## Lists -/

/-- The `i`th element, or `d`. -/
def nth {α : Type} (l : List α) (i : Nat) (d : α) : α := l.getD i d

/-- The `i`th element replaced. -/
def setNth {α : Type} (l : List α) (i : Nat) (v : α) : List α := l.set i v

end Sys2Proof.Machine
end

