-- ==== Sys2Proof/Machine/Grist.lean ====
section
/-! DEFINITION. Grist (R97–R116): the line address, its home fields, the hashed outputs, the
configuration check, the row bands, and the sparing remap. -/

namespace Sys2Proof.Machine

/-! ## Widths and bands (R97, R98, R106) -/

/-- The widths c, k and r (R97), the masks by output, and the carve-outs: what Grist maps with. -/
structure GCfg where
  c : Nat
  slotBits : Nat
  prankBits : Nat
  cidBits : Nat
  r : Nat
  masks : List Nat
  macRows : Nat
  ctrRows : Nat
  spareRows : Nat
  dumpRows : Nat
  deriving DecidableEq, Repr

/-- k: the RANK bits (R97). -/
def GCfg.k (g : GCfg) : Nat := g.slotBits + g.prankBits + g.cidBits

/-- The configuration as the registers hold it. -/
def gcfg (e : Engine) : GCfg :=
  { c := rd e GC_GRIST_CTRL_CH_BITS
    slotBits := rd e GC_GRIST_CTRL_SLOT_BITS
    prankBits := rd e GC_GRIST_CTRL_PRANK_BITS
    cidBits := rd e GC_GRIST_CTRL_CID_BITS
    r := rd e GC_GRIST_CTRL_ROW_BITS
    masks := (List.range 14).map fun j =>
      rd e (GC_GRIST_MASK_HI_MASK j) * 2 ^ 32 + rd e (GC_GRIST_MASK_LO_MASK j)
    macRows := rd e GC_CARVE_MAC_MAC_ROWS
    ctrRows := rd e GC_CARVE_CTR_CTR_ROWS
    spareRows := rd e GC_CARVE_SPARE_SPARE_ROWS
    dumpRows := rd e GC_CARVE_DUMP_DUMP_ROWS }

/-- Rows of the size-class area (R106). -/
def scRows (g : GCfg) : Nat := 2 ^ g.r / 512

/-- Rows outside the data band (R106). -/
def bandRows (g : GCfg) : Nat := scRows g + g.macRows + g.ctrRows + g.spareRows + g.dumpRows

/-- DATA_ROWS (R106). -/
def dataRows (g : GCfg) : Nat := 2 ^ g.r - bandRows g

/-- The first row of the spare band (R106). -/
def spareBase (g : GCfg) : Nat := dataRows g + scRows g + g.macRows + g.ctrRows

/-- The first row of the dump band (R106). -/
def dumpBase (g : GCfg) : Nat := spareBase g + g.spareRows

/-- Lines of a row slice: 2^(19 + c + k) bytes (R102). -/
def sliceLines (g : GCfg) : Nat := 2 ^ (13 + g.c + g.k)

/-- The data top as a line address (R106). -/
def dataTop (g : GCfg) : Nat := dataRows g * sliceLines g

/-- The populated capacity in lines (R102). -/
def capLines (g : GCfg) : Nat := 2 ^ g.r * sliceLines g

/-! ## Mapping (R98–R100) -/

/-- Bits `lo` upward, `w` of them. -/
def bitsOf (x lo w : Nat) : Nat := x / 2 ^ lo % 2 ^ w

/-- The parity of the low `n` bits. -/
def parityN : Nat → Nat → Nat
  | 0, _ => 0
  | n + 1, x => (x % 2 + parityN n (x / 2)) % 2

/-- R99: output `j` of an address. -/
def gristOut (g : GCfg) (la j : Nat) : Nat := parityN 38 (la &&& nth g.masks j 0)

/-- Outputs `j` upward, `n` of them, as a number. -/
def gristOuts (g : GCfg) (la j : Nat) : Nat → Nat
  | 0 => 0
  | n + 1 => gristOut g la j + 2 * gristOuts g la (j + 1) n

/-- R98, R99: the location of a line before any sparing. -/
def gristMap (g : GCfg) (la : Nat) : Loc :=
  { ch := gristOuts g la 0 g.c
    sc := gristOut g la 4
    bg := gristOuts g la 5 3
    bank := gristOuts g la 8 2
    rank := gristOuts g la 10 g.k
    row := bitsOf la (13 + g.c + g.k) g.r
    col := bitsOf la 0 1 + 2 * bitsOf la (g.c + 2) 6 }

/-- R100: the physical rank (slot and prank) of a RANK value. -/
def prankOf (g : GCfg) (rank : Nat) : Nat := rank / 2 ^ g.cidBits

/-- R100: the module slot of a RANK value. -/
def slotOf (g : GCfg) (rank : Nat) : Nat := prankOf g rank / 2 ^ g.prankBits

/-- The physical ranks of a channel. -/
def prankCount (g : GCfg) : Nat := 2 ^ (g.slotBits + g.prankBits)

/-- A location as one number, the key of its slot in DRAM. -/
def locKey (l : Loc) : Nat :=
  (((((l.ch * 2 + l.sc) * 16 + l.rank) * 8 + l.bg) * 4 + l.bank) * 2 ^ 18 + l.row) * 128 + l.col

/-- The channel of a slot, by its key. -/
def cellChan (k : Nat) : Nat := k / (2 * 16 * 8 * 4 * 2 ^ 18 * 128)

/-- The bank of a location within its channel: subchannel, RANK, bank group, bank. -/
def bankKey (l : Loc) : Nat := ((l.sc * 16 + l.rank) * 8 + l.bg) * 4 + l.bank

/-! ## The check (R103) -/

/-- The outputs in use: CH below c, SC, BG, BANK, RANK below k. A c or k above the masks that exist, which fails WIDTH, names
outputs twice, so that SINGULAR is set too and the rank is taken over them (DESIGN CHOICE: no such mask is stated). -/
def usedOuts (g : GCfg) : List Nat :=
  (List.range g.c) ++ [4, 5, 6, 7, 8, 9] ++ (List.range (min g.k 4)).map (10 + ·)

/-- The home position of an output (R98). -/
def homePos (g : GCfg) (j : Nat) : Nat :=
  if j < 4 then 1 + j
  else if j = 4 then g.c + 1
  else if j < 8 then g.c + 8 + (j - 5)
  else if j < 10 then g.c + 11 + (j - 8)
  else g.c + 13 + (j - 10)

/-- A mask restricted to the home positions of the used outputs, as a row of bits. -/
def homeRow (g : GCfg) (mask : Nat) : List Bool :=
  (usedOuts g).map fun j => mask.testBit (homePos g j)

/-- Two rows added over GF(2). -/
def xorRow (a b : List Bool) : List Bool := List.zipWith (fun x y => x != y) a b

/-- The rank over GF(2) of rows of `n` columns: column by column, a pivot row is taken and added to
every other row that has a one there. -/
def gfRank : Nat → List (List Bool) → Nat
  | 0, _ => 0
  | n + 1, rows =>
    match rows.find? fun r => r.headD false with
    | none => gfRank n (rows.map List.tail)
    | some p =>
      let rest := (rows.erase p).map fun r => if r.headD false then xorRow r p else r
      1 + gfRank n (rest.map List.tail)

/-- MATRIX_RANK of the used masks (R103). -/
def matrixRank (g : GCfg) : Nat :=
  gfRank (usedOuts g).length ((usedOuts g).map fun j => homeRow g (nth g.masks j 0))

/-- The WIDTH condition of R103. -/
def badWidth (g : GCfg) : Bool :=
  !(16 ≤ g.r && g.r ≤ 18) || !(2 ≤ g.c && g.c ≤ 4) ||
    (g.cidBits == 3 && g.slotBits == 1 && g.prankBits == 1) || decide (13 + g.c + g.k + g.r > 38)

/-- The MASK_RANGE condition of R103. -/
def badMask (g : GCfg) : Bool :=
  (List.range 14).any fun j =>
    let m := nth g.masks j 0
    m.testBit 0 || decide (m ≥ 2 ^ (13 + g.c + g.k + g.r)) || (!(usedOuts g).contains j && m != 0)

/-- The channel bound of R110. -/
def spareBound (g : GCfg) (bits : Nat) : Nat := (2 ^ g.r - g.dumpRows + 2 ^ bits - 1) / 2 ^ bits

/-- The five flags of R103. -/
structure GCheck where
  width : Bool
  maskRange : Bool
  singular : Bool
  carve : Bool
  spareShort : Bool
  rank : Nat
  deriving DecidableEq, Repr

def gristCheck (g : GCfg) : GCheck :=
  { width := badWidth g
    maskRange := badMask g
    singular := decide (matrixRank g < (usedOuts g).length)
    carve := decide (2 ^ g.r < bandRows g + 2 ^ (g.r - 1))
    spareShort := g.spareRows != 0 && decide (g.spareRows < spareBound g g.c)
    rank := matrixRank g }

def GCheck.ok (k : GCheck) : Bool := !(k.width || k.maskRange || k.singular || k.carve || k.spareShort)

/-! ## The inverse (R103) -/

/-- The parity of a sum of products. -/
def gfDot (a b : List Bool) : Bool := (List.zipWith (fun x y => x && y) a b).foldl (fun x y => x != y) false

/-- Solves a system over GF(2) of `n` unknowns, rows with their right sides; a free unknown is 0. -/
def gfSolve : Nat → List (List Bool × Bool) → List Bool
  | 0, _ => []
  | n + 1, rows =>
    match rows.find? fun r => r.1.headD false with
    | none => false :: gfSolve n (rows.map fun r => (r.1.tail, r.2))
    | some p =>
      let rest := (rows.erase p).map fun r =>
        if r.1.headD false then (xorRow r.1 p.1, r.2 != p.2) else r
      let xs := gfSolve n (rest.map fun r => (r.1.tail, r.2))
      (p.2 != gfDot p.1.tail xs) :: xs

/-- The value of an output at a location. -/
def locOut (l : Loc) (j : Nat) : Bool :=
  if j < 4 then l.ch.testBit j
  else if j = 4 then l.sc.testBit 0
  else if j < 8 then l.bg.testBit (j - 5)
  else if j < 10 then l.bank.testBit (j - 8)
  else l.rank.testBit (j - 10)

/-- The line address that Grist maps to a location, before any sparing; it is unique under R103. -/
def gristInv (g : GCfg) (l : Loc) : Nat :=
  let known := l.col % 2 + l.col / 2 * 2 ^ (g.c + 2) + l.row * 2 ^ (13 + g.c + g.k)
  let js := usedOuts g
  let rows := js.map fun j =>
    (homeRow g (nth g.masks j 0), locOut l j != (gristOut g known j == 1))
  let xs := gfSolve js.length rows
  known + ((js.zip xs).map fun p => if p.2 then 2 ^ homePos g p.1 else 0).sum

/-! ## Sparing remap (R110–R112) -/

/-- The spare state of GC_SPARE_CTRL and GC_SPARE_PTR. -/
structure SpareCfg where
  active : Bool
  rankScope : Bool
  failCh : Nat
  failRank : Nat
  ptr : Nat
  deriving DecidableEq, Repr

def spareCfg (e : Engine) : SpareCfg :=
  { active := on e GC_SPARE_CTRL_ACTIVE
    rankScope := on e GC_SPARE_CTRL_SCOPE
    failCh := rd e GC_SPARE_CTRL_FAIL_CH
    failRank := rd e GC_SPARE_CTRL_FAIL_RANK
    ptr := rd e GC_SPARE_PTR_HI_PTR * 2 ^ 32 + rd e GC_SPARE_PTR_LO_PTR }

/-- R111: the location lies in the failed unit. -/
def inFailed (s : SpareCfg) (l : Loc) : Bool :=
  l.ch == s.failCh && (!s.rankScope || l.rank == s.failRank)

/-- R111: the unit-local offset of a location. -/
def unitOffset (g : GCfg) (s : SpareCfg) (l : Loc) : Nat :=
  let hi := if s.rankScope then l.row else l.row * 2 ^ g.k + l.rank
  ((((hi * 4 + l.bank) * 8 + l.bg) * 64 + l.col / 2) * 2 + l.sc) * 2 + l.col % 2

/-- R111: the location of a unit-local offset in the failed unit. -/
def unitLoc (g : GCfg) (s : SpareCfg) (n : Nat) : Loc :=
  let hi := n / 2 ^ 13
  { ch := s.failCh
    rank := if s.rankScope then s.failRank else hi % 2 ^ g.k
    row := if s.rankScope then hi else hi / 2 ^ g.k
    bank := n / 2 ^ 11 % 4
    bg := n / 2 ^ 8 % 8
    sc := n / 2 % 2
    col := n % 2 + 2 * (n / 4 % 64) }

/-- D of R111. -/
def spareD (g : GCfg) (s : SpareCfg) : Nat := if s.rankScope then 2 ^ g.k - 1 else 2 ^ g.c - 1

/-- R111: the target location of a unit-local offset. -/
def spareTarget (g : GCfg) (s : SpareCfg) (n : Nat) : Loc :=
  let d := spareD g s
  let fail := if s.rankScope then s.failRank else s.failCh
  let j := n % d
  let u := if j < fail then j else j + 1
  let t := unitLoc g s (n / d)
  let t := { t with row := t.row + spareBase g }
  if s.rankScope then { t with rank := u } else { t with ch := u }

/-- The unit-local offset whose target is a location of the spare band: `spareTarget` read backwards (R111). -/
def spareSource (g : GCfg) (s : SpareCfg) (l : Loc) : Nat :=
  let fail := if s.rankScope then s.failRank else s.failCh
  let u := if s.rankScope then l.rank else l.ch
  unitOffset g s { l with row := l.row - spareBase g } * spareD g s + (if u < fail then u else u - 1)

/-- The unit-local offsets that are relocated: rows below the spare band (R111). -/
def unitLines (g : GCfg) (s : SpareCfg) : Nat :=
  spareBase g * 2 ^ 13 * (if s.rankScope then 1 else 2 ^ g.k)

/-- Where Grist sends an address: a location, or the hold slot (R112). -/
inductive GTarget where
  | at (l : Loc)
  | hold (l : Loc)
  deriving DecidableEq, Repr

/-- R111, R112: the target of an address. -/
def gristTarget (g : GCfg) (s : SpareCfg) (la : Nat) : GTarget :=
  let l := gristMap g la
  if s.active && inFailed s l then
    let n := unitOffset g s l
    if n < s.ptr then .at (spareTarget g s n)
    else if n = s.ptr then .hold l
    else .at l
  else .at l

/-- The location that a request goes to, held or not. -/
def GTarget.loc : GTarget → Loc
  | .at l => l
  | .hold l => l

/-- R111, R112: the location of a line now. -/
def lineLoc (e : Engine) (la : Nat) : Loc := (gristTarget (gcfg e) (spareCfg e) la).loc

/-- The line whose slot a location is now; none where it is no line's (R111). -/
def slotLa (e : Engine) (l : Loc) : Option Nat :=
  let g := gcfg e
  let s := spareCfg e
  let la := gristInv g (if spareBase g ≤ l.row then unitLoc g s (spareSource g s l) else l)
  if lineLoc e la = l then some la else none

/-- R112: Grist holds the line: the sparing copy has reached it. -/
def lineHeld (e : Engine) (la : Nat) : Bool :=
  match gristTarget (gcfg e) (spareCfg e) la with
  | .hold _ => true
  | .at _ => false

/-- R394: the target channel of a line. -/
def targetCh (e : Engine) (la : Nat) : Nat := (lineLoc e la).ch

end Sys2Proof.Machine
end

