-- ==== Sys2Proof/Machine/Prot.lean ====
section
/-! DEFINITION. The protection table as the request path reads it (R314–R317): regions, rights, and
the versions that requests are bound to. -/

namespace Sys2Proof.Machine

def noProt : ProtBank := ⟨[], []⟩

/-- The current version (R317). -/
def curVer (e : Engine) : Nat := rd e CRY_PT_VER_VER

/-- The bank of a version: every commit moves to the other bank. -/
def bankOf (e : Engine) (ver : Nat) : ProtBank := nth e.sec.banks (ver % 2) noProt

/-- A region covers the page of a line. -/
def covers (r : Region) (la : Nat) : Bool := decide (r.base ≤ la / 64) && decide (la / 64 ≤ r.limit)

/-- The entry and the region of a line under a version. -/
def regionAt (e : Engine) (ver la : Nat) : Option (Nat × Region) :=
  (bankOf e ver).regions.find? fun p => covers p.2 la

def regionOf (e : Engine) (ver la : Nat) : Option Region := (regionAt e ver la).map (·.2)

/-- Unassigned memory: Confidential under CTX 0, without pairs (R15). -/
def unassigned : Region := ⟨0, 0, 0, 1, false, false, false, 0, 0, 0⟩

/-- The 2-bit right of an agent in a set: 0b10 is treated as none. -/
def rightOf (b : ProtBank) (set agent : Nat) : Nat :=
  let v := tget 0 b.rights (4096 * set + agent)
  if v = 2 then 0 else v

/-- The protection mode of a line under a version: 0 Open, 1 Confidential, 2 Authenticated, 3 Fresh; unassigned memory
is Confidential under CTX 0 (R15). -/
def modeAt (e : Engine) (ver la : Nat) : Nat :=
  match regionOf e ver la with
  | some r => r.mode
  | none => 1

/-- The line lies in an HDM-DB region. -/
def isHdmDb (e : Engine) (la : Nat) : Bool :=
  match regionOf e (curVer e) la with
  | some r => r.hdmDb
  | none => false

/-- Changes the region of an entry in every bank that holds it: PAIRS_SEEN and PACK are the region's, and no version
has its own (R291, R293). -/
def mapRegion (e : Engine) (k base : Nat) (f : Region → Region) : Engine :=
  { e with sec := { e.sec with banks := e.sec.banks.map fun b =>
    { b with regions := b.regions.map fun p => if p.1 = k ∧ p.2.base = base then (p.1, f p.2) else p } } }

end Sys2Proof.Machine
end

