-- ==== Sys2Proof/Machine/Chan.lean ====
section
/-! DEFINITION. A channel's back end as data: its queues and their occupancy registers, banks, ranks,
and the lookups of R17 and R139. -/

namespace Sys2Proof.Machine

/-! ## Banks, ranks, subchannels -/

def bankReset : Bank := ⟨none, 2, 0, [], 0, false, 0⟩
def drainReset : Drain := ⟨none, none, 0, false, 0⟩
def subReset : SubCh := ⟨drainReset, [], 0, [none, none, none, none]⟩
def prankReset : PRank := ⟨0, 0, 0, 0, 0, false, false, none, false, false, false, [0, 0]⟩
def arbReset : Arb := ⟨[none, none], none, none, 0, none, 0, 0, false, false, false⟩
def trainReset : Train :=
  { units := 0, steps := 0, pranks := 0, slice := none, gapUntil := 0, began := 0, ended := 0, temp := 0
    pendSteps := 0, fails := [], rerun := false, failed := [], stop := none, retries := [], redo := none, save := []
    drift := 0, track := none, acc := [], shift := [], trained := [], probe := [], ticket := none, offline := false }
def i3cReset : I3c := ⟨[], 4, []⟩

def chanReset : Chan :=
  { rq := [], wq := [], replay := [], seq := 0, capWait := none, subs := [subReset, subReset]
    banks := [], pranks := [prankReset, prankReset, prankReset, prankReset], arb := arbReset
    alerts := [], rcd := [⟨false, 0⟩, ⟨false, 0⟩], replayLog := [], maintLog := [], parity := [], train := trainReset, ecc := []
    eccOvf := false, win := [], winAt := 0, rowErr := [], ueErr := [], rereads := [], missed := [], pass := [], patrolAt := 0, scrubAt := 0
    ecsAt := 0, ecsWant := false, repair := none, copyAt := 0, hubs := [], mr4 := [], pollAt := 0, coolAt := none, mrrWant := false, crit := false, busy := 0
    busyAt := 0, i3c := i3cReset, tickBase := 0, rgMode := 0, spdProt := [false, false], ownFault := false }

def getChan (e : Engine) (n : Nat) : Chan := tget chanReset e.chans n

/-- A bit as a number. -/
def bit (b : Bool) : Nat := if b then 1 else 0

/-- A channel replaced, with CH_SCHED_OCC and WQ_PEAK following its queues (R169). -/
def putChan (e : Engine) (n : Nat) (c : Chan) : Engine :=
  let old := getChan e n
  let e := { e with chans := tput chanReset e.chans n c }
  let drains := c.subs.map fun s => bit s.drain.kind.isSome
  if c.rq.length = old.rq.length ∧ c.wq.length = old.wq.length ∧
      drains = old.subs.map (fun s => bit s.drain.kind.isSome) then e
  else
    let e := setReg e (CH_SCHED_OCC n) (setFields (reg e (CH_SCHED_OCC n))
      [(CH_SCHED_OCC_RQ_OCC n, c.rq.length), (CH_SCHED_OCC_WQ_OCC n, c.wq.length),
       (CH_SCHED_OCC_DRAIN_A n, nth drains 0 0), (CH_SCHED_OCC_DRAIN_B n, nth drains 1 0)])
    let e := sqSet e (CH_SCHED_STATUS n)
      [(CH_SCHED_STATUS_WQ_PEAK n, max (rd e (CH_SCHED_STATUS_WQ_PEAK n)) c.wq.length)]
    let e := if c.wq.length ≥ 192 then sqSet e (CH_SCHED_STATUS n) [(CH_SCHED_STATUS_WQ_FULL n, 1)] else e
    if c.rq.length ≥ 248 then sqSet e (CH_SCHED_STATUS n) [(CH_SCHED_STATUS_RQ_FULL n, 1)] else e

/-- Read-queue entries in use. -/
def rqOcc (e : Engine) (n : Nat) : Nat := (getChan e n).rq.length

/-- Write-queue entries in use. -/
def wqOcc (e : Engine) (n : Nat) : Nat := (getChan e n).wq.length

/-- Pair-table entries of a channel in use. -/
def pairOcc (e : Engine) (n : Nat) : Nat := (e.pack.pairs.filter fun p => p.ch == n).length

def getBank (c : Chan) (k : Nat) : Bank := tget bankReset c.banks k
def putBank (c : Chan) (k : Nat) (b : Bank) : Chan := { c with banks := tput bankReset c.banks k b }

def getPRank (c : Chan) (i : Nat) : PRank := nth c.pranks i prankReset
def putPRank (c : Chan) (i : Nat) (r : PRank) : Chan := { c with pranks := setNth c.pranks i r }

def getSub (c : Chan) (s : Nat) : SubCh := nth c.subs s subReset
def putSub (c : Chan) (s : Nat) (v : SubCh) : Chan := { c with subs := setNth c.subs s v }

/-- The channel's flags take bits. -/
def chFlag (e : Engine) (a : Nat) (fs : List (Fld × Nat)) : Engine := sqSet e a fs

/-- Log2 of the logical ranks of a physical rank. -/
def cidBits (e : Engine) : Nat := rd e GC_GRIST_CTRL_CID_BITS

/-- The physical rank of a RANK value (R100). -/
def prankIx (e : Engine) (rank : Nat) : Nat := rank / 2 ^ cidBits e

/-- The physical ranks of a channel. -/
def pranks (e : Engine) : Nat := prankCount (gcfg e)

/-- The bank of a location, as the location names it. -/
def bankAt (c : Chan) (l : Loc) : Bank := getBank c (bankKey l)

/-- Two locations name one slot. -/
def sameSlot (a b : Loc) : Bool := decide (a = b)

/-! ## The write queue (R17, R139) -/

/-- The queued write or replay write of a slot; the queue's entry supersedes a replay write (R241). -/
def findWrite (c : Chan) (l : Loc) : Option WqEntry :=
  match c.wq.find? fun w => sameSlot w.loc l with
  | some w => some w
  | none => c.replay.find? fun w => sameSlot w.loc l

/-- Rows of a bank that the write queue addresses. -/
def bankRows (c : Chan) (l : Loc) : List Nat :=
  ((c.wq.filter fun w => bankKey w.loc == bankKey l).map (·.loc.row)).eraseDups

/-- R142: whether new writes at these locations keep within BANK_MAX. -/
def bankRoom (c : Chan) (bankMax : Nat) (ls : List Loc) : Bool :=
  ls.all fun l =>
    let news := ((ls.filter fun m => bankKey m == bankKey l).map (·.row)).eraseDups
    let rows := bankRows c l
    decide (((rows ++ news).eraseDups).length ≤ max bankMax rows.length)

/-- The CTL cycle in which an entry addresses its rank, which ends an opportunistic refresh (R198). -/
def touchRank (e : Engine) (c : Chan) (rank : Nat) : Chan :=
  let i := prankIx e rank
  putPRank c i { getPRank c i with lastUse := e.clk.cyc, opp := false }

/-- The line address of a write that completes no request: a write-back or a repair. It lies beyond every
line. -/
def noLine : Nat := 2 ^ 38

/-- R139, R264: a slot enters the write queue: it replaces the entry of its slot, which keeps its place
and age, or takes a new entry. A waiting write-back or reread write of the slot is cancelled. -/
def pushWrite (e : Engine) (c : Chan) (cls : Option Nat) (upd : Option (Nat × Nat)) (pair : Bool) (la : Nat) (l : Loc)
    (s : Slot) (age : Nat) : Chan :=
  let c := touchRank e c l.rank
  let c := { c with
    rereads := c.rereads.map (fun (r : Reread) => if sameSlot r.loc l then { r with cancelled := true } else r),
    rq := c.rq.map (fun (r : RqEntry) => if r.issued.isSome ∧ sameSlot r.loc l then { r with newer := true } else r),
    replay := c.replay.filter (fun w => !sameSlot w.loc l) }
  if c.wq.any fun w => sameSlot w.loc l then
    { c with wq := c.wq.map fun (w : WqEntry) => if sameSlot w.loc l then { w with cls := cls, upd := upd, pair := pair, la := la, slot := s } else w }
  else
    { c with seq := c.seq + 1, wq := c.wq ++ [⟨c.seq, cls, upd, pair, la, l, s, age, false⟩] }

/-- A slot that joins the read queue of its channel. -/
def pushRead (e : Engine) (c : Chan) (cls : Option Nat) (u : Use) (la : Nat) (l : Loc) (age pri : Nat) (promo : Bool) : Chan :=
  let c := touchRank e c l.rank
  { c with
    seq := c.seq + 1,
    rq := c.rq ++ [⟨c.seq, [u], cls, la, l, age, pri, e.clk.cyc, promo, false, none, false, false, 0, false⟩] }

/-- A read of the engine that enters promoted, with PRI 7: it counts as a read entry promoted (R146, R165). -/
def pushPromoted (e : Engine) (n : Nat) (cls : Option Nat) (u : Use) (la : Nat) (l : Loc) (age : Nat) : Engine :=
  addF (putChan e n (pushRead e (getChan e n) cls u la l age 7 true)) (CH_CNT_PROMO_VALUE n) 1

/-- The channel takes entries into its queues (R166). -/
def intakeOn (e : Engine) (n : Nat) : Bool := on e (CH_SCHED_CTRL_SCHED_EN n)

/-! ## Rejected writes (R569) -/

/-- ADDR of a rejection: bits 19:2 of the offset within the region, or 15:2 within the channel's. -/
def rejectAddr (a : Nat) : Nat :=
  if a / 0x100000 = 1 then a % 0x10000 / 4 else a % 0x100000 / 4

def isInternal (p : RegPort) : Bool := p != .ext

/-- A rejection enters the CFG_REJECT register at `r`: the first one is recorded, a further one sets MULTI. -/
def rejectIn (e : Engine) (r : Nat) (p : RegPort) (a cause : Nat) : Engine :=
  if e.dbg.rejHeld.contains r then sqSet e r [(⟨r, 20, 20⟩, 1)]
  else
    let e := sqSet e r [(⟨r, 23, 22⟩, cause), (⟨r, 21, 21⟩, bit (isInternal p)), (⟨r, 17, 0⟩, rejectAddr a)]
    { e with dbg := { e.dbg with rejHeld := r :: e.dbg.rejHeld } }

end Sys2Proof.Machine
end

