-- ==== Sys2Proof/Machine/Ports.lean ====
section
/-! DEFINITION. Transactions, the ports' outbound queues and credits (R86–R93), and the responses
that the engine forms (R45, R82–R84). -/

namespace Sys2Proof.Machine

/-! ## Transactions -/

/-- The transaction of an identity. -/
def getTxn (e : Engine) (id : Nat) : Option Txn := e.txns.find? fun t => t.id == id

/-- A transaction replaced by identity. -/
def putTxn (e : Engine) (t : Txn) : Engine :=
  { e with txns := e.txns.map fun u => if u.id = t.id then t else u }

/-- A transaction ended. -/
def delTxn (e : Engine) (id : Nat) : Engine :=
  { e with txns := e.txns.filter fun u => u.id != id }

/-- The transactions that stand before one in the list. A transaction moves to the end of the list as it enters
the QoS stage, so that the list has those of one line in the order in which they left the directory stage (R22). -/
def txnsBefore (e : Engine) (id : Nat) : List Txn := e.txns.takeWhile fun u => u.id != id

def isClass3 : ReqOp → Bool
  | .memWr | .memWrPtl | .placeWr => false
  | _ => true

/-- MemRd and MemRdData: the reads of R84. -/
def isRead : ReqOp → Bool
  | .memRd | .memRdData => true
  | _ => false

/-! ## The engine's own writes (R270) -/

/-- The request of an engine write that poisons a line. -/
def poisonReq (la : Nat) : Req :=
  ⟨.memWr, 0, 0, 0, 0, la, 0, none, 0, true, BitVec.allOnes 64, 0, 0⟩

/-- The engine's own write, under a version of the table: it joins the write queue of its channel's QoS stage, so that it
keeps its place against the other requests of the line. -/
def engineWrite (e : Engine) (ver : Nat) (r : Req) : Engine :=
  let ch := targetCh e r.la
  let t : Txn :=
    { id := e.nextId, req := r, commit := e.clk.tb, ver := ver, stage := .qos
      ott := none, cacheless := false, grant := 0, deadline := none, onG := false, excess := false, ahead := false
      ch := ch, pri := 0, credited := true, done := false, eng := true, packed := none, snap := none }
  let q := e.qos
  { e with
    txns := e.txns ++ [t],
    nextId := e.nextId + 1,
    qos := { q with writes := tput [] q.writes ch (tget [] q.writes ch ++ [t.id]) } }

/-- A line is to be written as poisoned. -/
def poisonLine (e : Engine) (la : Nat) : Engine := engineWrite e (curVer e) (poisonReq la)

/-! ## Ports -/

def portReset : Port := ⟨[0, 0, 0, 0], [0, 0, 0, 0], [0, 0, 0, 0], [], 0, none, false, none, [0, 0, 0, 0], []⟩

def getPort (e : Engine) (p : Nat) : Port := tget portReset e.ports p
def putPort (e : Engine) (p : Nat) (v : Port) : Engine :=
  { e with ports := tput portReset e.ports p v }

/-- A bit of a per-port register bank of four words. -/
def portBit (e : Engine) (f : Nat → Fld) (p : Nat) : Bool :=
  (reg e (f (p / 32)).addr).getLsbD (p % 32)

/-- R86: GC_PORT_MASK enables the port. -/
def portEnabled (e : Engine) (p : Nat) : Bool := portBit e GC_PORT_MASK_MASK p

/-- Every class 3 FIFO is empty. -/
def fifosEmpty (e : Engine) : Bool := e.ports.all fun p => p.2.fifo3.isEmpty

/-- A packet joins its port's outbound arbiter, complete (R91). -/
def sendPkt (e : Engine) (p : Nat) (k : OutPkt) : Engine :=
  let v := getPort e p
  putPort e p { v with outq := v.outq ++ [k] }

/-- One credit of a class becomes due at a port (R87). -/
def creditDue (e : Engine) (p c : Nat) : Engine :=
  let v := getPort e p
  putPort e p { v with due := setNth v.due c (nth v.due c 0 + 1) }

/-! ## Responses -/

/-- The DEVLOAD code of a read-queue occupancy (R45). -/
def devloadOf (occ : Nat) : Nat :=
  if occ < 128 then 0 else if occ < 208 then 1 else if occ < 240 then 2 else 3

/-- The channels set in QOS_SERVICE. -/
def serviceChans (e : Engine) : List Nat :=
  (List.range 16).filter fun n => (reg e QOS_SERVICE).getLsbD n

/-- R45: DEVLOAD of a response of class `qc`, from channel `ch`, or from the fullest channel. -/
def devload (e : Engine) (qc : Nat) (ch : Option Nat) : Nat :=
  if (rd e QOS_DEGRADED_ACTIVE / 2 ^ qc) % 2 = 1 then 3
  else match ch with
    | some n => devloadOf (rqOcc e n)
    | none => devloadOf ((serviceChans e).foldl (fun m n => max m (rqOcc e n)) 0)

/-- A response to a request: opcode, error, poison, grant, data. -/
def mkResp (e : Engine) (r : Req) (op : Nat) (err : Option Nat) (poison : Bool) (grant : Nat)
    (data : Line) (ch : Option Nat) (txn : Option Nat) : OutPkt :=
  { cls := 0, op := op, agent := r.agent, tag := r.tag, bitag := 0, la := 0,
    devload := if err = some 2 then 3 else devload e r.qc ch,
    err := err, poison := poison, grant := grant, data := data, txn := txn, qc := r.qc }

/-- The opcode of a response without data to a request: Cmp, or MemData-NXM for a read (R83, R84). -/
def errOp (op : ReqOp) : Nat := if isRead op then 0x44 else 0x40

/-- R84: an error answer with an ERRCODE. -/
def errResp (e : Engine) (r : Req) (code : Nat) (txn : Option Nat) : OutPkt :=
  mkResp e r (errOp r.op) (some code) false 0 0 none txn

/-- A transaction's response is formed: it enters its port's arbiter. -/
def formResp (e : Engine) (t : Txn) (k : OutPkt) : Engine :=
  sendPkt (putTxn e { t with stage := .formed }) t.req.port k

/-- Cmp, Cmp-S or Cmp-E to an invalidation, by the state that the requester is left in (R83). -/
def formCmp (e : Engine) (t : Txn) (grant : Nat) : Engine :=
  formResp e t (mkResp e t.req (0x40 + grant) none false 0 0 none (some t.id))

/-! ## Credits (R86–R90) -/

/-- The allotment of a class (R95). -/
def allotOf (e : Engine) : Nat → Nat
  | 0 => rd e GC_ING_CTRL_C0_ALLOT
  | 1 => rd e GC_ING_CTRL_C1_ALLOT
  | 3 => rd e GC_ING_CTRL_C3_ALLOT
  | _ => 0

/-- R86: a port is pulsed what brings its sender to the allotment. -/
def issuePort (e : Engine) (p : Nat) : Engine :=
  let v := getPort e p
  let h := (List.range 4).map fun c => max (nth v.held c 0) (allotOf e c)
  let pulses := (List.range 4).map fun c => allotOf e c - nth v.held c 0
  putPort e p { v with held := h, due := [0, 0, 0, 0], recallAt := none, stopped := false, lastCred := pulses }

/-- R86: the allotments are issued or reissued on every enabled port. -/
def issueAllotments (e : Engine) : Engine :=
  (List.range 128).foldl (fun e p => if portEnabled e p then issuePort e p else e) e

/-- Source 0x02 raises a contained fault that names the port, and GC_ING_STATUS takes the flag (R96). -/
def ingressFault (e : Engine) (p : Nat) (f : Fld) : Engine :=
  let e := sqSet e GC_ING_STATUS [(f, 1), (GC_ING_STATUS_PORT, p)]
  raise e 0x02 .contained (synOf f.lo p)

end Sys2Proof.Machine
end

