-- ==== Sys2Proof/Machine/Directory.lean ====
section
/-! DEFINITION. The coherence directory (R344–R367) and its protocol (R371–R389): sets, holders,
allocation, snoops, requests, writes and walks. -/

namespace Sys2Proof.Machine

/-! ## Sets and ways (R344, R345) -/

/-- The set of a line address (R344). -/
def setOf (la : Nat) : Nat := (la % 2 ^ 18) ^^^ (la / 2 ^ 18 % 2 ^ 18)

/-- The tag of a line address (R344). -/
def tagOf (la : Nat) : Nat := la / 2 ^ 18 % 2 ^ 20

/-- The line address of a set and a tag (R344). -/
def lineOf (set tag : Nat) : Nat := tag * 2 ^ 18 + (set ^^^ tag % 2 ^ 18)

def noSet : DSet := ⟨[], 0⟩

def getSet (e : Engine) (s : Nat) : DSet := tget noSet e.dir.sets s
def putSet (e : Engine) (s : Nat) (d : DSet) : Engine :=
  { e with dir := { e.dir with sets := tput noSet e.dir.sets s d } }

/-- Shadow mode (R345). -/
def shadow (e : Engine) : Bool := on e DIR_CTRL_MODE

/-- Ways, or pair slots, of a set. -/
def slotCount (e : Engine) : Nat := if shadow e then 32 else 16

/-- A way that records nobody and is reserved for nobody is free, and is not kept. -/
def keepWay (w : Way) : Bool := !(w.holders.isEmpty && w.resv.isEmpty)

/-- The ways of a line in its set. -/
def waysOf (e : Engine) (la : Nat) : List Way :=
  (getSet e (setOf la)).ways.filter fun w => w.tag == tagOf la

/-- The holders of a line (R345). -/
def holdersOf (e : Engine) (la : Nat) : List Holder := (waysOf e la).flatMap (·.holders)

/-- The holder in M, if any. -/
def mHolder (e : Engine) (la : Nat) : Option Holder := (holdersOf e la).find? (·.m)

/-- An agent's record of a line. -/
def holderOf (e : Engine) (la a : Nat) : Option Holder :=
  (holdersOf e la).find? fun h => h.agent == a

/-- Rewrites the ways of a line, dropping those that become free. -/
def mapWays (e : Engine) (la : Nat) (f : Way → Way) : Engine :=
  let s := setOf la
  let d := getSet e s
  putSet e s { d with ways :=
    (d.ways.map fun w => if w.tag = tagOf la then f w else w).filter keepWay }

/-- The agent holds the line in M: in the array, or in the victim buffer (R355, R377). -/
def holdsM (e : Engine) (la a : Nat) : Bool :=
  (match holderOf e la a with | some h => h.m | none => false) ||
    e.dir.victims.any fun v => v.la == la && v.holders.any fun h => h.agent == a && h.m

/-- Drops an agent's record of a line. -/
def dropHolder (e : Engine) (la a : Nat) : Engine :=
  mapWays e la fun w => { w with holders := w.holders.filter fun h => h.agent != a }

/-! ## Enrollment (R350–R352) -/

def noEnroll : Enroll := ⟨false, false, false, 0, 0, 0⟩

def getEnroll (e : Engine) (a : Nat) : Enroll := tget noEnroll e.dir.enroll a
def putEnroll (e : Engine) (a : Nat) (v : Enroll) : Engine :=
  { e with dir := { e.dir with enroll := tput noEnroll e.dir.enroll a v } }

/-- The agent is enrolled and this is its port (R351, R352). -/
def enrolledOn (e : Engine) (a p : Nat) : Bool :=
  let n := getEnroll e a
  n.enrolled && n.port == p

/-! ## Replacement (R354) -/

/-- Tree pseudo-LRU over `2 ^ k` leaves below node `n`: every node on the path points away from `i`. -/
def plruTouch : Nat → Nat → Nat → Nat → Nat
  | 0, _, _, bits => bits
  | k + 1, n, i, bits =>
    let right := i / 2 ^ k % 2
    let bits := if right = 1 then bits - bits / 2 ^ n % 2 * 2 ^ n
      else bits - bits / 2 ^ n % 2 * 2 ^ n + 2 ^ n
    plruTouch k (2 * n + right) i bits

/-- The candidate that the tree points at, turning aside where a subtree holds no candidate. -/
def plruPick : Nat → Nat → Nat → Nat → List Nat → Option Nat
  | 0, _, base, _, cand => if base ∈ cand then some base else none
  | k + 1, n, base, bits, cand =>
    let right := bits / 2 ^ n % 2
    let go := fun r => plruPick k (2 * n + r) (base + r * 2 ^ k) bits cand
    match go right with
    | some i => some i
    | none => go (1 - right)

/-- Levels of the tree: 16 ways or 32 slots. -/
def plruDepth (e : Engine) : Nat := if shadow e then 5 else 4

/-- A use of a way moves the set's tree away from it. -/
def touchWay (e : Engine) (la i : Nat) : Engine :=
  let s := setOf la
  let d := getSet e s
  putSet e s { d with plru := plruTouch (plruDepth e) 1 i d.plru }

/-! ## Pinning (R347, R373) -/

/-- The line is named by an OTT entry or a victim-buffer entry: it is in a transient state. -/
def transient (e : Engine) (la : Nat) : Bool :=
  (e.txns.any fun t => t.ott.isSome && t.req.la == la) || (e.dir.victims.any fun v => v.la == la) ||
    e.dir.evicts.contains la

/-- R357: LINE_BUSY for a request, which may itself be in the buffer. -/
def lineBusy (e : Engine) (t : Txn) : Bool :=
  transient e t.req.la ||
    (e.txns.any fun u => u.id != t.id && (u.id < t.id && u.req.la == t.req.la) &&
      match u.stage with | .retry _ => true | _ => false)

/-- Entries of the retry buffer. -/
def retryOcc (e : Engine) : Nat :=
  (e.txns.filter fun t => match t.stage with | .retry _ => true | _ => false).length

/-- Entries of the OTT (R346): transactions, held writes and unenroll snoops. -/
def ottOcc (e : Engine) : Nat :=
  (e.txns.filter fun t => t.ott.isSome || t.stage == .held).length + e.dir.evicts.length

/-- Class 0 OTT entries in use on a port (R379). -/
def class0Entries (e : Engine) (p : Nat) : Nat :=
  (e.txns.filter fun t => !isClass3 t.req.op && t.req.port == p &&
    (t.ott.isSome || t.stage == .held)).length

/-! ## Errors in ways (R365) -/

/-- R365: an error in a way that the lookup reads. -/
def wayError (e : Engine) (la : Nat) (w : WayErr) : Engine :=
  match w with
  | .clean => e
  | .ce =>
    let e := sqSet (inc e DIR_CNT_ECC_CE) DIR_STATUS [(DIR_STATUS_ECC_CE, 1)]
    raise e 0x07 .corrected (synOf DIR_STATUS_ECC_CE.lo (setOf la))
  | .ue =>
    reportFault (sqSet e DIR_STATUS [(DIR_STATUS_ECC_UE, 1)]) 0x07 .fatal false
      (synOf DIR_STATUS_ECC_UE.lo (setOf la)) 3

/-- R365: a lookup of a line's set whose way errors no command names: the ways show a free value. Answers whether the
error is uncorrectable. -/
def wayMet (e : Engine) (la : Nat) : Engine × Bool :=
  let w := Config.wayRead e.free
  (wayError (drawFree e) la w, w == .ue)

/-! ## Snoops (R360, R384) -/

/-- Outstanding snoops that hold a BITAG. -/
def tagged (e : Engine) : List Snoop := e.dir.snoops.filter (·.tag.isSome)

/-- R360: a free BITAG; which one is not stated. -/
def freeTag (e : Engine) : Option Nat :=
  let used := (tagged e).filterMap (·.tag)
  let start := Config.choice e.free % 4096
  ((List.range 4096).map fun i => (start + i) % 4096).find? fun g => !used.contains g

/-- The snoop packet of a line (R82, R83). -/
def snoopPkt (e : Engine) (s : Snoop) (tag : Nat) : Engine :=
  sendPkt e (getEnroll e s.agent).port
    { cls := 2, op := if s.inv then 0x50 else 0x51, agent := s.agent, tag := 0, bitag := tag,
      la := s.la, devload := 0, err := none, poison := false, grant := 0, data := 0, txn := none,
      qc := 0 }

/-- R360: a snoop takes a BITAG, its timer starts, and its packet is formed; without a free BITAG it waits. -/
def tagSnoop (e : Engine) (s : Snoop) : Engine × Snoop :=
  match freeTag e with
  | some g => (snoopPkt (drawFree e) s g, { s with tag := some g, since := e.clk.nominal })
  | none => (e, s)

/-- The directory forms a snoop to a holder (R360). -/
def formSnoop (e : Engine) (la a : Nat) (inv : Bool) (o : SnpOwner) : Engine :=
  let e := inc e DIR_CNT_BISNP
  let (e, s) := tagSnoop e ⟨none, la, a, inv, o, e.clk.nominal, usUnits (rd e DIR_BI_TIMEOUT_TIMEOUT_US)⟩
  { e with dir := { e.dir with snoops := e.dir.snoops ++ [s] } }

/-- R360: the first snoop that waits for a BITAG takes one that has become free. -/
def tagWaiting (e : Engine) : List Snoop → Engine
  | [] => e
  | s :: rest =>
    match s.tag with
    | some _ => tagWaiting e rest
    | none =>
      let (e', s') := tagSnoop e s
      { e' with dir := { e'.dir with snoops := e'.dir.snoops.map fun u => if u = s then s' else u } }

/-- Whether a transaction, or a victim or unenroll entry of a line, still waits for an answer. -/
def waiting (e : Engine) (o : SnpOwner) (la : Nat) : Bool :=
  e.dir.snoops.any fun s => s.owner == o && (s.la == la)

/-! ## Towards memory -/

/-- R22: `u`, of the same line and still in the QoS stage, comes after `t` in the ingress order: by age stamp, on equal
stamps the lower port first. -/
def ingressAfter (t u : Txn) : Bool :=
  u.stage == .qos && !u.eng && u.req.la == t.req.la &&
    (decide (t.commit < u.commit) || (t.commit == u.commit && decide (t.req.port < u.req.port)))

/-- An identity placed before the first of some others, or at the end. -/
def insertBefore (after : List Nat) (id : Nat) : List Nat → List Nat
  | [] => [id]
  | x :: xs => if after.contains x then id :: x :: xs else x :: insertBefore after id xs

/-- A transaction placed before the first of some others, or at the end. -/
def insertTxn (after : List Nat) (t : Txn) : List Txn → List Txn
  | [] => [t]
  | u :: us => if after.contains u.id then t :: u :: us else u :: insertTxn after t us

/-- R393, R394, R396: a transaction enters the QoS stage, in its class's hold queue or its channel's
write queue, with its deadline. Requests of one line of an HDM-H region stand in the ingress order (R22). -/
def toQos (e : Engine) (t : Txn) : Engine :=
  let ch := targetCh e t.req.la
  let tgt := wordField (tget (resetOf (QOS_TGT t.req.qc)) e.qos.active (QOS_TGT t.req.qc)) 15 0
  let d := match t.req.dl with
    | some n => some (t.commit + n * 10 * nsUnit)
    | none => if tgt ≠ 0 then some (t.commit + tgt * 10 * nsUnit) else none
  let t := { t with stage := .qos, ch := ch, deadline := d }
  let e := delTxn e t.id
  let after := if isHdmDb e t.req.la then [] else (e.txns.filter (ingressAfter t)).map (·.id)
  let put := insertBefore after t.id
  let q := e.qos
  let e := { e with txns := insertTxn after t e.txns }
  if isClass3 t.req.op then
    let k := 16 * t.req.qc + ch
    { e with qos := { q with hold := tput [] q.hold k (put (tget [] q.hold k)) } }
  else
    { e with qos := { q with writes := tput [] q.writes ch (put (tget [] q.writes ch)) } }

/-! ## Reclaim of dead and reset agents (R361–R364) -/

/-- R364: a poisoned line enters the poison log. -/
def logPoison (e : Engine) (la a : Nat) (byReset : Bool) : Engine :=
  let d := e.dir
  if d.log.length < 256 then
    { e with dir := { d with log := d.log ++ [⟨tbNs e, byReset, d.logOvf, a, la⟩], logOvf := false } }
  else
    sqSet { e with dir := { d with logOvf := true } } DIR_STATUS [(DIR_STATUS_LOG_OVF, 1)]

/-- A record of a dead or reset agent is dropped; a line held in M is written as poisoned. -/
def poisonHeld (e : Engine) (byReset : Bool) (la : Nat) (h : Holder) : Engine :=
  let e := dropHolder e la h.agent
  if h.m then logPoison (poisonLine e la) la h.agent byReset else e

/-- R361, R368: the reclaim of a walk, which counts the lines that it poisons. -/
def reclaimLine (e : Engine) (byReset : Bool) (la : Nat) (h : Holder) : Engine :=
  let e := poisonHeld e byReset la h
  if h.m then
    let e := inc e DIR_CNT_POISON
    { e with dir := { e.dir with walks := e.dir.walks.map fun w =>
        if w.agent = h.agent ∧ ¬ w.unenroll then { w with poisoned := w.poisoned + 1 } else w } }
  else e

/-- A record made before the agent's last reset or death. -/
def stale (e : Engine) (h : Holder) : Bool := decide (h.gen < (getEnroll e h.agent).gen)

/-- R361: the cause that a walk of the agent gives its poison records. -/
def walkByReset (e : Engine) (a : Nat) : Bool :=
  match e.dir.walks.find? fun w => w.agent == a && !w.unenroll with
  | some w => w.byReset
  | none => false

/-- R361, R363: a lookup applies the reclaim to stale records of its line first. -/
def reclaimAt (e : Engine) (la : Nat) : Engine :=
  ((holdersOf e la).filter (stale e)).foldl
    (fun e h => reclaimLine e (walkByReset e h.agent) la h) e

/-- The line of a way. -/
def wayLine (s : Nat) (w : Way) : Nat := lineOf s w.tag

/-- R361, R363: a lookup that would choose a victim in a full set applies the reclaim to every stale record of the set
first. -/
def reclaimFull (e : Engine) (la : Nat) : Engine :=
  let s := setOf la
  if (getSet e s).ways.length < slotCount e then e else ((getSet e s).ways.map (wayLine s)).foldl reclaimAt e

/-! ## Allocation (R348, R354, R356) -/

/-- The outcome of an allocation. -/
inductive Alloc where
  | ok (e : Engine) | pinned | victimFull | wide

/-- R354 step 2: the victim of a set for a request of line `la`; the OTT entry of the request pins its own line (R347). -/
def pickVictim (e : Engine) (s la : Nat) : Option Way :=
  let d := getSet e s
  let ok := d.ways.filter fun w => !transient e (wayLine s w) && w.resv.isEmpty && wayLine s w != la
  let sWays := ok.filter fun w => w.holders.all fun h => !h.m
  let cand := (if sWays.isEmpty then ok else sWays).map (·.idx)
  match plruPick (plruDepth e) 1 0 d.plru cand with
  | some i => ok.find? fun w => w.idx == i
  | none => none

/-- R355: a way's line moves to the victim buffer, and each holder is snooped. -/
def evictWay (e : Engine) (s : Nat) (w : Way) : Engine :=
  let d := getSet e s
  let e := putSet e s { d with ways := d.ways.filter fun u => u.idx != w.idx }
  let la := wayLine s w
  let e := { e with dir := { e.dir with victims := e.dir.victims ++ [⟨la, w.holders⟩] } }
  let e := inc e DIR_CNT_EVICT
  w.holders.foldl (fun e h => formSnoop e la h.agent true .victim) e

/-- A way added in index order. -/
def insertWay (w : Way) : List Way → List Way
  | [] => [w]
  | u :: us => if w.idx < u.idx then w :: u :: us else u :: insertWay w us

/-- R354: a way or slot for an agent's copy of a line, reserved until the holder is recorded. -/
def allocate (e : Engine) (la a : Nat) : Alloc :=
  let s := setOf la
  let lw := waysOf e la
  let have1 := if shadow e
    then lw.find? fun w => w.holders.any (·.agent == a) || w.resv.contains a
    else lw.head?
  match have1 with
  | some w =>
    let e := mapWays e la fun u =>
      if u.idx = w.idx ∧ ¬ u.resv.contains a then { u with resv := a :: u.resv } else u
    .ok (touchWay e la w.idx)
  | none =>
    if shadow e ∧ lw.length ≥ 32 then .wide
    else
      let place := fun (e : Engine) (i : Nat) =>
        let d := getSet e s
        touchWay (putSet e s { d with ways := insertWay ⟨i, tagOf la, [], [a]⟩ d.ways }) la i
      let used := (getSet e s).ways.map (·.idx)
      match (List.range (slotCount e)).find? fun i => !used.contains i with
      | some i => .ok (place e i)
      | none =>
        match pickVictim e s la with
        | none => .pinned
        | some w =>
          if e.dir.victims.length ≥ 128 then .victimFull
          else .ok (place (evictWay e s w) w.idx)

/-- Gives back a reservation that no record will take. -/
def unreserve (e : Engine) (la a : Nat) : Engine :=
  mapWays e la fun w => { w with resv := w.resv.filter (· != a) }

/-- Records a reserved agent as a holder, or changes its record (R354, R375). A dead agent is recorded nowhere (R361). -/
def recordHolder (e : Engine) (la a : Nat) (m : Bool) : Engine :=
  let g := (getEnroll e a).gen
  if (getEnroll e a).dead then unreserve e la a
  else
  mapWays e la fun w =>
    if w.resv.contains a ∨ w.holders.any (·.agent == a) then
      { w with
        resv := w.resv.filter (· != a)
        holders := (w.holders.filter fun h => h.agent != a) ++ [⟨a, m, g⟩] }
    else w

/-! ## Transactions and snoop answers -/

/-- R362: while its agent is dead, a class 3 request is answered with ERR, and a class 0 write is discarded and answered
so. -/
def deadAnswer (e : Engine) (t : Txn) : Engine :=
  formResp (unreserve e t.req.la t.req.agent) { t with ott := none } (errResp e t.req 0 (some t.id))

/-- R375: a class 3 transaction goes on once no snoop is left: its requester is recorded and it reads
memory or is answered; a dead one is answered with ERR (R362). -/
def proceed3 (e : Engine) (t : Txn) : Engine :=
  let r := t.req
  if (getEnroll e r.agent).dead then deadAnswer e t
  else
  let e := if t.cacheless ∨ t.grant = 0 then e
    else recordHolder e r.la r.agent (t.grant == 2)
  let t := { t with ott := t.ott.map fun _ => .opened }
  let e := putTxn e t
  if isRead r.op then toQos e t else formCmp e t t.grant

/-- A class 0 transaction goes on once no snoop is left (R378, R381). -/
def proceed0 (e : Engine) (t : Txn) : Engine := toQos (putTxn e t) t

/-- R384: the transaction of a snoop goes on when its last snoop has ended; a victim-buffer or
eviction entry ends. -/
def snoopEnded (e : Engine) (o : SnpOwner) (la : Nat) : Engine :=
  match o with
  | .txn id =>
    if e.dir.snoops.any fun s => s.owner == o then e
    else match getTxn e id with
      | some t => if t.stage = .snoop then (if isClass3 t.req.op then proceed3 e t else proceed0 e t) else e
      | none => e
  | .victim =>
    if waiting e .victim la then e
    else { e with dir := { e.dir with victims := e.dir.victims.filter fun v => v.la != la } }
  | .unenroll =>
    if waiting e .unenroll la then e
    else { e with dir := { e.dir with evicts := e.dir.evicts.filter (· != la) } }

/-- Opens WI or WS: the snoops of a transaction are formed; with none to wait for it goes on at once. -/
def openSnoops (e : Engine) (t : Txn) (st : TState) (targets : List Nat) : Engine :=
  let t := { t with ott := some st, stage := .snoop }
  let e := putTxn e t
  let e := targets.foldl (fun e a => formSnoop e t.req.la a (st != .ws) (.txn t.id)) e
  if targets.isEmpty then (if isClass3 t.req.op then proceed3 e t else proceed0 e t) else e

/-- R357: a request enters the retry buffer. -/
def enterRetry (e : Engine) (t : Txn) (c : Cause) : Engine :=
  let e := inc (putTxn e { t with stage := .retry c, ott := none }) DIR_CNT_RETRY
  if retryOcc e ≥ 256 then sqSet e DIR_STATUS [(DIR_STATUS_RETRY_FULL, 1)] else e

/-- What R375 and R376 do with a request in a stable state: the grant, the holders to snoop, whether
the snoop is BISnpData, and whether the requester's own record is dropped. -/
structure Plan where
  grant : Nat
  snoop : List Nat
  data : Bool
  drop : Bool
  deriving DecidableEq, Repr

/-- R375, R376: the plan of a request against the holders of its line. -/
def planOf (op : ReqOp) (st agent : Nat) (cacheless : Bool) (hs : List Holder) : Plan :=
  let others := (hs.filter fun h => cacheless || h.agent != agent).map (·.agent)
  let mine := if cacheless then none else hs.find? fun h => h.agent == agent
  let m := hs.find? (·.m)
  let mineM := match mine with | some h => h.m | none => false
  let st := if cacheless ∧ st = 1 then 0 else st
  let share : Plan :=   -- a copy in S is wanted
    match m with
    | some h => if mineM then ⟨2, [], false, false⟩ else ⟨1, [h.agent], true, false⟩
    | none => ⟨1, [], false, false⟩
  let look : Plan :=    -- no copy is kept
    match m with
    | some h => if mineM then ⟨2, [], false, false⟩ else ⟨0, [h.agent], true, false⟩
    | none => if mine.isSome then ⟨1, [], false, false⟩ else ⟨0, [], false, false⟩
  let own : Plan := if mineM then ⟨2, [], false, false⟩ else ⟨2, others, false, false⟩
  match op with
  | .memRdData => if cacheless then look else if hs.isEmpty then ⟨2, [], false, false⟩ else share
  | .memRd =>
    if st = 0 then look
    else if st = 1 then share
    else if cacheless then ⟨0, others, false, false⟩ else own
  | .memInv | .memInvNT =>
    if st = 2 ∧ ¬ cacheless then own
    else if st = 1 then
      match m with
      | some h => if mineM then ⟨1, [], false, false⟩ else ⟨0, [h.agent], true, false⟩
      | none => if mine.isSome then ⟨1, [], false, false⟩ else ⟨0, [], false, false⟩
    else ⟨0, if mineM then [] else others, false, true⟩
  | _ => ⟨0, [], false, true⟩

/-- R375: whether the plan leaves the requester with a copy that needs a way or slot. -/
def needsWay (p : Plan) (mine : Bool) (op : ReqOp) : Bool :=
  p.grant != 0 && (!mine || p.grant == 2) && (op != .memClnEvct)

/-- R352: a request from an agent that is not enrolled at its lookup is served as that of a cacheless agent; each
request counts once. -/
def cachelessNow (e : Engine) (t : Txn) : Engine × Txn :=
  let cl := !enrolledOn e t.req.agent t.req.port
  (if cl && !t.cacheless then inc e DIR_CNT_UNENROLLED else e, { t with cacheless := cl })

/-- R375, R376, R348, R352, R357: the lookup of a class 3 request of an HDM-DB line, at its first or a repeated one. -/
def lookup3 (e : Engine) (t : Txn) : Engine :=
  let (e, t) := cachelessNow (inc e DIR_CNT_LOOKUP) t
  let la := t.req.la
  let e := reclaimAt e la
  if (getEnroll e t.req.agent).dead then deadAnswer e t
  else if lineBusy e t then enterRetry e t .lineBusy
  else
    let hs := holdersOf e la
    let mine := !t.cacheless && hs.any fun h => h.agent == t.req.agent
    let p := planOf t.req.op t.req.reqSt t.req.agent t.cacheless hs
    let run := fun (e : Engine) (t : Txn) (p : Plan) =>
      let e := if p.drop ∧ ¬ t.cacheless then dropHolder e la t.req.agent else e
      let t := { t with grant := p.grant }
      if p.snoop.isEmpty then
        proceed3 e { t with ott := some .opened, stage := .snoop }
      else openSnoops e t (if p.data then .ws else .wi) p.snoop
    if ¬ t.cacheless ∧ needsWay p mine t.req.op then
      let e := reclaimFull e la
      match allocate e la t.req.agent with
      | .ok e => run e t p
      | .pinned => enterRetry e t .setPinned
      | .victimFull => enterRetry e t .victimFull
      | .wide =>
        let e := sqSet (inc e DIR_CNT_WIDE) DIR_STATUS [(DIR_STATUS_WIDE, 1)]
        let t := { t with cacheless := true }
        run e t (planOf t.req.op t.req.reqSt t.req.agent true hs)
    else run e t p

/-- R356: a PlaceWr skips its push. -/
def skipPush (e : Engine) : Engine :=
  sqSet (inc e DIR_CNT_PUSH_SKIP) DIR_STATUS [(DIR_STATUS_PUSH_SKIP, 1)]

/-- R378, R381: a foreign write or PlaceWr that holds its port's entry is handled in a stable state. -/
def foreignWrite (e : Engine) (t : Txn) : Engine :=
  let la := t.req.la
  let e := dropHolder e la t.req.agent
  let hs := holdersOf e la
  openSnoops (inc e DIR_CNT_FWRITE) t .wi (hs.map (·.agent))

/-- R379: a foreign write or PlaceWr without a free entry is answered malformed. -/
def foreignCap (e : Engine) (t : Txn) : Engine :=
  let e := sqSet (inc e DIR_CNT_PROTO) DIR_PROTO_STATUS
    [(DIR_PROTO_STATUS_FW_CAP, 1), (DIR_PROTO_STATUS_PORT, t.req.port)]
  let e := formResp e t (errResp e t.req 1 (some t.id))
  raise e 0x03 .contained (synOf DIR_PROTO_STATUS_FW_CAP.lo t.req.port)

/-- A snoop to the agent for the line is outstanding (R377). -/
def snoopedFor (e : Engine) (la a : Nat) : Bool :=
  e.dir.snoops.any fun s => s.la == la && s.agent == a

/-- R377: the writer holds the line in M: its record is dropped unless a snoop to it is outstanding, and a PlaceWr skips
its push. -/
def ownerWrite (e : Engine) (t : Txn) : Engine :=
  let e := if snoopedFor e t.req.la t.req.agent then e else dropHolder e t.req.la t.req.agent
  toQos (if t.req.op = .placeWr then skipPush e else e) t

/-- R377–R381: the lookup of a class 0 write of an HDM-DB line. -/
def lookup0 (e : Engine) (t : Txn) : Engine :=
  let e := inc e DIR_CNT_LOOKUP
  let la := t.req.la
  let a := t.req.agent
  let e := reclaimAt e la
  if holdsM e la a then ownerWrite e t
  else if transient e la then
    if class0Entries e t.req.port ≥ 8 then foreignCap e t
    else creditDue (putTxn e { t with stage := .held, credited := true }) t.req.port 0
  else if (holdersOf e la).isEmpty ∧ t.req.op ≠ .placeWr then toQos e t
  else if class0Entries e t.req.port ≥ 8 then foreignCap e t
  else foreignWrite (creditDue e t.req.port 0) { t with credited := true }

/-- R380: the held writes of a line are applied in arrival order while the line is stable. -/
def applyHeld (e : Engine) (la : Nat) : List Nat → Engine
  | [] => e
  | id :: rest =>
    if transient e la then e
    else match getTxn e id with
      | none => applyHeld e la rest
      | some t =>
        let (e, ue) := wayMet e la
        if ue then e
        else
        let e := reclaimAt e la
        let e :=
          if (getEnroll e t.req.agent).dead then deadAnswer e t
          else if holdsM e la t.req.agent then ownerWrite e t
          else if (holdersOf e la).isEmpty ∧ t.req.op ≠ .placeWr then toQos e t
          else foreignWrite e t
        applyHeld e la rest

/-- The held writes of a line, oldest first. -/
def heldOf (e : Engine) (la : Nat) : List Nat :=
  (e.txns.filter fun t => t.stage == .held && t.req.la == la).map (·.id)

/-- A line may have left its transient state: its held writes are applied (R380). -/
def lineReleased (e : Engine) (la : Nat) : Engine := applyHeld e la (heldOf e la)

/-- R384: a snoop ends with the holder's answer: dropped, or kept in S. -/
def endSnoop (e : Engine) (s : Snoop) (keepS : Bool) : Engine :=
  let e := { e with dir := { e.dir with snoops := e.dir.snoops.filter fun u =>
    !(u.la == s.la && u.agent == s.agent && u.owner == s.owner) } }
  let e := if s.owner = .victim then e
    else if keepS ∧ (holderOf e s.la s.agent).isSome then recordHolder e s.la s.agent false
    else dropHolder e s.la s.agent
  let e := tagWaiting e e.dir.snoops
  lineReleased (snoopEnded e s.owner s.la) s.la

/-- R381 steps 3 and 4: the write of a PlaceWr has entered the write queue; the line enters WP and the
TARGET's record is reserved, or the push is skipped and the line's state ends. Answers whether the push's read is to be
made. -/
def enterWp (e : Engine) (t : Txn) : Engine × Bool :=
  let (e, ue) := wayMet e t.req.la
  if ue then (e, false)
  else
    let e := reclaimFull e t.req.la
    match allocate e t.req.la t.req.target with
    | .ok e => (putTxn e { t with ott := some .wp, stage := .push }, true)
    | _ => (skipPush (putTxn e { t with ott := none }), false)

/-! ## Agents that die or reset (R361–R363) -/

/-- R361 steps 2 and 3, R363: the snoops to an agent end as if it had answered BIRspI without data;
a line that it held in M is poisoned first. -/
def endSnoopsTo (e : Engine) (byReset : Bool) (a : Nat) : List Snoop → Engine
  | [] => e
  | s :: rest =>
    if s.agent = a then
      let e := if holdsM e s.la a then poisonHeld e byReset s.la ⟨a, true, 0⟩ else e
      endSnoopsTo (endSnoop e s false) byReset a rest
    else endSnoopsTo e byReset a rest

/-- Starts a reclaim walk for an agent. -/
def startWalk (e : Engine) (a : Nat) (byReset : Bool) : Engine :=
  let n := getEnroll e a
  let e := putEnroll e a { n with gen := n.gen + 1 }
  { e with dir := { e.dir with walks := e.dir.walks ++ [⟨false, a, 0, 0, byReset, []⟩] } }

/-- R361: an agent is declared dead. -/
def declareDead (e : Engine) (a : Nat) : Engine :=
  let n := getEnroll e a
  let e := putEnroll e a { n with dead := true }
  let e := sqSet (inc e DIR_CNT_TIMEOUT) DIR_STATUS [(DIR_STATUS_DEAD, 1), (DIR_STATUS_AGENT, a)]
  endSnoopsTo (startWalk e a false) false a e.dir.snoops

/-- A reclaim walk of the agent runs. -/
def walkRuns (e : Engine) (a : Nat) : Bool := e.dir.walks.any fun w => w.agent == a && !w.unenroll

/-- R362, R363: an AgentReset takes effect in the directory; the class 0 credit returns then (R87). -/
def agentResetEffect (e : Engine) (p a : Nat) : Engine :=
  let n := getEnroll e a
  let e := creditDue e p 0
  if n.dead then putEnroll e a { n with dead := false }
  else
    let e := sqSet e DIR_STATUS [(DIR_STATUS_RESET_RECLAIM, 1), (DIR_STATUS_AGENT, a)]
    endSnoopsTo (startWalk e a true) true a e.dir.snoops

/-- An AgentReset is taken, or waits for the end of the agent's walk (R362). -/
def agentResetDir (e : Engine) (p a : Nat) : Engine :=
  if walkRuns e a then
    { e with dir := { e.dir with walks := e.dir.walks.map fun w =>
        if w.agent = a ∧ ¬ w.unenroll then { w with resets := w.resets ++ [p] } else w } }
  else agentResetEffect e p a

/-- The lines of a set that an agent is recorded to hold, with the record. -/
def agentLines (e : Engine) (s a : Nat) : List (Nat × Holder) :=
  (getSet e s).ways.flatMap fun w =>
    (w.holders.filter fun h => h.agent == a).map fun h => (wayLine s w, h)

/-- R361: one set of a reclaim walk: the agent's stale records are dropped, its M lines poisoned. -/
def reclaimSet (e : Engine) (w : Walk) : Engine :=
  ((agentLines e w.set w.agent).filter fun p => stale e p.2).foldl
    (fun e p => reclaimLine e w.byReset p.1 p.2) e

/-- A BISnpInv to the agent for the line is outstanding: its answer ends the agent's record. -/
def invSnooped (e : Engine) (la a : Nat) : Bool :=
  e.dir.snoops.any fun s => s.la == la && s.agent == a && s.inv

/-- R353: one set of an unenroll walk: each line that the agent holds is snooped from an eviction
entry, as long as one is free. Answers whether the whole set has been snooped. -/
def unenrollSet (e : Engine) (w : Walk) : Engine × Bool :=
  ((agentLines e w.set w.agent).foldl (fun (p : Engine × Bool) (q : Nat × Holder) =>
    if invSnooped p.1 q.1 w.agent then p
    else if transient p.1 q.1 then (p.1, false)
    else if p.1.dir.evicts.length ≥ 128 then (p.1, false)
    else (formSnoop { p.1 with dir := { p.1.dir with evicts := p.1.dir.evicts ++ [q.1] } }
      q.1 w.agent true .unenroll, p.2)) (e, true))

/-! ## Class 1 packets (R384, R385) -/

/-- The class 1 opcodes of R73. -/
inductive BiOp where
  | rspI | rspS | conflict | rspE | rspIBlk | rspSBlk | rspEBlk
  deriving DecidableEq, Repr

/-- R384: the outstanding snoop that a class 1 packet matches; its port must be the agent's (R351). -/
def matchSnoop (e : Engine) (p a g : Nat) : Option Snoop :=
  if (getEnroll e a).port = p then
    e.dir.snoops.find? fun s => s.tag == some g && s.agent == a
  else none

/-- R384: a protocol breach sets its flag and raises a contained fault of source 0x03. -/
def protoFault (e : Engine) (f : Fld) (a : Nat) : Engine :=
  let e := sqSet (inc e DIR_CNT_PROTO) DIR_PROTO_STATUS [(f, 1), (DIR_PROTO_STATUS_AGENT, a)]
  raise e 0x03 .contained (synOf f.lo a)

/-- R385: a BIConflictAck leaves on the port of the conflict. -/
def conflictAck (e : Engine) (p a g : Nat) : Engine :=
  sendPkt (inc e DIR_CNT_CONFLICT) p
    { cls := 0, op := 0x45, agent := a, tag := 0, bitag := g, la := 0,
      devload := devload e 0 none, err := none, poison := false, grant := 0, data := 0,
      txn := none, qc := 0 }

/-- R384: the directory takes a class 1 packet. -/
def takeBi (e : Engine) (op : BiOp) (p a g : Nat) : Engine :=
  match op with
  | .rspE | .rspIBlk | .rspSBlk | .rspEBlk => protoFault e DIR_PROTO_STATUS_UNSOLICITED a
  | .rspI =>
    match matchSnoop e p a g with
    | some s => endSnoop e s false
    | none => protoFault e DIR_PROTO_STATUS_BAD_BITAG a
  | .rspS =>
    match matchSnoop e p a g with
    | some s =>
      if s.inv then protoFault (endSnoop e s false) DIR_PROTO_STATUS_WRONG_RSP a
      else endSnoop e s true
    | none => protoFault e DIR_PROTO_STATUS_BAD_BITAG a
  | .conflict =>
    match matchSnoop e p a g with
    | some _ => conflictAck e p a g
    | none => protoFault e DIR_PROTO_STATUS_BAD_BITAG a

end Sys2Proof.Machine
end

