-- ==== Sys2Proof/Machine/Flits.lean ====
section
/-! DEFINITION. Packets as flits (R69–R73, R77, R82, R83): the inbound opcodes and header layout, what a framed
packet commands, and the flits of an outbound packet. -/

namespace Sys2Proof.Machine

/-! ## Inbound (R69–R73) -/

/-- The inbound opcodes of R73. -/
inductive InOp where
  | memRd | memRdData | memInv | memInvNT | memClnEvct
  | memWr | memWrPtl | placeWr | agentReset | creditYield
  | biRspI | biRspS | biConflict | biRspE | biRspIBlk | biRspSBlk | biRspEBlk
  deriving DecidableEq, Repr

/-- The rows of R73: the value, the class and the flits of each opcode. -/
def inOps : List (InOp × Nat × Nat × Nat) :=
  [(.memRd, 0x01, 3, 1), (.memRdData, 0x02, 3, 1), (.memInv, 0x03, 3, 1), (.memInvNT, 0x04, 3, 1),
   (.memClnEvct, 0x05, 3, 1), (.memWr, 0x10, 0, 3), (.memWrPtl, 0x11, 0, 3), (.placeWr, 0x12, 0, 3),
   (.agentReset, 0x13, 0, 1), (.creditYield, 0x14, 0, 1), (.biRspI, 0x20, 1, 1), (.biRspS, 0x21, 1, 1),
   (.biConflict, 0x22, 1, 1), (.biRspE, 0x23, 1, 1), (.biRspIBlk, 0x24, 1, 1), (.biRspSBlk, 0x25, 1, 1),
   (.biRspEBlk, 0x26, 1, 1)]

/-- OPCODE, bits 7:0 of every header. -/
def opcodeOf (h : BitVec 256) : Nat := (h.extractLsb' 0 8).toNat

/-- The opcode that a header flit of a class names, with its length. -/
def inOpOf (f : Flit) : Option (InOp × Nat) :=
  (inOps.find? fun r => r.2.1 == opcodeOf f.data && r.2.2.1 == f.cls.val).map fun r => (r.1, r.2.2.2)

/-- R69, R70: the opcode of a packet whose flits keep the framing: the class has the opcode, it does not change, and
LAST stands on the flit that the length requires and on no other. -/
def framed (fs : List Flit) : Option InOp :=
  match fs with
  | [] => none
  | h :: _ => match inOpOf h with
    | none => none
    | some (op, n) =>
      if fs.length = n ∧ fs.map (·.last) = List.replicate (n - 1) false ++ [true] ∧ fs.all (fun f => f.cls == h.cls)
      then some op else none

/-- R71, R79: Pn_IN_BAD on the last flit; on any other flit it is ignored. -/
def lastBad (fs : List Flit) : Bool :=
  match fs.getLast? with
  | some f => f.last && f.bad
  | none => false

/-- R87: the packet uses a credit of its class; a CreditYield uses none. -/
def usesCredit (f : Flit) : Bool := !(f.cls.val == 0 && opcodeOf f.data == 0x14)

/-- The fields of R72 that classes 0 and 3 share. -/
def hdrOf (p : Fin 128) (h : BitVec 256) : Hdr :=
  { port := p, agent := (h.extractLsb' 8 12).toFin, ctx := (h.extractLsb' 20 12).toFin
    tag := h.extractLsb' 64 16, addr := h.extractLsb' 96 46, qc := (h.extractLsb' 32 3).toFin
    deadline := if h.getLsbD 35 then some (h.extractLsb' 36 16) else none }

/-- R77: the data flits side by side: the first is bytes 0–31 of the line, the second bytes 32–63. -/
def dataOf : List Flit → Line
  | [_, a, b] => b.data ++ a.data
  | _ => 0

/-- R72, R73: the command that a framed packet's flits spell on a port; `way` is what the directory ways read as. -/
def commandOf (p : Fin 128) (w : WayErr) (op : InOp) (fs : List Flit) : Instr :=
  let h := (fs.headD ⟨0, false, false, 0⟩).data
  let d := dataOf fs
  let a : Fin 4096 := (h.extractLsb' 8 12).toFin
  let st : Fin 4 := (h.extractLsb' 52 2).toFin
  let poison := h.getLsbD 54
  let bitag := h.extractLsb' 80 12
  match op with
  | .memRd => .memRd (hdrOf p h) st w
  | .memRdData => .memRdData (hdrOf p h) st w
  | .memInv => .memInv (hdrOf p h) st w
  | .memInvNT => .memInvNt (hdrOf p h) st w
  | .memClnEvct => .memClnEvct (hdrOf p h) st w
  | .memWr => .memWr (hdrOf p h) poison d w
  | .memWrPtl => .memWrPtl (hdrOf p h) poison (h.extractLsb' 192 64) d w
  | .placeWr => .placeWr (hdrOf p h) poison (h.extractLsb' 144 12).toFin d w
  | .agentReset => .agentReset p a
  | .creditYield => .creditYield p (h.extractLsb' 96 5) (h.extractLsb' 104 5) (h.extractLsb' 112 5)
  | .biRspI => .biRspI p a bitag
  | .biRspS => .biRspS p a bitag
  | .biConflict => .biConflict p a bitag
  | .biRspE => .biRspE p a bitag
  | .biRspIBlk => .biRspIBlk p a bitag
  | .biRspSBlk => .biRspSBlk p a bitag
  | .biRspEBlk => .biRspEBlk p a bitag

/-- What the flits of a packet command on a port: the packet's own command, PACKET_REWIND where the last flit is bad
(R79), FRAMING_ERROR where the framing is broken (R70). -/
def packetCommand (p : Fin 128) (w : WayErr) (fs : List Flit) : Instr :=
  if lastBad fs then .packetRewind p fs
  else match framed fs with
    | some op => commandOf p w op fs
    | none => .framingError p fs

/-! ## Outbound (R82, R83) -/

/-- A value at a bit position of a header. -/
def field (v lo : Nat) : BitVec 256 := BitVec.ofNat 256 (v * 2 ^ lo)

/-- R82: the header flit of an outbound packet; every bit not named is zero. A CreditRecall carries neither TAG nor
DEVLOAD, and a BIConflictAck its snoop's BITAG (R385). A push carries its line's address (R382). -/
def outHeader (k : OutPkt) : BitVec 256 :=
  let id := field k.op 0 ||| field k.agent 8
  if k.cls = 2 then id ||| field k.bitag 48 ||| field k.la 64
  else if k.op = 0x46 then id
  else (if k.op = 0x45 then field k.bitag 48 else 0) ||| (if k.op = 0x43 then field k.la 64 else 0) ||| id ||| field k.grant 20 ||| field k.poison.toNat 22 ||| field k.err.isSome.toNat 23 |||
    field (k.err.getD 0) 24 ||| field k.devload 26 ||| field k.tag 32

/-- R83: the flits of an outbound packet: MemData carries the line in two more. -/
def outFlits (k : OutPkt) : List (BitVec 256) :=
  if k.op = 0x43 then [outHeader k, k.data.extractLsb' 0 256, k.data.extractLsb' 256 256] else [outHeader k]

end Sys2Proof.Machine
end

