-- ==== Sys2Proof/Machine/Telemetry.lean ====
section
/-! DEFINITION. Hot-page telemetry, the traffic counters and the watermark monitors (R416–R432). -/

namespace Sys2Proof.Machine

/-! ## Sampling and the hotlist (R416–R420) -/

/-- A read or a write of R416, and whether COUNT_MODE counts its direction. -/
def sampled (e : Engine) (op : ReqOp) : Bool :=
  let m := rd e TEL_CTRL_COUNT_MODE
  match op with
  | .memRd | .memRdData => m % 2 == 1
  | .memWr | .memWrPtl | .placeWr => m / 2 == 1
  | _ => false

/-- The page of a line address, at the selected size (R418, R423). -/
def pageOf (e : Engine) (la : Nat) : Nat :=
  if on e TEL_CTRL_PAGE_SZ then la / 2 ^ 15 else la / 2 ^ 6

/-- R417: the sampler looks at a request as it leaves the protection check; it counts a sample that it takes, also one
that finds the FIFO full (R430). -/
def telSample (e : Engine) (op : ReqOp) (la : Nat) : Engine :=
  if on e TEL_CTRL_TEL_EN && !e.tel.seedWait && sampled e op then
    let w := Config.sampleWord e.tel.seed e.tel.drawn
    let e := { e with tel := { e.tel with drawn := e.tel.drawn + 1 } }
    if w.toNat % 2 ^ rd e TEL_CTRL_SHIFT = 0 then
      let e := inc e TEL_CNT_SAMPLE
      if e.tel.fifo.length < 64 then
        { e with tel := { e.tel with fifo := e.tel.fifo ++ [pageOf e la] } }
      else
        let e := inc e TEL_CNT_SDROP
        telPartial e
    else e
  else e

def hotMax : Nat := 2 ^ 24 - 1

/-- The entry with the lowest COUNT, the lowest index on a tie. -/
def lowestEntry : List HotEntry → Option (Nat × HotEntry)
  | [] => none
  | h :: hs =>
    match lowestEntry hs with
    | none => some (0, h)
    | some (i, g) => if h.count ≤ g.count then some (0, h) else some (i + 1, g)

/-- R418: one sample updates the list. -/
def hotUpdate (l : List HotEntry) (page : Nat) : List HotEntry :=
  if l.any fun h => h.page == page then
    l.map fun h => if h.page = page then { h with count := min (h.count + 1) hotMax } else h
  else if l.length < 4096 then l ++ [⟨page, 1, 0⟩]
  else match lowestEntry l with
    | some (i, h) => setNth l i ⟨page, min (h.count + 1) hotMax, h.count⟩
    | none => l

/-- R418: the hotlist takes the oldest sample of the FIFO. -/
def hotTake (e : Engine) : Engine :=
  match e.tel.fifo with
  | [] => e
  | p :: rest =>
    { e with tel := { e.tel with
        fifo := rest, live := hotUpdate e.tel.live p, samples := e.tel.samples + 1 } }

/-- R419, R420: an epoch ends: the live list becomes the snapshot, a cleared list goes live, and the
epoch number increases. -/
def epochEnd (e : Engine) : Engine :=
  let t := e.tel
  let part := t.partialEp || isSafe e
  let e := { e with tel := { t with
    snap := t.live, snapSamples := t.samples, snapCtrl := reg e TEL_CTRL, snapEpoch := t.epoch,
    live := [], samples := 0, partialEp := isSafe e, epoch := t.epoch + 1, epochAt := e.clk.nominal } }
  let e := wr e TEL_HOT_STATE_EPOCH t.epoch
  let e := wr e TEL_HOT_STATE_SORTED 0
  let e := wr e TEL_HOT_STATE_PARTIAL (if part then 1 else 0)
  wr e TEL_HOT_STATE_ENTRIES t.live.length

/-- The order of the sorted snapshot: descending COUNT, lower PAGE first on a tie (R419). -/
def hotBefore (a b : HotEntry) : Bool :=
  decide (a.count > b.count) || (a.count == b.count && decide (a.page ≤ b.page))

/-- Inserts an entry into a sorted list. -/
def hotInsert (h : HotEntry) : List HotEntry → List HotEntry
  | [] => [h]
  | g :: gs => if hotBefore h g then h :: g :: gs else g :: hotInsert h gs

def hotSort : List HotEntry → List HotEntry
  | [] => []
  | h :: hs => hotInsert h (hotSort hs)

/-! ## Counters (R424) -/

def noTel : TelCnt := ⟨0, 0, 0, 0, 0, [0, 0, 0, 0, 0, 0, 0, 0]⟩

/-- The bucket of a latency in nanoseconds (R424). -/
def latBucket (ns : Nat) : Nat :=
  if ns < 50 then 0 else if ns < 100 then 1 else if ns < 200 then 2 else if ns < 500 then 3
  else if ns < 1000 then 4 else if ns < 2000 then 5 else if ns < 5000 then 6 else 7

/-- Changes the live counters of a class. -/
def telCnt (e : Engine) (c : Nat) (f : TelCnt → TelCnt) : Engine :=
  { e with tel := { e.tel with cnt := tput noTel e.tel.cnt c (f (tget noTel e.tel.cnt c)) } }

/-- A read's latency is measured (R424). -/
def telLatency (ns : Nat) (t : TelCnt) : TelCnt :=
  let b := latBucket ns
  { t with
    latSum := (t.latSum + ns) % 2 ^ 64
    latCnt := (t.latCnt + 1) % 2 ^ 32
    latMax := max t.latMax (min ns (2 ^ 24 - 1))
    hist := setNth t.hist b ((nth t.hist b 0 + 1) % 2 ^ 32) }

/-- R424, R430: a packet without ERR leaves a port; `commit` is the request's commit TB, none for a push. -/
def telSent (e : Engine) (k : OutPkt) (isWrite : Bool) (commit : Option Nat) : Engine :=
  if k.err.isSome || !on e TEL_CTRL_TEL_EN then e
  else if k.op = 0x43 then
    let e := telCnt e k.qc fun t => { t with rd := (t.rd + 64) % 2 ^ 64 }
    match commit with
    | some c => telCnt e k.qc (telLatency ((e.clk.tb - c) / nsUnit))
    | none => e
  else if k.op = 0x40 ∧ isWrite then
    telCnt e k.qc fun t => { t with wr := (t.wr + 64) % 2 ^ 64 }
  else e

/-! ## Watermark monitors (R426–R429) -/

/-- Entries in use of the 4,096 that the hold queues and the writes of all channels share (R394). -/
def holdOcc (e : Engine) : Nat :=
  e.qos.hold.foldl (fun n p => n + p.2.length) 0 + e.qos.writes.foldl (fun n p => n + p.2.length) 0

/-- The level that a source selects (R426). -/
def wmLevel (e : Engine) (src ch : Nat) : Nat :=
  match src with
  | 0 => rqOcc e ch
  | 1 => wqOcc e ch
  | 2 => pairOcc e ch
  | 3 => holdOcc e
  | 4 => retryOcc e
  | 5 => ottOcc e
  | 6 => (tagged e).length
  | _ => 0

/-- The top of a source's range (R426, R429). -/
def wmRange : Nat → Nat
  | 0 => 256 | 1 => 192 | 2 => 32 | 3 => 4096 | 4 => 256 | 5 => 3200 | 6 => 4096 | _ => 0

def wmArmed (e : Engine) (k : Nat) : Bool := !e.tel.disarmed.contains k

def wmSetArmed (e : Engine) (k : Nat) (b : Bool) : Engine :=
  let d := e.tel.disarmed.filter (· != k)
  { e with tel := { e.tel with disarmed := if b then d else d ++ [k] } }

/-- R427: monitor `k` looks at its level: a crossing, a re-arming, and the highest level. -/
def wmLook (e : Engine) (k : Nat) : Engine :=
  if on e (TEL_WM_CFG_WM_EN k) then
    let lv := wmLevel e (rd e (TEL_WM_CFG_SOURCE k)) (rd e (TEL_WM_CFG_CH k))
    let mark := rd e (TEL_WM_CFG_MARK k)
    let e := wr e (TEL_WM_STATUS_MAX k) (max (rd e (TEL_WM_STATUS_MAX k)) lv)
    if lv ≥ mark ∧ wmArmed e k then
      let e := wmSetArmed e k false
      if on e (TEL_WM_STATUS_NOTICE k) then satF e (TEL_WM_STATUS_CROSS k) 1
      else
        let e := wr e (TEL_WM_STATUS_NOTICE k) 1
        let e := wr e (TEL_WM_STATUS_CROSS k) 1
        addF e (TEL_WM_STATUS_SEQ k) 1
    else if lv + rd e (TEL_WM_CFG_HYST k) < mark then wmSetArmed e k true
    else e
  else e

/-- Every monitor looks at its level, as in each FAB cycle (R426), while the telemetry block is enabled (R430). -/
def wmScan (e : Engine) : Engine := if on e TEL_CTRL_TEL_EN then (List.range 16).foldl wmLook e else e

/-- R428: a write of the SEQ that was read clears the notice. -/
def wmClear (e : Engine) (k seq : Nat) : Engine :=
  if rd e (TEL_WM_STATUS_SEQ k) = seq then
    let lv := wmLevel e (rd e (TEL_WM_CFG_SOURCE k)) (rd e (TEL_WM_CFG_CH k))
    let e := wr e (TEL_WM_STATUS_NOTICE k) 0
    let e := wr e (TEL_WM_STATUS_CROSS k) 0
    let e := wr e (TEL_WM_STATUS_MAX k) lv
    if lv ≥ rd e (TEL_WM_CFG_MARK k) ∧ on e (TEL_WM_CFG_WM_EN k) then
      let e := wr e (TEL_WM_STATUS_NOTICE k) 1
      addF (wmSetArmed e k false) (TEL_WM_STATUS_SEQ k) 1
    else e
  else e

end Sys2Proof.Machine
end

