-- ==== Sys2Proof/Machine/Qos.lean ====
section
/-! DEFINITION. Quality of service (R393–R415): deadlines and the priority ramp, the token buckets,
the choice of the head that a channel releases, guarantee misses, and shedding. -/

namespace Sys2Proof.Machine

/-- A field of the active copy of a staged register (R413). -/
def actF (e : Engine) (f : Fld) : Nat :=
  wordField (tget (resetOf f.addr) e.qos.active f.addr) f.hi f.lo

/-! ## Priority (R397) -/

/-- PRI of an agent read (R397, R400). -/
def priOf (e : Engine) (t : Txn) : Nat :=
  let base := actF e (QOS_CLASS_BASE_PRI t.req.qc)
  let p := match t.deadline with
    | none => base
    | some d =>
      if e.clk.tb ≥ d then 7
      else max base (min 6 (7 * (e.clk.tb - t.commit) / (d - t.commit)))
  if t.excess then min p 5 else p

/-- The PRI of a read-queue entry: the highest of the agent reads that it serves; the engine's own reads keep theirs. -/
def entryPri (e : Engine) (r : RqEntry) : Nat :=
  let ps : List (Option Nat) := r.uses.map fun u => match u with
    | .agent id => (getTxn e id).map fun (t : Txn) => t.pri
    | _ => none
  if ps.all (·.isSome) then ps.foldl (fun m p => max m (p.getD 0)) 0 else r.pri

/-- R146, R397: every held or queued agent read takes its current PRI, and so do the read-queue entries. -/
def rampUpdate (e : Engine) : Engine :=
  let up := fun (t : Txn) =>
    if isClass3 t.req.op ∧ (t.stage = .qos ∨ t.stage = .chan) then { t with pri := priOf e t } else t
  let e : Engine := { e with txns := e.txns.map up }
  { e with chans := e.chans.map fun (p : Nat × Chan) =>
      (p.1, { p.2 with rq := p.2.rq.map fun (r : RqEntry) => { r with pri := entryPri e r } }) }

/-! ## Token buckets (R398–R402) -/

/-- N: the channels set in QOS_SERVICE. -/
def serviceN (e : Engine) : Nat := (serviceChans e).length

/-- The weighted bytes that a request charges (R398): the factor follows the protection mode of the region that the
request is bound to (R12), and the direction. -/
def charge (e : Engine) (t : Txn) (write : Bool) : Rat :=
  let f := match modeAt e t.ver t.req.la, write with
    | 2, false => rd e CRY_ADM_AUTH_RD
    | 2, true => rd e CRY_ADM_AUTH_WR
    | 3, false => rd e CRY_ADM_FRESH_RD
    | 3, true => rd e CRY_ADM_FRESH_WR
    | _, _ => 16
  (64 * f : Rat) / 16

/-- Bucket depth in bytes (R398). -/
def depth (e : Engine) (c : Nat) : Rat := (actF e (QOS_CLASS_BURST c) * 1024 : Nat)

def bucketKey (c ch : Nat) : Nat := 16 * c + ch

/-- What a bucket reads as before its first charge: full at nominal time 0 (R398). -/
def getBucket (e : Engine) (c ch : Nat) : Bucket :=
  match tlookup e.qos.buckets (bucketKey c ch) with
  | some b => b
  | none => ⟨depth e c, depth e c, 0⟩

def putBucket (e : Engine) (c ch : Nat) (b : Bucket) : Engine :=
  { e with qos := { e.qos with buckets := tinsert (bucketKey c ch) b e.qos.buckets } }

/-- The class is in the channel's shed set (R409). -/
def shedIn (e : Engine) (c ch : Nat) : Bool := rd e (QOS_SHED_CLASSES ch) / 2 ^ c % 2 == 1

/-- A rate of `w` units of 10 MB/s over a time, in weighted bytes. -/
def rateBytes (w : Rat) (units : Nat) : Rat := w * 10000000 * units / (1000000000 * nsUnit)

/-- The share of a class in a channel, in units of 10 MB/s (R409). -/
def shareOf (e : Engine) (c : Nat) : Rat :=
  (actF e (QOS_RESV_WEIGHTED c) : Rat) / (max (serviceN e) 1 : Nat)

/-- The cut of a class in a channel (R409). -/
def cutOf (e : Engine) (c ch : Nat) : Rat := tget 0 e.qos.cut (8 * ch + c)

/-- R398, R410: both buckets refilled to now, each to at most its depth; X is without limit when
LIMIT_EN is 0 and the class is not shed. -/
def refill (e : Engine) (c ch : Nat) : Bucket :=
  let b := getBucket e c ch
  let dt := e.clk.nominal - b.since
  let d := depth e c
  let sh := shedIn e c ch
  let gRate := if sh then shareOf e c - cutOf e c ch else shareOf e c
  let g := min d (b.g + rateBytes gRate dt)
  let x :=
    if sh then min d b.x
    else if actF e (QOS_CLASS_LIMIT_EN c) = 1 then
      let r : Rat := ((actF e (QOS_CLASS_CEIL c) : Int) - (actF e (QOS_RESV_WEIGHTED c) : Int) : Int)
      min d (b.x + rateBytes (r / (max (serviceN e) 1 : Nat)) dt)
    else d
  ⟨g, x, e.clk.nominal⟩

/-- R398: every bucket full. -/
def fillBuckets (e : Engine) : Engine :=
  let full := (List.range 128).map fun k => (k, Bucket.mk (depth e (k / 16)) (depth e (k / 16)) e.clk.nominal)
  { e with qos := { e.qos with buckets := full } }

/-- The bucket that covers a charge: reservation, excess, or neither (R399). -/
inductive Cover where
  | g | x | none
  deriving DecidableEq, Repr

def coverOf (b : Bucket) (c : Rat) : Cover :=
  if b.g ≥ c then .g else if b.x ≥ c then .x else .none

/-- Charges a bucket. With `forced`, a charge that neither covers falls on G, whose level never falls
below −BURST (R401), or on X after G for a read (R402). -/
def chargeBucket (e : Engine) (c ch : Nat) (amount : Rat) : Engine × Cover :=
  let b := refill e c ch
  let lo := - depth e c
  match coverOf b amount with
  | .g => (putBucket e c ch { b with g := b.g - amount }, .g)
  | .x => (putBucket e c ch { b with x := b.x - amount }, .x)
  | .none => (putBucket e c ch { b with g := max lo (b.g - amount) }, .none)

/-- R402: the charge of a read released ahead of a write: G, or X when G falls short, which may fall
to −BURST. -/
def chargeAhead (e : Engine) (c ch : Nat) (amount : Rat) : Engine × Cover :=
  let b := refill e c ch
  if b.g ≥ amount then (putBucket e c ch { b with g := b.g - amount }, .g)
  else (putBucket e c ch { b with x := max (- depth e c) (b.x - amount) }, .x)

/-! ## The head that a channel releases (R399) -/

/-- The head of a hold queue with its cover. -/
structure Head where
  txn : Txn
  cls : Nat
  cover : Cover

/-- The heads of a channel's hold queues. -/
def holdHeads (e : Engine) (ch : Nat) : List Head :=
  (List.range 8).filterMap fun c =>
    match tget [] e.qos.hold (16 * c + ch) with
    | [] => none
    | id :: _ => (getTxn e id).map fun t =>
        ⟨t, c, coverOf (refill e c ch) (charge e t false)⟩

/-- R399 step 3: higher PRI, then older, then lower class. -/
def headBefore (e : Engine) (a b : Head) : Bool :=
  let pa := priOf e a.txn
  let pb := priOf e b.txn
  decide (pa > pb) || (pa == pb && (decide (a.txn.commit < b.txn.commit) ||
    (a.txn.commit == b.txn.commit && decide (a.cls ≤ b.cls))))

/-- The best of some heads. -/
def bestHead (e : Engine) : List Head → Option Head
  | [] => none
  | h :: hs => match bestHead e hs with
    | none => some h
    | some g => if headBefore e h g then some h else some g

/-- R399: the head that releases: one in reservation first, one on excess otherwise. -/
def chooseHead (e : Engine) (ch : Nat) : Option Head :=
  let hs := holdHeads e ch
  match bestHead e (hs.filter fun h => h.cover == .g) with
  | some h => some h
  | none => bestHead e (hs.filter fun h => h.cover == .x)

/-- A read leaves its hold queue. -/
def unhold (e : Engine) (c ch id : Nat) : Engine :=
  let k := 16 * c + ch
  { e with qos := { e.qos with hold := tput [] e.qos.hold k ((tget [] e.qos.hold k).filter (· != id)) } }

/-- The reads of a line that wait in a channel's hold queues, oldest first (R402). -/
def heldReads (e : Engine) (ch la : Nat) : List Txn :=
  e.txns.filter fun t => t.stage == .qos && isClass3 t.req.op && t.ch == ch && t.req.la == la

/-! ## Guarantee misses (R403) -/

/-- A miss of class `c`: counted, and at MISS_TH misses in MISS_WIN ms, all while the class bit is clear, the bit sets. -/
def countMiss (e : Engine) (c : Nat) : Engine :=
  let e := inc e (QOS_CNT_MISS c)
  let put := fun (ms : List Nat) => { e with qos := { e.qos with misses := tput [] e.qos.misses c ms } }
  let win := msUnits (rd e QOS_CTRL_MISS_WIN)
  let ms := e.clk.nominal :: (tget [] e.qos.misses c).filter fun t => decide (e.clk.nominal < t + win)
  let cl := rd e QOS_MISS_STATUS_CLASSES
  if cl / 2 ^ c % 2 = 1 then put []
  else if ms.length ≥ rd e QOS_CTRL_MISS_TH then
    sqSet (put []) QOS_MISS_STATUS [(QOS_MISS_STATUS_CLASSES, cl + 2 ^ c)]
  else put ms

/-- R403: a response leaves: a targeted request released or charged in reservation that is past its
deadline is a miss. -/
def checkMiss (e : Engine) (t : Txn) : Engine :=
  match t.deadline with
  | some d => if t.onG ∧ e.clk.tb > d then countMiss e t.req.qc else e
  | none => e

/-! ## Capacity and shedding (R408–R411) -/

/-- C_now of a channel, in units of 10 MB/s (R408). -/
def capNow (e : Engine) (n : Nat) : Nat :=
  let hot := if on e (CH_TEMP_STATE_HOT n) then rd e (QOS_CAP_HOT_DELTA n) else 0
  rd e (QOS_CAP_BASE n) - hot - rd e (QOS_DROP_FW_DROP n) - rd e (QOS_DROP_EXCESS n)

/-- The result of the shedding walk on a channel: the shed set, the cuts by class, and the shortfall. -/
structure Shed where
  set : List Nat
  cuts : List Rat
  short : Rat

/-- Steps 7, 6, 5, 4 of the walk of R409: class `c` joins and absorbs what it can. -/
def shedLow (share : Nat → Rat) : List Nat → Rat → List Nat × List (Nat × Rat) × Rat
  | [], s => ([], [], s)
  | c :: cs, s =>
    let k := min s (share c)
    if s - k = 0 then ([c], [(c, k)], 0)
    else
      let r := shedLow share cs (s - k)
      (c :: r.1, (c, k) :: r.2.1, r.2.2)

/-- R409: the shedding walk. -/
def shedWalk (share : Nat → Rat) (cNow : Nat) : Shed :=
  let s0 := (List.range 8).foldl (fun a c => a + share c) 0 - 9 / 10 * (cNow : Rat)
  if s0 ≤ 0 then ⟨[], [0, 0, 0, 0, 0, 0, 0, 0], 0⟩
  else
    let low := shedLow share [7, 6, 5, 4] s0
    let s1 := low.2.2
    let t := share 1 + share 2 + share 3
    let f : Rat := if s1 > 0 then (if t > 0 then min 1 (s1 / t) else 0) else 0
    let mid := [1, 2, 3].map fun c => (c, f * share c)
    let s2 := s1 - f * t
    let top := if s2 > 0 then [(0, min s2 (share 0))] else []
    let pairs := low.2.1 ++ mid ++ top
    let cut := fun c => ((pairs.find? fun p => p.1 == c).map (·.2)).getD 0
    let set := low.1 ++ (mid.filter fun p => decide (p.2 > 0)).map (·.1) ++ top.map (·.1)
    ⟨set, (List.range 8).map cut, s0⟩

/-- A set of classes as a bit mask. -/
def classMask (l : List Nat) : Nat :=
  (List.range 8).foldl (fun m c => if l.contains c then m + 2 ^ c else m) 0

/-- A quantity rounded down to a natural number. -/
def ratNat (r : Rat) : Nat := r.floor.toNat

/-- R409: the walk of a channel, where it is in service. -/
def shedOf (e : Engine) (n : Nat) : Shed :=
  if (serviceChans e).contains n then shedWalk (shareOf e) (capNow e n) else ⟨[], [0, 0, 0, 0, 0, 0, 0, 0], 0⟩

/-- R409: the shed set of one channel is recomputed; its bucket rates change from now. -/
def shedChannel (e : Engine) (n : Nat) : Engine :=
  let e := (List.range 8).foldl (fun e c => putBucket e c n (refill e c n)) e
  let sh := shedOf e n
  let cuts := (List.range 8).foldl (fun t c => tput 0 t (8 * n + c) (nth sh.cuts c 0)) e.qos.cut
  let e := { e with qos := { e.qos with cut := cuts } }
  wr (wr e (QOS_SHED_CLASSES n) (classMask sh.set)) (QOS_SHED_SHORT n) (ratNat sh.short)

/-- The union of the shed sets of all channels. -/
def activeMask (e : Engine) : Nat :=
  (List.range 16).foldl (fun m n => m ||| rd e (QOS_SHED_CLASSES n)) 0

/-- The engine's shortfall in units of 100 MB/s (R411, R412). -/
def shortNow (e : Engine) : Nat :=
  ((List.range 16).foldl (fun m n => m + rd e (QOS_SHED_SHORT n)) 0) / 10

/-- R409, R411: every channel's shed set is recomputed, and a new shed or a larger shortfall is noticed. -/
def shedRecompute (e : Engine) : Engine :=
  let before := (List.range 16).map fun n => rd e (QOS_SHED_CLASSES n)
  let short := ((List.range 16).map fun n => (shedOf e n).short).sum
  let grown := decide (short > e.qos.short)
  let e := (List.range 16).foldl shedChannel e
  let act := activeMask e
  let now := shortNow e
  let grew := (List.range 16).any fun n =>
    rd e (QOS_SHED_CLASSES n) ||| nth before n 0 != nth before n 0
  let e := wr e QOS_DEGRADED_ACTIVE act
  let e := wr e QOS_SHORTFALL_NOW now
  let e := wr e QOS_SHORTFALL_MAX (max (rd e QOS_SHORTFALL_MAX) now)
  let e := { e with qos := { e.qos with shedDue := false, short := short } }
  if grew || grown then
    let w := setFields (reg e QOS_DEGRADED)
      [(QOS_DEGRADED_DEGRADED, 1), (QOS_DEGRADED_CLASSES, rd e QOS_DEGRADED_CLASSES ||| act)]
    setReg e QOS_DEGRADED (setWordField w 31 24 (wordField w 31 24 + 1))
  else e

/-- R409: a change of C_now, N or the active reservations asks for a recomputation. -/
def shedAsk (e : Engine) : Engine := { e with qos := { e.qos with shedDue := true } }

/-- R411: a write of the SEQ that was read clears DEGRADED and CLASSES, which reassert from ACTIVE. -/
def degradedClear (e : Engine) (seq : Nat) : Engine :=
  if rd e QOS_DEGRADED_SEQ = seq then
    let e := sqClear e QOS_DEGRADED seq
    let e := wr e QOS_SHORTFALL_MAX (rd e QOS_SHORTFALL_NOW)
    let act := rd e QOS_DEGRADED_ACTIVE
    if act ≠ 0 then sqSet e QOS_DEGRADED [(QOS_DEGRADED_DEGRADED, 1), (QOS_DEGRADED_CLASSES, act)] else e
  else e

/-! ## COMMIT (R413) -/

/-- R413: a class has BASE_PRI 7, BURST 0, or a limited ceiling below WEIGHTED. -/
def classBad (e : Engine) (c : Nat) : Bool :=
  rd e (QOS_CLASS_BASE_PRI c) == 7 || rd e (QOS_CLASS_BURST c) == 0 ||
    (on e (QOS_CLASS_LIMIT_EN c) && decide (rd e (QOS_CLASS_CEIL c) < rd e (QOS_RESV_WEIGHTED c)))

/-- R413: COMMIT is discarded. -/
def commitBad (e : Engine) : Bool := (List.range 8).any (classBad e)

/-- R398: every bucket is brought to now, at the rates of the time before a change. -/
def refillAll (e : Engine) : Engine :=
  (List.range 128).foldl (fun e k => putBucket e (k / 16) (k % 16) (refill e (k / 16) (k % 16))) e

/-- R398, R404: QOS_SERVICE changes, and with it N: time up to now counts under the old one. -/
def setService (e : Engine) (w : Word) : Engine := shedAsk (setReg (refillAll e) QOS_SERVICE w)

/-- R413, R398: every staged register is copied to its active copy; each level is kept, clipped. -/
def qosCommit (e : Engine) : Engine :=
  let e := refillAll e
  let put := fun (t : Tbl Word) (a : Nat) => tput (resetOf a) t a (reg e a)
  let act := (List.range 8).foldl
    (fun t c => put (put (put t (QOS_CLASS c)) (QOS_RESV c)) (QOS_TGT c)) e.qos.active
  let e := { e with qos := { e.qos with active := act } }
  let e := (List.range 128).foldl (fun e k =>
    let b := getBucket e (k / 16) (k % 16)
    let d := depth e (k / 16)
    putBucket e (k / 16) (k % 16) { b with g := min d b.g, x := min d b.x }) e
  shedAsk e

end Sys2Proof.Machine
end

