-- ==== Sys2Proof/Machine/Crypto.lean ====
section
/-! DEFINITION. The algorithms that the manual names: AES-256 with XTS, CBC-MAC and CTR_DRBG
(R320, R324), GHASH (R326), SHA-384 and ECDSA over P-384 (R339), and CRC-32C (R287). Bytes are numbers
below 256 in order of address or transmission. -/

namespace Sys2Proof.Machine

/-! ## Bytes -/

/-- Byte `i` of a number, least significant first. -/
def byteAt (x i : Nat) : Nat := x / 2 ^ (8 * i) % 256

/-- The `n` bytes of a number, little-endian. -/
def toLE (n x : Nat) : List Nat := (List.range n).map (byteAt x)

/-- The number of some bytes, little-endian. -/
def ofLE : List Nat → Nat
  | [] => 0
  | b :: bs => b + 256 * ofLE bs

/-- The `n` bytes of a number, big-endian. -/
def toBE (n x : Nat) : List Nat := (toLE n x).reverse

/-- The number of some bytes, big-endian. -/
def ofBE (bs : List Nat) : Nat := bs.foldl (fun a b => a * 256 + b) 0

def xorBytes (a b : List Nat) : List Nat := List.zipWith (fun x y => x ^^^ y) a b

/-- A list cut into pieces of `n`. -/
def piecesOf {α : Type} (n : Nat) : Nat → List α → List (List α)
  | 0, _ => []
  | k + 1, l => l.take n :: piecesOf n k (l.drop n)

/-! ## AES-256 (FIPS 197) -/

/-- The S-box, byte `i` for input `i`. -/
def sboxBits : Nat :=
  0x16bb54b00f2d99416842e6bf0d89a18cdf2855cee9871e9b948ed9691198f8e19e1dc186b95735610ef6034866b53e708a8bbd4b1f74dde8c6b4a61c2e2578ba08ae7a65eaf4566ca94ed58d6d37c8e779e4959162acd3c25c2406490a3a32e0db0b5ede14b8ee4688902a22dc4f816073195d643d7ea7c41744975fec130ccdd2f3ff1021dab6bcf5389d928f40a351a89f3c507f02f94585334d43fbaaefd0cf584c4a39becb6a5bb1fc20ed00d153842fe329b3d63b52a05a6e1b1a2c830975b227ebe28012079a059618c323c7041531d871f1e5a534ccf73f362693fdb7c072a49cafa2d4adf04759fa7dc982ca76abd7fe2b670130c56f6bf27b777c63

/-- The inverse S-box. -/
def invSboxBits : Nat :=
  0x7d0c2155631469e126d677ba7e042b17619953833cbbebc8b0f52aae4d3be0a0ef9cc9939f7ae52d0d4ab519a97f51605fec8027591012b131c7078833a8dd1ff45acd78fec0db9a2079d2c64b3e56fc1bbe18aa0e62b76f89c5291d711af1476edf751ce837f9e28535ade72274ac9673e6b4f0cecff297eadc674f4111913a6b8a130103bdafc1020f3fca8f1e2cd00645b3b80558e4f70ad3bc8c00abd890849d8da75746155edab9edfd5048706c92b6655dcc5ca4d41698688664f6f87225d18b6d49a25b76b224d92866a12e084ec3fa420b954cee3d23c2a632947b54cbe9dec444438e3487ff2f9b8239e37cfbd7f3819ea340bf38a53630d56a0952

def sbox (b : Nat) : Nat := sboxBits / 2 ^ (8 * b) % 256
def invSbox (b : Nat) : Nat := invSboxBits / 2 ^ (8 * b) % 256

/-- Multiplication by x in the field of AES. -/
def xtime (a : Nat) : Nat := if a ≥ 128 then (2 * a - 256) ^^^ 0x1B else 2 * a

/-- Multiplication by a constant below 16. -/
def aesMul (c a : Nat) : Nat :=
  let a2 := xtime a
  let a4 := xtime a2
  let a8 := xtime a4
  (if c % 2 = 1 then a else 0) ^^^ (if c / 2 % 2 = 1 then a2 else 0) ^^^
    (if c / 4 % 2 = 1 then a4 else 0) ^^^ (if c / 8 % 2 = 1 then a8 else 0)

/-- One word of the key schedule from the words so far, newest first. -/
def aesKeyWord (i rcon : Nat) (ws : List (List Nat)) : List Nat :=
  let prev := ws.headD []
  let back := ws.getD 7 []
  let t :=
    if i % 8 = 0 then
      let r := (prev.drop 1 ++ prev.take 1).map sbox
      xorBytes r [rcon, 0, 0, 0]
    else if i % 8 = 4 then prev.map sbox
    else prev
  xorBytes back t

/-- Further words of the key schedule, newest first. -/
def aesSchedule : Nat → Nat → Nat → List (List Nat) → List (List Nat)
  | 0, _, _, ws => ws
  | n + 1, i, rcon, ws =>
    aesSchedule n (i + 1) (if i % 8 = 0 then xtime rcon else rcon) (aesKeyWord i rcon ws :: ws)

/-- The fifteen round keys of a key of 32 bytes. -/
def aesRoundKeys (key : List Nat) : List (List Nat) :=
  let ws := (aesSchedule 52 8 1 (piecesOf 4 8 key).reverse).reverse
  (piecesOf 4 15 ws).map List.flatten

/-- ShiftRows on the 16 bytes, column by column. -/
def shiftRows (s : List Nat) : List Nat :=
  (List.range 16).map fun i => s.getD ((i + 4 * (i % 4)) % 16) 0

def invShiftRows (s : List Nat) : List Nat :=
  (List.range 16).map fun i => s.getD ((i + 16 - 4 * (i % 4)) % 16) 0

/-- MixColumns with the coefficients of row 0. -/
def mixWith (c0 c1 c2 c3 : Nat) (s : List Nat) : List Nat :=
  (List.range 16).map fun i =>
    let b := fun k => s.getD (i / 4 * 4 + (i + k) % 4) 0
    aesMul c0 (b 0) ^^^ aesMul c1 (b 1) ^^^ aesMul c2 (b 2) ^^^ aesMul c3 (b 3)

/-- The rounds of the cipher. -/
def aesRounds : List (List Nat) → List Nat → List Nat
  | [], s => s
  | [k], s => xorBytes (shiftRows (s.map sbox)) k
  | k :: ks, s => aesRounds ks (xorBytes (mixWith 2 3 1 1 (shiftRows (s.map sbox))) k)

/-- The inverse rounds, from the round key before the last down. -/
def aesInvRounds : List (List Nat) → List Nat → List Nat
  | [], s => s
  | [k], s => xorBytes ((invShiftRows s).map invSbox) k
  | k :: ks, s => aesInvRounds ks (mixWith 14 11 13 9 (xorBytes ((invShiftRows s).map invSbox) k))

/-- AES-256 encryption of one block under its round keys. -/
def aesEncR (rk : List (List Nat)) (blk : List Nat) : List Nat :=
  match rk with
  | [] => blk
  | k :: ks => aesRounds ks (xorBytes blk k)

/-- AES-256 encryption of one block. -/
def aesEnc (key blk : List Nat) : List Nat := aesEncR (aesRoundKeys key) blk

/-- AES-256 decryption of one block. -/
def aesDec (key blk : List Nat) : List Nat :=
  match (aesRoundKeys key).reverse with
  | [] => blk
  | k :: ks => aesInvRounds ks (xorBytes blk k)

/-! ## XTS (IEEE 1619, R324) -/

/-- Multiplication of a tweak by α. -/
def xtsMulAlpha (t : Nat) : Nat :=
  if t ≥ 2 ^ 127 then (2 * t - 2 ^ 128) ^^^ 0x87 else 2 * t

/-- The four tweaks of a slot. -/
def xtsTweaks (k2 : List Nat) (i : Nat) : List (List Nat) :=
  let t0 := ofLE (aesEnc k2 (toLE 16 i))
  let t1 := xtsMulAlpha t0
  let t2 := xtsMulAlpha t1
  [t0, t1, t2, xtsMulAlpha t2].map (toLE 16)

/-- AES-256-XTS encryption of a slot as one data unit of four blocks. -/
def xtsEnc (k1 k2 : List Nat) (i : Nat) (d : List Nat) : List Nat :=
  (List.zipWith (fun t b => xorBytes (aesEnc k1 (xorBytes b t)) t) (xtsTweaks k2 i)
    (piecesOf 16 4 d)).flatten

def xtsDec (k1 k2 : List Nat) (i : Nat) (d : List Nat) : List Nat :=
  (List.zipWith (fun t b => xorBytes (aesDec k1 (xorBytes b t)) t) (xtsTweaks k2 i)
    (piecesOf 16 4 d)).flatten

/-! ## GHASH (SP 800-38D, R326) -/

/-- The steps of a product in the field of GHASH; the first bit of a block has weight 2^127. -/
def ghashMulLoop : Nat → Nat → Nat → Nat → Nat
  | 0, _, _, z => z
  | n + 1, x, v, z =>
    ghashMulLoop n x (if v % 2 = 1 then v / 2 ^^^ (0xE1 * 2 ^ 120) else v / 2)
      (if x.testBit n then z ^^^ v else z)

def ghashMul (x y : Nat) : Nat := ghashMulLoop 128 x y 0

/-- GHASH of blocks, without a length block. -/
def ghash (h : Nat) : List (List Nat) → Nat → Nat
  | [], y => y
  | b :: bs, y => ghash h bs (ghashMul (y ^^^ ofBE b) h)

/-! ## CBC-MAC and CTR_DRBG (R320) -/

/-- CBC-MAC from a chaining value. -/
def cbcMac (key : List Nat) : List (List Nat) → List Nat → List Nat
  | [], c => c
  | b :: bs, c => cbcMac key bs (aesEnc key (xorBytes c b))

/-- The next `n` counter blocks encrypted, with the last counter. -/
def ctrBlocks (key : List Nat) : Nat → Nat → List Nat × Nat
  | 0, v => ([], v)
  | n + 1, v =>
    let v := (v + 1) % 2 ^ 128
    let r := ctrBlocks key n v
    (aesEnc key (toBE 16 v) ++ r.1, r.2)

/-- CTR_DRBG_Update (SP 800-90A): the new key and V. -/
def drbgUpdate (key : List Nat) (v : Nat) (data : List Nat) : List Nat × Nat :=
  let t := xorBytes (ctrBlocks key 3 v).1 data
  (t.take 32, ofBE (t.drop 32))

/-! ## SHA-384 (FIPS 180-4) -/

/-- The greatest `r` with `r ^ k ≤ n`, found bit by bit from bit `b - 1` down. -/
def rootBelow (k n : Nat) : Nat → Nat → Nat
  | 0, r => r
  | b + 1, r => rootBelow k n b (if (r + 2 ^ b) ^ k ≤ n then r + 2 ^ b else r)

/-- The first 64 bits of the fractional part of the `k`-th root of a number below 2^9. -/
def rootFraction (k n : Nat) : Nat := rootBelow k (n * 2 ^ (64 * k)) 70 0 % 2 ^ 64

/-- The first eighty primes. -/
def shaPrimes : List Nat :=
  ((List.range 410).drop 2).filter fun n => (List.range 21).all fun d => d < 2 || n ≤ d || n % d != 0

/-- The constants of the rounds: fractions of the cube roots of the first eighty primes. -/
def shaK : List Nat := shaPrimes.map (rootFraction 3)

/-- The initial value: fractions of the square roots of the ninth to sixteenth primes. -/
def shaInit : List Nat := ((shaPrimes.drop 8).take 8).map (rootFraction 2)

/-- Rotation right of a 64-bit word. -/
def ror64 (x n : Nat) : Nat := x / 2 ^ n + x % 2 ^ n * 2 ^ (64 - n)

def shaBig (a b c x : Nat) : Nat := ror64 x a ^^^ ror64 x b ^^^ ror64 x c
def shaSmall (a b c x : Nat) : Nat := ror64 x a ^^^ ror64 x b ^^^ (x / 2 ^ c)

/-- The message schedule, newest first. -/
def shaSchedule : Nat → List Nat → List Nat
  | 0, w => w
  | n + 1, w =>
    let g := fun k => w.getD (k - 1) 0
    shaSchedule n ((shaSmall 19 61 6 (g 2) + g 7 + shaSmall 1 8 7 (g 15) + g 16) % 2 ^ 64 :: w)

/-- The rounds of one block on the working variables. -/
def shaRounds : List (Nat × Nat) → List Nat → List Nat
  | [], s => s
  | (k, w) :: ks, s =>
    let v := fun i => s.getD i 0
    let ch := (v 4 &&& v 5) ^^^ ((2 ^ 64 - 1 - v 4) &&& v 6)
    let t1 := v 7 + shaBig 14 18 41 (v 4) + ch + k + w
    let mj := (v 0 &&& v 1) ^^^ (v 0 &&& v 2) ^^^ (v 1 &&& v 2)
    let t2 := shaBig 28 34 39 (v 0) + mj
    shaRounds ks [(t1 + t2) % 2 ^ 64, v 0, v 1, v 2, (v 3 + t1) % 2 ^ 64, v 4, v 5, v 6]

def shaBlock (h blk : List Nat) : List Nat :=
  let w := (shaSchedule 64 ((piecesOf 8 16 blk).map ofBE).reverse).reverse
  List.zipWith (fun a b => (a + b) % 2 ^ 64) h (shaRounds (shaK.zip w) h)

/-- SHA-384 of a byte string. -/
def sha384 (m : List Nat) : List Nat :=
  let n := m.length
  let z := (111 + 128 - n % 128) % 128
  let p := m ++ [0x80] ++ List.replicate z 0 ++ toBE 16 (8 * n)
  let h := (piecesOf 128 (p.length / 128) p).foldl shaBlock shaInit
  ((h.take 6).map (toBE 8)).flatten

/-! ## ECDSA over P-384 (FIPS 186-4) -/

def p384P : Nat := 2 ^ 384 - 2 ^ 128 - 2 ^ 96 + 2 ^ 32 - 1
def p384N : Nat :=
  0xffffffffffffffffffffffffffffffffffffffffffffffffc7634d81f4372ddf581a0db248b0a77aecec196accc52973
def p384B : Nat :=
  0xb3312fa7e23ee7e4988e056be3f82d19181d9c6efe8141120314088f5013875ac656398d8a2ed19d2a85c8edd3ec2aef
def p384Gx : Nat :=
  0xaa87ca22be8b05378eb1c71ef320ad746e1d3b628ba79b9859f741e082542a385502f25dbf55296c3a545e3872760ab7
def p384Gy : Nat :=
  0x3617de4a96262c6f5d9e98bf9292dc29f8f41dbd289a147ce9da3113b5f0b8c00a60b1ce1d7e819d7a431d7c90ea0e5f

/-- Modular power by squaring, over `n` bits of the exponent. -/
def powMod (m : Nat) : Nat → Nat → Nat → Nat
  | 0, _, _ => 1 % m
  | n + 1, b, e =>
    let r := powMod m n (b * b % m) (e / 2)
    if e % 2 = 1 then r * b % m else r

/-- The inverse modulo a prime. -/
def invMod (m x : Nat) : Nat := powMod m 384 (x % m) (m - 2)

def subMod (m a b : Nat) : Nat := (a + (m - b % m)) % m

/-- A point of the curve; none is the point at infinity. -/
abbrev EcPoint := Option (Nat × Nat)

/-- Addition of points. -/
def ecAdd (a b : EcPoint) : EcPoint :=
  match a, b with
  | none, q => q
  | p, none => p
  | some (x1, y1), some (x2, y2) =>
    let m := p384P
    if x1 = x2 ∧ (y1 + y2) % m = 0 then none
    else
      let l := if x1 = x2
        then subMod m (3 * x1 * x1) 3 * invMod m (2 * y1) % m
        else subMod m y2 y1 * invMod m (subMod m x2 x1) % m
      let x3 := subMod m (subMod m (l * l) x1) x2
      some (x3, subMod m (l * subMod m x1 x3) y1)

/-- A multiple of a point over `n` bits of the factor. -/
def ecMul : Nat → Nat → EcPoint → EcPoint
  | 0, _, _ => none
  | n + 1, k, p =>
    let r := ecMul n (k / 2) (ecAdd p p)
    if k % 2 = 1 then ecAdd r p else r

/-- The point lies on the curve. -/
def ecOn (x y : Nat) : Bool :=
  decide (x < p384P ∧ y < p384P ∧ y * y % p384P = (x * x * x + (p384P - 3) * x + p384B) % p384P)

/-- ECDSA verification of a digest of 48 bytes under a public key. -/
def ecdsaVerify (qx qy r s : Nat) (digest : List Nat) : Bool :=
  let n := p384N
  if r = 0 ∨ r ≥ n ∨ s = 0 ∨ s ≥ n ∨ ecOn qx qy = false then false
  else
    let z := ofBE digest
    let w := invMod n s
    let u1 := z * w % n
    let u2 := r * w % n
    match ecAdd (ecMul 384 u1 (some (p384Gx, p384Gy))) (ecMul 384 u2 (some (qx, qy))) with
    | none => false
    | some (x, _) => x % n == r

/-! ## CRC -/

/-- The steps of a reflected CRC over `n` bits. -/
def crcStep (poly : Nat) : Nat → Nat → Nat
  | 0, c => c
  | n + 1, c => crcStep poly n (if c % 2 = 1 then c / 2 ^^^ poly else c / 2)

/-- CRC-32C (R287): Castagnoli, reflected, initial value and final XOR all ones. -/
def crc32c (bs : List Nat) : Nat :=
  bs.foldl (fun c b => crcStep 0x82F63B78 8 (c ^^^ b)) 0xFFFFFFFF ^^^ 0xFFFFFFFF

end Sys2Proof.Machine
end

