-- ==== Sys2Proof/Machine/Code.lean ====
section
/-! DEFINITION. The Reed–Solomon code of a stored slot (R252–R257), and the line encodings and the
packed slot of the line packer (R285–R287). -/

namespace Sys2Proof.Machine

/-! ## Symbols (R252, R253) -/

/-- The nibble of device `d` in beat `t`. -/
def nibbleOf (s : Nat) (d t : Nat) : Nat :=
  if d < 8 then s / 2 ^ (8 * (4 * t + d / 2) + 4 * (d % 2)) % 16
  else s / 2 ^ (512 + 8 * t + 4 * (d % 2)) % 16

/-- The position of that nibble in a slot. -/
def nibblePos (d t : Nat) : Nat :=
  if d < 8 then 8 * (4 * t + d / 2) + 4 * (d % 2) else 512 + 8 * t + 4 * (d % 2)

/-- The symbol of device `d` in codeword `q`. -/
def symOf (s : Nat) (q d : Nat) : Nat :=
  nibbleOf s d (4 * q) + 16 * nibbleOf s d (4 * q + 1) + 256 * nibbleOf s d (4 * q + 2) +
    4096 * nibbleOf s d (4 * q + 3)

/-- The slot bits of a symbol of device `d` in codeword `q`. -/
def symBits (q d v : Nat) : Nat :=
  (List.range 4).foldl (fun a u => a + v / 16 ^ u % 16 * 2 ^ nibblePos d (4 * q + u)) 0

/-! ## GF(2^16) -/

/-- Multiplication by α. -/
def gfAlpha (a : Nat) : Nat := if a ≥ 2 ^ 15 then (2 * a) ^^^ 0x1100B else 2 * a

/-- Multiplication by α^i. -/
def gfAlphaN : Nat → Nat → Nat
  | 0, a => a
  | i + 1, a => gfAlphaN i (gfAlpha a)

/-- The product, over `n` bits of the first factor. -/
def gfMulN : Nat → Nat → Nat → Nat
  | 0, _, _ => 0
  | n + 1, a, b => (if a % 2 = 1 then b else 0) ^^^ gfMulN n (a / 2) (gfAlpha b)

def gfMul (a b : Nat) : Nat := gfMulN 16 a b

/-- The power a^(2^n - 2) by repeated squaring, the inverse for `n` = 16. -/
def gfInvLoop : Nat → Nat → Nat → Nat
  | 0, _, r => r
  | n + 1, a, r => gfInvLoop n (gfMul a a) (gfMul r (gfMul a a))

def gfInv (a : Nat) : Nat := gfInvLoop 15 a 1

def xorAll (l : List Nat) : Nat := l.foldl (fun a b => a ^^^ b) 0

/-- The two syndromes of codeword `q`. -/
def syndromes (s q : Nat) : Nat × Nat :=
  (xorAll ((List.range 10).map (symOf s q)),
   xorAll ((List.range 10).map fun j => gfAlphaN j (symOf s q j)))

/-- α^8 + α^9, the poison value of S1. -/
def poisonS1 : Nat := 0x300

/-- The check symbols of a codeword whose data symbols are in the slot (R254): c8 and c9. -/
def checkSyms (s q : Nat) : Nat × Nat :=
  let d0 := xorAll ((List.range 8).map (symOf s q))
  let d1 := xorAll ((List.range 8).map fun j => gfAlphaN j (symOf s q j))
  let c9 := gfMul (d1 ^^^ gfAlphaN 8 d0) (gfInv poisonS1)
  (d0 ^^^ c9, c9)

/-- R254: the stored slot of 64 bytes of data. -/
def encodeSlot (d : Line) : Slot :=
  let s := d.toNat
  BitVec.ofNat 640 (s + (List.range 4).foldl (fun a q =>
    let c := checkSyms s q
    a + symBits q 8 c.1 + symBits q 9 c.2) 0)

/-- R254: the poisoned slot. -/
def poisonSlot : Slot :=
  BitVec.ofNat 640 ((List.range 4).foldl (fun a q => a + symBits q 8 1 + symBits q 9 1) 0)

/-- The data of a slot. -/
def slotData (s : Slot) : Line := s.setWidth 512

/-! ## Decoding (R255, R257) -/

/-- The position at which a nonzero codeword decodes as a single-symbol error. -/
def singlePos (syn : Nat × Nat) : Option Nat :=
  if syn.1 = 0 then none
  else (List.range 10).find? fun i => gfAlphaN i syn.1 == syn.2

/-- The outcome of a decode. -/
inductive EccOut where
  | clean
  | poisoned
  /-- Corrected at a device position, with the corrected slot and the codewords in error. -/
  | corrected (s : Slot) (dev cw : Nat)
  /-- Corrected within a marked device. -/
  | marked (s : Slot) (dev : Nat)
  | uncorrectable (cw : Nat)
  /-- Second device under a mark, with the device, 15 where none is identified. -/
  | second (dev cw : Nat)
  deriving DecidableEq, Repr

/-- The four syndrome pairs of a slot. -/
def slotSyn (s : Slot) : List (Nat × Nat) := (List.range 4).map (syndromes s.toNat)

/-- The codewords in error, bit by bit. -/
def errorCw (syn : List (Nat × Nat)) : Nat :=
  (List.range 4).foldl (fun m q => if nth' syn q ≠ (0, 0) then m + 2 ^ q else m) 0
where
  /-- A syndrome pair by codeword. -/
  nth' (l : List (Nat × Nat)) (q : Nat) : Nat × Nat := l.getD q (0, 0)

/-- A slot with each codeword's S0 added at a position. -/
def correctAt (s : Slot) (dev : Nat) : Slot :=
  s ^^^ BitVec.ofNat 640 ((List.range 4).foldl (fun a q => a + symBits q dev (syndromes s.toNat q).1) 0)

/-- The one position at which every nonzero codeword decodes. -/
def commonPos (syn : List (Nat × Nat)) : Option Nat :=
  let nz := syn.filter (· ≠ (0, 0))
  match nz with
  | [] => none
  | y :: _ =>
    match singlePos y with
    | some p => if nz.all fun z => singlePos z == some p then some p else none
    | none => none

/-- R255, R257: the decode of a slot; `mark` is the erased device, if any. -/
def decodeSlot (mark : Option Nat) (s : Slot) : EccOut :=
  let syn := slotSyn s
  if syn.all (· == (0, 0)) then .clean
  else if syn.all (· == (0, poisonS1)) then .poisoned
  else
    let cw := errorCw syn
    match mark with
    | none =>
      match commonPos syn with
      | some p => .corrected (correctAt s p) p cw
      | none => .uncorrectable cw
    | some m =>
      if (syn.filter (· ≠ (0, 0))).all fun z => gfAlphaN m z.1 == z.2 then .marked (correctAt s m) m
      else .second ((commonPos syn).getD 15) cw

/-! ## Line encodings (R285, R286) -/

/-- Word `i` of a line, of `n` bytes. -/
def lineWord (d : Line) (n i : Nat) : Nat := d.toNat / 2 ^ (8 * n * i) % 2 ^ (8 * n)

/-- The delta of word `i`, modulo its width. -/
def deltaOf (d : Line) (n i : Nat) : Nat :=
  (lineWord d n i + (2 ^ (8 * n) - lineWord d n 0)) % 2 ^ (8 * n)

/-- A number modulo 2^(8n) lies in the signed range of `m` bytes. -/
def fitsSigned (n m v : Nat) : Bool :=
  decide (v < 2 ^ (8 * m - 1)) || decide (v ≥ 2 ^ (8 * n) - 2 ^ (8 * m - 1))

/-- Base `n`, delta `m`: the condition and the bytes. -/
def baseDelta (d : Line) (n m : Nat) : Option (List Nat) :=
  let ds := (List.range (64 / n - 1)).map fun i => deltaOf d n (i + 1)
  if ds.all (fitsSigned n m) then
    some (toLE n (lineWord d n 0) ++ (ds.map (toLE m)).flatten)
  else none

/-- The bytes of a line. -/
def lineBytes (d : Line) : List Nat := toLE 64 d.toNat

/-- The line of some bytes. -/
def bytesLine (b : List Nat) : Line := BitVec.ofNat 512 (ofLE b)

/-- The sparse encoding. -/
def sparseOf (d : Line) : Option (List Nat) :=
  let bs := lineBytes d
  let nz := bs.filter (· ≠ 0)
  if nz.length ≤ 21 then
    let map := (List.range 64).foldl (fun m b => if bs.getD b 0 ≠ 0 then m + 2 ^ b else m) 0
    some (toLE 8 map ++ nz)
  else none

/-- The bytes after the tag of encoding `e`, where its condition holds. -/
def encodeAs (d : Line) : Nat → Option (List Nat)
  | 0 => if d = 0 then some [] else none
  | 1 => if (List.range 8).all fun i => lineWord d 8 i == lineWord d 8 0
      then some (toLE 8 (lineWord d 8 0)) else none
  | 2 => baseDelta d 8 1
  | 3 => baseDelta d 4 1
  | 4 => baseDelta d 8 2
  | 5 => baseDelta d 8 3
  | 6 => sparseOf d
  | _ => none

/-- Bytes padded with zeros to `n`. -/
def padTo (n : Nat) (b : List Nat) : List Nat := b ++ List.replicate (n - b.length) 0

/-- R286: the field F of a line under the lowest tag that fits. -/
def encodeField (d : Line) : Option (List Nat) :=
  match (List.range 7).find? fun e => (encodeAs d e).isSome with
  | some e => (encodeAs d e).map fun b => padTo 30 (e :: b)
  | none => none

/-- The line fits in 30 bytes. -/
def fits (d : Line) : Bool := (encodeField d).isSome

/-- A number of `m` bytes sign-extended to `n` bytes. -/
def signExtend (n m v : Nat) : Nat :=
  if v ≥ 2 ^ (8 * m - 1) then v + 2 ^ (8 * n) - 2 ^ (8 * m) else v

/-- The decode of a base and its deltas. -/
def undelta (n m : Nat) (b : List Nat) : Line :=
  let base := ofLE (b.take n)
  let ds := (piecesOf m (64 / n - 1) (b.drop n)).map ofLE
  bytesLine ((base :: ds.map fun v => (base + signExtend n m v) % 2 ^ (8 * n)).map (toLE n)).flatten

/-- Places the nonzero bytes of the sparse encoding. -/
def unsparse (map : Nat) : Nat → Nat → List Nat → List Nat
  | 0, _, _ => []
  | n + 1, i, bs =>
    if map.testBit i then bs.headD 0 :: unsparse map n (i + 1) (bs.drop 1)
    else 0 :: unsparse map n (i + 1) bs

/-- The number of ones in the low `n` bits. -/
def popCount : Nat → Nat → Nat
  | 0, _ => 0
  | n + 1, x => x % 2 + popCount n (x / 2)

/-- Bytes after the tag that an encoding uses. -/
def encSize (e : Nat) (b : List Nat) : Nat :=
  match e with
  | 0 => 0 | 1 => 8 | 2 => 15 | 3 => 19 | 4 => 22 | 5 => 29
  | _ => 8 + popCount 64 (ofLE (b.take 8))

/-- R286: the decode of a field F of 30 bytes. -/
def decodeField (f : List Nat) : Option Line :=
  let e := f.headD 7
  let b := f.drop 1
  if e > 6 then none
  else if e = 6 ∧ popCount 64 (ofLE (b.take 8)) > 21 then none
  else if (b.drop (encSize e b)).any (· ≠ 0) then none
  else some (match e with
    | 0 => 0
    | 1 => bytesLine (List.replicate 8 (b.take 8)).flatten
    | 2 => undelta 8 1 b
    | 3 => undelta 4 1 b
    | 4 => undelta 8 2 b
    | 5 => undelta 8 3 b
    | _ => bytesLine (unsparse (ofLE (b.take 8)) 64 0 (b.drop 8)))

/-! ## Packed slots (R287) -/

/-- The check value of two lines. -/
def pairCheck (a b : Line) : Nat := crc32c (lineBytes a ++ lineBytes b)

/-- The packed slot of two lines that fit. -/
def packPair (a b : Line) : Option Line :=
  match encodeField a, encodeField b with
  | some x, some y => some (bytesLine (x ++ y ++ toLE 4 (pairCheck a b)))
  | _, _ => none

/-- The two lines of a packed slot, where both fields decode and the check value matches. -/
def unpackPair (d : Line) : Option (Line × Line) :=
  let bs := lineBytes d
  match decodeField (bs.take 30), decodeField ((bs.drop 30).take 30) with
  | some a, some b => if ofLE (bs.drop 60) = pairCheck a b then some (a, b) else none
  | _, _ => none

end Sys2Proof.Machine
end

