-- ==== Sys2Proof/Machine/Timing.lean ====
section
/-! DEFINITION. The timing-rule engine (R136, R160–R164): the constraints between the commands of a
subchannel, the earliest slot of a command, the ACT refusals (R156–R158, R213, R240), and what a command
does to the banks and to Row Guard (R205–R209, R213). Times are PHY cycles; a CTL cycle has four. -/

namespace Sys2Proof.Machine

/-! ## Timing fields (R162, R163) -/

/-- The timing fields as the registers hold them. -/
def timOf (e : Engine) (n : Nat) : Tim :=
  { trcd := rd e (CH_TIM0_TRCD n), trp := rd e (CH_TIM0_TRP n), trtp := rd e (CH_TIM0_TRTP n)
    twr := rd e (CH_TIM0_TWR n), trc := rd e (CH_TIM1_TRC n), tras := rd e (CH_TIM1_TRAS n)
    tppd := rd e (CH_TIM1_TPPD n), trrdS := rd e (CH_TIM2_TRRD_S n), trrdL := rd e (CH_TIM2_TRRD_L n)
    tfaw := rd e (CH_TIM2_TFAW n), trrdDlr := rd e (CH_TIM2_TRRD_DLR n)
    tccdS := rd e (CH_TIM3_TCCD_S n), tccdL := rd e (CH_TIM3_TCCD_L n)
    tccdLWr := rd e (CH_TIM3_TCCD_L_WR n), tccdDlr := rd e (CH_TIM3_TCCD_DLR n)
    twtrS := rd e (CH_TIM4_TWTR_S n), twtrL := rd e (CH_TIM4_TWTR_L n), trtw := rd e (CH_TIM4_TRTW n)
    rl := rd e (CH_TIM5_RL n), wl := rd e (CH_TIM5_WL n), gapRank := rd e (CH_TIM5_GAP_RANK n)
    gapTurn := rd e (CH_TIM5_GAP_TURN n), trfc1 := rd e (CH_TIM6_TRFC1 n)
    trfc2 := rd e (CH_TIM6_TRFC2 n), trfcsb := rd e (CH_TIM6_TRFCSB n)
    trfmab := rd e (CH_TIM7_TRFMAB n), tdrfm := rd e (CH_TIM7_TDRFM n), txs := rd e (CH_TIM7_TXS n)
    tzqcal := rd e (CH_TIM8_TZQCAL n), tzqlat := rd e (CH_TIM8_TZQLAT n), tmrd := rd e (CH_TIM8_TMRD n)
    txp := rd e (CH_TIM8_TXP n), trefsbrd := rd e (CH_TIM9_TREFSBRD n), trfmsb := rd e (CH_TIM9_TRFMSB n) }

/-- R162: the timing fields were written: the commands whose constraints may still run learn of the new values. -/
def timWritten (e : Engine) (n : Nat) : Engine :=
  let c := getChan e n
  let t := timOf e n
  putChan e n { c with subs := c.subs.map fun (s : SubCh) =>
    { s with log := s.log.map fun (d : DCmd) => { d with later := (4 * e.clk.cyc, t) :: d.later } } }

/-! ## Kinds -/

/-- CA cycles of a command (R160); ZQ commands and MPC are taken as one cycle. -/
def caCycles : DKind → Nat
  | .act | .rd | .rda | .wr | .wra | .mrw | .mrr => 2
  | _ => 1

def isRdKind : DKind → Bool
  | .rd | .rda | .mrr => true
  | _ => false

def isWrKind : DKind → Bool
  | .wr | .wra => true
  | _ => false

def isPreKind : DKind → Bool
  | .pre | .preab | .presb => true
  | _ => false

/-- Commands that need their banks precharged: ACT, refreshes and the rank-wide commands. -/
def afterPre : DKind → Bool
  | .act | .refab | .refsb | .rfmab | .rfmsb | .drfm | .sre | .pde | .mrw | .zqcal => true
  | _ => false

/-- Which banks of its physical rank a command acts on: one bank, one bank index of a logical rank or of
every logical rank, or all (R196, R213, R610). -/
inductive Scope where
  | one | sbRank | sbAll | all
  deriving DecidableEq, Repr

def scopeOf : DKind → Scope
  | .presb | .refsb => .sbAll
  | .rfmsb => .sbRank
  | .act | .rd | .rda | .wr | .wra | .pre | .drfm => .one
  | _ => .all

/-- Two commands of one physical rank act on a common bank. -/
def overlap (a b : DCmd) : Bool :=
  let s := scopeOf a.kind
  let t := scopeOf b.kind
  let anyRank := s == .all || s == .sbAll || t == .all || t == .sbAll
  let anyBank := s == .all || t == .all
  let anyBg := s != .one || t != .one
  (anyRank || a.rank == b.rank) && (anyBank || a.bank == b.bank) && (anyBg || a.bg == b.bg)

/-- The data burst of a CAS starts this long after it. -/
def casLat (t : Tim) (k : DKind) : Nat := if isRdKind k then t.rl else t.wl

/-- The value where a condition holds, else no wait. -/
def whenB (c : Bool) (n : Nat) : Nat := if c then n else 0

/-- R163: the constraints from command `a` to a later command `b` of the same subchannel, in PHY cycles, with the fields
`t`; `cb` is CID_BITS. An MRR counts as a RD. TXS and TXP hold back commands to the rank that leaves its state (DEDUCED:
a valid command is one to that rank). -/
def gaps (cb : Nat) (a b : DCmd) (t : Tim) : List Nat :=
  let pa := a.rank / 2 ^ cb
  let pb := b.rank / 2 ^ cb
  let same := pa == pb
  let bank := same && overlap a b
  let lr := a.rank == b.rank
  let bg := lr && a.bg == b.bg
  let ra := isRdKind a.kind
  let wa := isWrKind a.kind
  let rb := isRdKind b.kind
  let wb := isWrKind b.kind
  let casA := ra || wa
  let casB := rb || wb
  let wend := t.wl + 8
  [ whenB (a.kind == .act && casB && bank) t.trcd
  , whenB (a.kind == .act && isPreKind b.kind && bank) t.tras
  , whenB (a.kind == .act && b.kind == .act && bank) t.trc
  , whenB (a.kind == .act && b.kind == .act && lr && !bg) t.trrdS
  , whenB (a.kind == .act && b.kind == .act && bg) t.trrdL
  , whenB (a.kind == .act && b.kind == .act && same && !lr) t.trrdDlr
  , whenB (isPreKind a.kind && afterPre b.kind && bank) t.trp
  , whenB (isPreKind a.kind && isPreKind b.kind && same) t.tppd
  , whenB ((a.kind == .rd || a.kind == .mrr) && isPreKind b.kind && bank) t.trtp
  , whenB (a.kind == .rda && afterPre b.kind && bank) (t.trtp + t.trp)
  , whenB (a.kind == .wr && isPreKind b.kind && bank) (wend + t.twr)
  , whenB (a.kind == .wra && afterPre b.kind && bank) (wend + t.twr + t.trp)
  , whenB (casA && casB && lr && !bg && ra == rb) t.tccdS
  , whenB (ra && rb && bg) t.tccdL
  , whenB (wa && wb && bg) t.tccdLWr
  , whenB (casA && casB && same && !lr) t.tccdDlr
  , whenB (ra && wb && same) t.trtw
  , whenB (wa && rb && bg) (wend + t.twtrL)
  , whenB (wa && rb && same && !bg) (wend + t.twtrS)
  , whenB (casA && casB)
      (casLat t a.kind + 8 +
        (if same then 0 else if ra == rb then t.gapRank else t.gapTurn) - casLat b.tim b.kind)
  , whenB (a.kind == .refab && same) (4 * if a.fine then t.trfc2 else t.trfc1)
  , whenB (a.kind == .refsb && bank && (b.kind == .act || b.kind == .refsb)) (4 * t.trfcsb)
  , whenB (a.kind == .refsb && bank && b.kind == .drfm) (4 * t.trfcsb)
  , whenB (a.kind == .refsb && same && !bank && b.kind == .act) (4 * t.trefsbrd)
  , whenB (a.kind == .rfmab && same) (4 * t.trfmab)
  , whenB (a.kind == .drfm && same) (4 * t.tdrfm)
  , whenB (a.kind == .rfmsb && bank && b.kind == .act) (4 * t.trfmsb)
  , whenB (a.kind == .srx && same) (4 * t.txs)
  , whenB (a.kind == .zqcal && same && b.kind == .zqlat) (4 * t.tzqcal)
  , whenB (a.kind == .zqlat) (4 * t.tzqlat)
  , whenB (a.kind == .mrw && same) (4 * t.tmrd)
  , whenB (a.kind == .pdx && same) (4 * t.txp) ]

/-- R162: a constraint that still ran when its field was written completes under the longer value. `vs` are the values
that hold before the writes `ws`, which stand oldest first. -/
def lengthen (t0 : Nat) (f : Tim → List Nat) (vs : List Nat) (ws : List (Nat × Tim)) : List Nat :=
  ws.foldl (fun vs w => List.zipWith (fun v x => if t0 + v > w.1 then max v x else v) vs (f w.2)) vs

/-- The least PHY cycles from command `a` to a later command `b`, its CA cycles included (R160, R162, R163). -/
def gap (cb : Nat) (a b : DCmd) : Nat :=
  (lengthen a.t (gaps cb a b) (gaps cb a b a.tim) a.later.reverse).foldl max (caCycles a.kind)

/-- TFAW: the earliest slot of an ACT after the last four of its logical rank; the log is newest first. -/
def fawFrom (log : List DCmd) (b : DCmd) : Nat :=
  if b.kind = .act then
    match (log.filter fun (a : DCmd) => a.kind == .act && a.rank == b.rank).drop 3 with
    | a :: _ => (lengthen a.t (fun t => [t.tfaw]) [a.tim.tfaw] a.later.reverse).foldl (fun m v => max m (a.t + v)) 0
    | [] => 0
  else 0

/-- The earliest PHY cycle at or after `t` in which `b` breaks no constraint. -/
def earliest (cb : Nat) (log : List DCmd) (b : DCmd) (t : Nat) : Nat :=
  log.foldl (fun m a => max m (a.t + gap cb a b)) (max t (fawFrom log b))

/-! ## Time -/

/-- The first PHY cycle of the current CTL cycle. -/
def nowPhy (e : Engine) : Nat := 4 * e.clk.cyc

/-- Time passes until the CTL cycle of a PHY cycle. -/
def toPhy (e : Engine) (t : Nat) : Engine := tick e (t / 4 - e.clk.cyc)

/-! ## Row Guard (R205–R209) -/

/-- The mitigation level M (R206). -/
def mitLevel (e : Engine) (n : Nat) : Nat := rd e (CH_RG_CTRL_THRESH n) / 2 - 8

/-- RG_MODE as it is in effect (R209, R212). -/
def rgMode (e : Engine) (n : Nat) : Nat := (getChan e n).rgMode

/-- The lowest count of a table, 0 for an empty one. -/
def lowCount : List RgRow → Nat
  | [] => 0
  | [r] => r.count
  | r :: rs => min r.count (lowCount rs)

/-- R205: the entry with the lowest count, lowest index on a tie, is replaced. -/
def rgReplace (row : Nat) (low : Nat) : List RgRow → List RgRow
  | [] => []
  | r :: rs => if r.count = low then ⟨row, low + 1, false, false⟩ :: rs else r :: rgReplace row low rs

/-- R205: an ACT of a row in a table. -/
def rgCount (row : Nat) (t : List RgRow) : List RgRow :=
  if t.any fun r => r.row == row then
    t.map fun (r : RgRow) => if r.row = row then { r with count := r.count + 1 } else r
  else if t.length < 64 then t ++ [⟨row, 1, false, false⟩]
  else rgReplace row (lowCount t) t

/-- R206: entries at M and above are marked pending. -/
def rgMark (m : Nat) (t : List RgRow) : List RgRow :=
  t.map fun (r : RgRow) => if r.count ≥ m ∧ r.pending = false then { r with pending := true, sampled := false } else r

/-- The bank is mitigation-pending (R157). -/
def bankPending (b : Bank) : Bool := b.rg.any (·.pending)

/-- R209: a bank reaches its cap: the flag, PRANK and the count. -/
def rgCapFlag (e : Engine) (n prank : Nat) : Engine :=
  let f := if rgMode e n = 0 then CH_MNT_STATUS_RG_CAP n else CH_MNT_STATUS_RG_SAT n
  inc (sqSet e (CH_MNT_STATUS n) [(f, 1), (CH_MNT_STATUS_PRANK n, prank)]) (CH_CNT_RG_SAT n)

/-- R205, R206, R209, R213: an ACT to a bank. -/
def rgAct (e : Engine) (n : Nat) (l : Loc) : Engine :=
  let c := getChan e n
  let k := bankKey l
  let b := getBank c k
  let en := on e (CH_RG_CTRL_RG_EN n)
  let mode := rgMode e n
  let m := mitLevel e n
  let off := mode == 2 || (mode == 1 && b.capped)
  let rg := if off then b.rg else rgCount l.row b.rg
  let rg := if en && !off then
      rg.map fun (r : RgRow) => if r.row = l.row ∧ r.count = m ∧ r.pending = false
        then { r with pending := true, sampled := false } else r
    else rg
  let b := { b with row := some l.row, rg := rg, n := b.n + 1, raa := b.raa + bit (on e (CH_RG_RFM_RFM_REQ n)) }
  let cap := en && decide (mode ≤ 1) && !b.capped && decide (b.n ≥ 32 * m)
  let b := if cap then { b with capped := true } else b
  let e := putChan e n (putBank c k b)
  if cap then rgCapFlag e n (prankIx e l.rank) else e

/-! ## What a command does -/

/-- The bank keys of a physical rank on a subchannel, with their logical rank, bank group and bank. -/
def rankBanks (e : Engine) (ch sc prank : Nat) : List Loc :=
  (List.range (2 ^ cidBits e)).flatMap fun c =>
    (List.range 8).flatMap fun g => (List.range 4).map fun b =>
      ⟨ch, sc, prank * 2 ^ cidBits e + c, g, b, 0, 0⟩

/-- The banks that a command acts on. -/
def cmdBanks (e : Engine) (ch sc : Nat) (d : DCmd) : List Loc :=
  (rankBanks e ch sc (prankIx e d.rank)).filter fun (l : Loc) =>
    match scopeOf d.kind with
    | .one => l.rank == d.rank && l.bg == d.bg && l.bank == d.bank
    | .sbRank => l.rank == d.rank && l.bank == d.bank
    | .sbAll => l.bank == d.bank
    | .all => true

/-- A bank is closed; the PRE that closes a pending row samples it (R206). So does a PREsb, or the auto-precharge of a CAS
(DEDUCED: the rule names PRE and PREab, and each of these closes the row as they do). -/
def closeBank (b : Bank) : Bank :=
  match b.row with
  | none => b
  | some w =>
    if b.rg.any fun r => r.row == w && r.pending then
      { b with row := none, rg := b.rg.map fun (r : RgRow) => { r with sampled := r.row == w } }
    else { b with row := none }

/-- Changes some banks of a channel. -/
def mapBanks (c : Chan) (ls : List Loc) (f : Bank → Bank) : Chan :=
  ls.foldl (fun c l => putBank c (bankKey l) (f (bankAt c l))) c

/-- R207: the DRFM of a bank completes the mitigation of its sampled row. A free entry of the table counts 0 (DEDUCED:
the note to R208 sums the counts of all 64 entries). -/
def drfmBank (b : Bank) : Bank :=
  let low := if b.rg.length < 64 then 0 else lowCount b.rg
  { b with rg := b.rg.map fun (r : RgRow) =>
      if r.sampled then { r with count := low, pending := false, sampled := false } else r }

/-- The credits of a completed REFab or unit (R194). -/
def gran (e : Engine) (n : Nat) : Nat := rd e (CH_REF_CTRL_GRAN n)

/-- The CTL cycles for which a maintenance command keeps its physical rank busy (R216). -/
def maintBusy (d : DCmd) : Nat :=
  match d.kind with
  | .refab => if d.fine then d.tim.trfc2 else d.tim.trfc1
  | .refsb => d.tim.trfcsb
  | .rfmab => d.tim.trfmab
  | .rfmsb => d.tim.trfmsb
  | .drfm => d.tim.tdrfm
  | _ => 0

/-- R216: a rank is busy for `k` CTL cycles from cycle `t`, counted once. -/
def markBusy (c : Chan) (prank sc t k : Nat) : Chan :=
  let p := getPRank c prank
  let b := nth p.busyTo sc 0
  let c := { c with busy := c.busy + (t + k - max t b) }
  putPRank c prank { p with busyTo := setNth p.busyTo sc (max b (t + k)) }

/-- The class of R147's commands that a command counts in. -/
def bgClass : DKind → Option Nat
  | .act => some 0
  | .pre => some 1
  | .rd | .rda => some 2
  | .wr | .wra => some 3
  | _ => none

/-- The command `d` is logged on its subchannel and acts on the banks. -/
def issueCmd (e : Engine) (ch sc : Nat) (d : DCmd) : Engine :=
  let c := getChan e ch
  let s := getSub c sc
  let keep := s.log.filter fun (a : DCmd) => decide (d.t < a.t + 16384)
  let c := putSub c sc { s with log := d :: keep, lastBg := match bgClass d.kind with
    | some k => setNth s.lastBg k (some d.bg)
    | none => s.lastBg }
  let ls := cmdBanks e ch sc d
  let rai := rd e (CH_RG_RFM_RAAIMT ch)
  let lower := fun (b : Bank) => { b with raa := b.raa - rai }
  let c := match d.kind with
    | .pre | .preab | .presb | .rda | .wra => mapBanks c ls closeBank
    | .refab | .refsb | .rfmsb => mapBanks c ls lower
    | .drfm => mapBanks c ls drfmBank
    | _ => c
  let low := match d.kind with
    | .refab | .refsb | .rfmsb =>
      ls.map fun (l : Loc) => (bankKey l, min rai (bankAt (getChan e ch) l).raa)
    | _ => []
  let m := match d.kind with
    | .refab | .refsb | .rfmab | .rfmsb | .drfm =>
      [⟨d.t, prankIx e d.rank, d.kind, ⟨ch, sc, d.rank, d.bg, d.bank, d.row, 0⟩, low⟩]
    | _ => []
  let c := { c with
    maintLog := m ++ c.maintLog.filter (fun (a : MaintLog) => decide (d.t < a.t + 1024)),
    arb := { c.arb with wd := e.clk.nominal } }
  let e := putChan e ch (markBusy c (prankIx e d.rank) sc (d.t / 4) (maintBusy d))
  let e := match d.kind with
    | .act => rgAct e ch ⟨ch, sc, d.rank, d.bg, d.bank, d.row, 0⟩
    | _ => e
  e

/-- A command of a channel with the timing fields in force. -/
def mkCmd (e : Engine) (n : Nat) (k : DKind) (l : Loc) (t : Nat) : DCmd :=
  let cas := isWrKind k || k == .rd || k == .rda
  ⟨k, l.rank, l.bg, l.bank, l.row, t, gran e n != 0, timOf e n, if cas then l.col * 16 else 0,
    if k = .drfm then rd e (CH_RG_CTRL_BRC n) else 0, []⟩

/-! ## Refusals and holds -/

/-- DUE of a physical rank (CH_REF_STATE). -/
def dueF (n i : Nat) : Fld := ⟨CH_REF_STATE n, 8 * i + 5, 8 * i + 5⟩
def urgentF (n i : Nat) : Fld := ⟨CH_REF_STATE n, 8 * i + 6, 8 * i + 6⟩
def overdueF (n i : Nat) : Fld := ⟨CH_REF_STATE n, 8 * i + 7, 8 * i + 7⟩
def debtF (n i : Nat) : Fld := ⟨CH_REF_STATE n, 8 * i + 4, 8 * i⟩

/-- D of a physical rank: five bits in two's complement. -/
def debt (e : Engine) (n i : Nat) : Int :=
  let v := rd e (debtF n i)
  if v ≥ 16 then (v : Int) - 32 else v

def setDebt (e : Engine) (n i : Nat) (d : Int) : Engine := wr e (debtF n i) ((d + 32).toNat % 32)

/-- The unclassified alert, or the parity alert, of a physical rank's module slot; alert back-offs in
progress stand under the slot plus 2. -/
def alertOf (e : Engine) (c : Chan) (rank : Nat) : Option Alert := tlookup c.alerts (slotOf (gcfg e) rank)

/-- R214, R240: every command to the ranks of a slot with an alert is held from the CTL cycle after the
sampling until it is classified, and through a parity recovery. -/
def heldAt (e : Engine) (c : Chan) (rank t : Nat) : Bool :=
  match alertOf e c rank with
  | some a => !a.backoff && decide (t ≥ 4 * (a.at_ + 1))
  | none => false

/-- R158, R214: ACTs are refused until TRFMAB after the last RFMab of a back-off. -/
def abRefused (e : Engine) (c : Chan) (rank t : Nat) : Bool :=
  let s := slotOf (gcfg e) rank
  (match tlookup c.alerts s with
    | some a => decide (t ≥ 4 * (a.at_ + 1))
    | none => false) ||
  (match tlookup c.alerts (s + 2) with
    | some a => match a.upto with
      | some u => decide (t < u)
      | none => true
    | none => false)

/-- R272: the refusals of a soft repair: the bank once MEn has closed it, and the physical rank on that subchannel from
the declared point to the exit. A write-out goes on to the bank past the exit (R273). -/
def repairRefused (e : Engine) (c : Chan) (l : Loc) : Bool :=
  match c.repair with
  | some r => l.sc == r.loc.sc && if r.phase = 2 then prankIx e l.rank == prankIx e r.loc.rank
      else r.phase != 0 && !c.arb.fatal && bankKey l == bankKey r.loc
  | none => false

/-- R156: a refresh is posted due for the rank, or for the bank index of the next REFsb. -/
def dueRefused (e : Engine) (n : Nat) (c : Chan) (l : Loc) : Bool :=
  let i := prankIx e l.rank
  on e (CH_REF_CTRL_REF_EN n) && on e (dueF n i) && (gran e n != 2 || l.bank == (getPRank c i).unit)

/-- Who issues a command. -/
inductive Who where
  | sched | me | ts
  deriving DecidableEq, Repr

/-- R209: the bank is capped in Alone mode, and R213: its count has reached RAAMMT. -/
def bankShut (e : Engine) (n : Nat) (b : Bank) : Bool × Bool :=
  let en := on e (CH_RG_CTRL_RG_EN n)
  (en && rgMode e n == 0 && b.capped,
    en && on e (CH_RG_RFM_RFM_REQ n) && decide (b.raa ≥ rd e (CH_RG_RFM_RAAMMT n)))

/-- R156, R157, R209, R211, R213, R214: a requester's ACT to a location is refused. R156 is of the scheduler alone, R157
of everyone but MEn, and the fatal write-out alone is exempt from R157 and R209. -/
def actRefused (e : Engine) (n : Nat) (who : Who) (c : Chan) (l : Loc) (t : Nat) : Bool :=
  let b := bankAt c l
  let exempt := who == .sched && c.arb.fatal && isSafe e
  let shut := bankShut e n b
  (who == .sched && dueRefused e n c l) || abRefused e c l.rank t ||
    (!exempt && ((who != .me && bankPending b) || shut.1)) || shut.2

/-- R200: a deferred DRFM waits on the rank: no other command reaches it (R30). -/
def deferredHolds (e : Engine) (c : Chan) (rank : Nat) : Bool :=
  (getPRank c (prankIx e rank)).deferred.isSome

/-- The rank takes commands: it is neither in self-refresh nor in power-down. -/
def rankAwake (e : Engine) (c : Chan) (rank : Nat) : Bool :=
  let r := getPRank c (prankIx e rank)
  !r.pd && !r.sr

/-- The scheduler's command is allowed at a PHY cycle by the timing-rule engine (R136). -/
def allowed (e : Engine) (n sc : Nat) (k : DKind) (l : Loc) (t : Nat) : Bool :=
  let c := getChan e n
  decide (earliest (cidBits e) (getSub c sc).log (mkCmd e n k l t) t ≤ t) &&
    !heldAt e c l.rank t && !repairRefused e c l && !deferredHolds e c l.rank &&
    rankAwake e c l.rank && !(k == .act && actRefused e n .sched c l t)

/-- A command that is inserted ahead of the holder's (R200, R241): its slot counts as MEn's, so the watchdog of another
holder does not restart. -/
def insertAt (e : Engine) (n sc : Nat) (k : DKind) (l : Loc) : Engine :=
  let wd := (getChan e n).arb.wd
  let t := earliest (cidBits e) (getSub (getChan e n) sc).log (mkCmd e n k l 0) (nowPhy e)
  let e := issueCmd (toPhy e t) n sc (mkCmd e n k { l with sc := sc } t)
  let c := getChan e n
  if rd e (CH_ARB_STATE_HOLDER n) = 2 then e else putChan e n { c with arb := { c.arb with wd := wd } }

/-- The same on both subchannels. -/
def insertBoth (e : Engine) (n : Nat) (k : DKind) (l : Loc) : Engine := insertAt (insertAt e n 0 k l) n 1 k l

/-- Changes one physical rank of a channel. -/
def mapPRank (e : Engine) (n i : Nat) (f : PRank → PRank) : Engine :=
  let c := getChan e n
  putChan e n (putPRank c i (f (getPRank c i)))

/-- R200: the first slot in which the deferred DRFM of a physical rank is legal, where one waits and no alert holds it. -/
def deferredSlot (e : Engine) (n i : Nat) : Option Nat :=
  let c := getChan e n
  (getPRank c i).deferred.bind fun l =>
    let u := earliest (cidBits e) (getSub c l.sc).log (mkCmd e n .drfm l 0) (nowPhy e)
    if heldAt e c l.rank u then none else some u

/-- R200: the deferred DRFM of a physical rank issues where its first legal slot is no later than `t`. -/
def placeOne (e : Engine) (n t i : Nat) : Engine :=
  match (getPRank (getChan e n) i).deferred, deferredSlot e n i with
  | some l, some u =>
    if u ≤ t then inc (mapPRank (insertAt e n l.sc .drfm l) n i fun p => { p with deferred := none }) (CH_CNT_MIT n)
    else e
  | _, _ => e

/-- The physical rank whose deferred command has the first slot of those no later than `t`. -/
def firstDeferred (e : Engine) (n t : Nat) : Option Nat :=
  (((List.range 4).filterMap fun i => (deferredSlot e n i).map fun u => (u, i)).foldl
    (fun (m : Option (Nat × Nat)) x => match m with
      | some y => some (if x.1 < y.1 then x else y)
      | none => if x.1 ≤ t then some x else none) none).map (·.2)

/-- The deferred commands, at most `k` of them, in the order of their slots. -/
def placeEach (n t : Nat) : Nat → Engine → Engine
  | 0, e => e
  | k + 1, e => match firstDeferred e n t with
    | some i => placeEach n t k (placeOne e n t i)
    | none => e

/-- R200: the deferred commands whose slot has come go ahead of the holder's command for a slot. -/
def placeDeferred (e : Engine) (n t : Nat) : Engine :=
  if (getChan e n).pranks.any fun p => p.deferred.isSome then placeEach n t 4 e else e

/-- MEn or TSn issues a command on a subchannel in its first legal slot, and time passes to it. -/
def issueAt (e : Engine) (n sc : Nat) (k : DKind) (l : Loc) : Engine :=
  let slot := fun (e : Engine) => earliest (cidBits e) (getSub (getChan e n) sc).log (mkCmd e n k l 0) (nowPhy e)
  let e := placeDeferred e n (slot e)
  let t := slot e
  issueCmd (toPhy e t) n sc (mkCmd e n k { l with sc := sc } t)

/-- The same on both subchannels. -/
def issueBoth (e : Engine) (n : Nat) (k : DKind) (l : Loc) : Engine :=
  issueAt (issueAt e n 0 k l) n 1 k l

/-- The first RANK value of a physical rank. -/
def rankLoc (e : Engine) (n prank bank : Nat) : Loc := ⟨n, 0, prank * 2 ^ cidBits e, 0, bank, 0, 0⟩

/-- R464: the next command to a powered-down rank is preceded by PDX. -/
def wakeRank (e : Engine) (n i : Nat) : Engine :=
  if (getPRank (getChan e n) i).pd then
    let e := issueBoth e n .pdx (rankLoc e n i 0)
    mapPRank e n i fun p => { p with pd := false }
  else e

/-- Some bank of a physical rank, of a bank index where one is given, is open. -/
def rankOpen (e : Engine) (n prank : Nat) (bank : Option Nat) : Bool :=
  [0, 1].any fun sc => (rankBanks e n sc prank).any fun (l : Loc) =>
    (bank.isNone || bank == some l.bank) && (bankAt (getChan e n) l).row.isSome

/-- Every bank of the channel is precharged (R143, R168). -/
def allClosed (e : Engine) (n : Nat) : Bool := (getChan e n).banks.all fun p => p.2.row.isNone

/-! ## Ranks and modules in service -/

/-- CHn_RESET_N of a module slot is high (R59, R64). -/
def resetHigh (e : Engine) (n slot : Nat) : Bool := nth e.pins.chReset (2 * n + slot) false

/-- Two modules per channel are configured: in GC_GRIST_CTRL, or for it in the boot configuration until Grist runs. -/
def twoSlots (e : Engine) : Bool :=
  on e GC_GRIST_CTRL_SLOT_BITS ||
    (!on e GC_GRIST_CTRL_GRIST_EN && e.boot.recs.any fun x => x.1 == 0x80 && x.2.2.getLsbD 11)

/-- CHn_RESET_N of the modules of a channel is driven. With one module per channel the line of slot 1 stays low
(R60). Reset takes the RCDs out of parity checking and the devices out of automatic error check and scrub. -/
def driveReset (e : Engine) (n : Nat) (b : Bool) : Engine :=
  let l := setNth e.pins.chReset (2 * n) b
  let c := getChan e n
  let e := if b then e else putChan e n { c with
    rcd := [⟨false, 0⟩, ⟨false, 0⟩], pranks := c.pranks.map fun (p : PRank) => { p with ecsAuto := false } }
  { e with pins := { e.pins with
      chReset := setNth l (2 * n + 1) (b && twoSlots e) } }

/-- The channel's devices take commands: clocks run, CHn_RESET_N is released. -/
def chanLive (e : Engine) (n : Nat) : Bool := clocked e && resetHigh e n 0

/-- R278: the physical rank lies in a failed unit whose copy is complete. -/
def rankSpared (e : Engine) (n i : Nat) : Bool :=
  let s := spareCfg e
  s.active && s.failCh == n && decide (unitLines (gcfg e) s ≤ s.ptr) &&
    (!s.rankScope || (cidBits e == 0 && s.failRank == i))

/-- A physical rank is used by the configuration and is neither in self-refresh nor spared out. -/
def rankServes (e : Engine) (n i : Nat) : Bool :=
  decide (i < pranks e) && !(getPRank (getChan e n) i).sr && !rankSpared e n i

/-- No hold of an alert and no deferred command stands on a physical rank (R30, R240). -/
def rankFree (e : Engine) (n i : Nat) : Bool :=
  let c := getChan e n
  let l := rankLoc e n i 0
  !heldAt e c l.rank (nowPhy e) && !deferredHolds e c l.rank

/-- MEn may issue commands to a physical rank: no hold and no deferred command stand in the way (R30, R240). -/
def meMay (e : Engine) (n i : Nat) : Bool :=
  rankServes e n i && rankFree e n i

/-- The physical ranks of a module slot. -/
def slotRanks (e : Engine) (s : Nat) : List Nat :=
  (List.range (pranks e)).filter fun i => slotOf (gcfg e) (i * 2 ^ cidBits e) == s

/-- A command of MEn or TSn on a subchannel is legal in the next CTL cycle. -/
def soonLegal (e : Engine) (n sc : Nat) (k : DKind) (l : Loc) : Bool :=
  decide (earliest (cidBits e) (getSub (getChan e n) sc).log (mkCmd e n k l 0) 0 ≤ nowPhy e + 7)

end Sys2Proof.Machine
end

