-- ==== Sys2Proof/Machine/SecOps.lean ====
section
/-! DEFINITION. Stored slots and metadata (R324–R331, R336): DRAM contents, encryption of a slot, MACs,
the counter tree and the Cask. Addresses are line addresses. -/

namespace Sys2Proof.Machine

/-! ## DRAM -/

/-- What an unwritten slot of DRAM reads as. -/
def dramDefault (d : Dram) (k : Nat) : Slot := Config.powerUp (tget 0 d.epoch (cellChan k)) k

/-- The slot of a key in DRAM, with the writes of the current step. -/
def dramGet (d : Dram) (e : Engine) (k : Nat) : Slot :=
  match e.store.find? fun p => p.1 == k with
  | some p => p.2
  | none => tget (dramDefault d k) d.cells k

/-- The slot at a location in DRAM. -/
def dramAt (d : Dram) (e : Engine) (l : Loc) : Slot := dramGet d e (locKey l)

/-- A slot is written to DRAM. -/
def dramPut (e : Engine) (l : Loc) (s : Slot) : Engine := { e with store := (locKey l, s) :: e.store }

/-- The newest stored form of a slot: a queued write (R17), or DRAM. -/
def newestAt (d : Dram) (e : Engine) (l : Loc) : Slot :=
  match findWrite (getChan e l.ch) l with
  | some w => w.slot
  | none => dramAt d e l

/-- A slot as a read returns it, without any error of the devices. -/
def gotOf (s : Slot) : Got :=
  match decodeSlot none s with
  | .clean => .data (slotData s)
  | .poisoned => .poison
  | .corrected t _ _ => .data (slotData t)
  | .marked t _ => .data (slotData t)
  | _ => .ue

/-! ## Keys and slots (R319, R324) -/

def noKeys : Keys := ⟨0, 0, 0, 0⟩
def keysOf (e : Engine) (ctx : Nat) : Keys := tget noKeys e.sec.keys ctx

def keyBytes (k : BitVec 256) : List Nat := toLE 32 k.toNat

/-- The 128-bit value i of R324: line address, context, KIND and parent version. -/
def tweakOf (la ctx kind pv : Nat) : Nat :=
  la % 2 ^ 38 + ctx % 2 ^ 12 * 2 ^ 38 + kind % 4 * 2 ^ 50 + pv % 2 ^ 63 * 2 ^ 64

/-- Encryption of a stored slot under a context. -/
def encLine (k : Keys) (i : Nat) (d : Line) : Line :=
  bytesLine (xtsEnc (keyBytes k.k1) (keyBytes k.k2) i (lineBytes d))

def decLine (k : Keys) (i : Nat) (d : Line) : Line :=
  bytesLine (xtsDec (keyBytes k.k1) (keyBytes k.k2) i (lineBytes d))

/-- A data line as it is stored: as received in Open mode, else under its context (R324). -/
def sealData (e : Engine) (mode ctx la : Nat) (d : Line) : Line :=
  if mode = 0 then d else encLine (keysOf e ctx) (tweakOf la ctx 0 0) d

def openData (e : Engine) (mode ctx la : Nat) (d : Line) : Line :=
  if mode = 0 then d else decLine (keysOf e ctx) (tweakOf la ctx 0 0) d

/-- A metadata line under CTX 0. -/
def sealMeta (e : Engine) (la kind pv : Nat) (d : Line) : Line :=
  encLine (keysOf e 0) (tweakOf la 0 kind pv) d

def openMeta (e : Engine) (la kind pv : Nat) (d : Line) : Line :=
  decLine (keysOf e 0) (tweakOf la 0 kind pv) d

/-- R326: the 56-bit MAC of a stored slot; zero is stored as 1. -/
def macOf (k : Keys) (la ctx : Nat) (fresh : Bool) (ver : Nat) (cipher : Line) : Nat :=
  let a := tweakOf la ctx 0 ver + (if fresh then 2 ^ 52 else 0)
  let y := ghash k.h.toNat (toLE 16 a :: piecesOf 16 4 (lineBytes cipher)) 0
  let m := ofLE ((aesEnc (keyBytes k.k3) (toBE 16 y)).take 7)
  if m = 0 then 1 else m

/-! ## Areas (R106, R288, R325, R327) -/

/-- The first line of the MAC area. -/
def macArea (e : Engine) : Nat := let g := gcfg e; dataTop g + scRows g * sliceLines g

/-- The first line of the counter area. -/
def ctrArea (e : Engine) : Nat := let g := gcfg e; macArea e + g.macRows * sliceLines g

/-- The first line above the counter area. -/
def metaTop (e : Engine) : Nat := let g := gcfg e; ctrArea e + g.ctrRows * sliceLines g

/-- The size-class slot of a line (R288). -/
def scLa (e : Engine) (la : Nat) : Nat := dataTop (gcfg e) + la / 512

/-- The bits of a line's pair in its size-class slot: bit of 2k + 1, bit of 2k. -/
def scBits (d : Line) (la : Nat) : Nat := d.toNat / 2 ^ (la % 512 / 2 * 2) % 4

def setScBits (d : Line) (la v : Nat) : Line :=
  let p := la % 512 / 2 * 2
  BitVec.ofNat 512 (d.toNat - d.toNat / 2 ^ p % 4 * 2 ^ p + v % 4 * 2 ^ p)

/-- The MAC index of a line of a region (R325). -/
def macIx (r : Region) (la : Nat) : Nat := r.macBase * 64 + (la - r.base * 64)

def macLa (e : Engine) (j : Nat) : Nat := macArea e + j / 9

/-- MAC p of a MAC line. -/
def macAt (d : Line) (p : Nat) : Nat := d.toNat / 2 ^ (56 * p) % 2 ^ 56

def setMacAt (d : Line) (p v : Nat) : Line :=
  BitVec.ofNat 512 (d.toNat - macAt d p * 2 ^ (56 * p) + v % 2 ^ 56 * 2 ^ (56 * p))

/-- The check byte of a MAC or counter line. -/
def checkByte (d : Line) : Nat := d.toNat / 2 ^ 504

/-- log2 of S (R327). -/
def freshLog (e : Engine) : Nat := rd e CRY_CTRL_FRESH_LOG2

/-- log2 of the lines of level `l`, from 1. -/
def levelLog (e : Engine) (l : Nat) : Nat := freshLog e - 6 * l

/-- The top level: the first with at most 64 lines, below `n` further levels. -/
def topFrom (e : Engine) : Nat → Nat → Nat
  | 0, l => l
  | n + 1, l => if levelLog e l ≤ 6 then l else topFrom e n (l + 1)

def topLevel (e : Engine) : Nat := topFrom e 6 1

/-- The first line of a level's counter lines. -/
def levelBase (e : Engine) : Nat → Nat
  | 0 => ctrArea e
  | 1 => ctrArea e
  | l + 2 => levelBase e (l + 1) + 2 ^ levelLog e (l + 1)

def nodeLa (e : Engine) (l n : Nat) : Nat := levelBase e l + n

/-- Lines of the whole tree. -/
def treeLines (e : Engine) : Nat :=
  if freshLog e = 0 then 0
  else ((List.range (topLevel e)).map fun i => 2 ^ levelLog e (i + 1)).foldl (· + ·) 0

/-- The Fresh index of a line of a region (R325). -/
def freshIx (r : Region) (la : Nat) : Nat := r.freshBase * 64 + (la - r.base * 64)

/-- The level and node of a counter line. -/
def nodeOf (e : Engine) (la : Nat) : Option (Nat × Nat) :=
  ((List.range (topLevel e)).map (· + 1)).findSome? fun l =>
    if levelBase e l ≤ la ∧ la < levelBase e l + 2 ^ levelLog e l then some (l, la - levelBase e l) else none

/-- MAJOR and minor `p` of a counter line (R328). -/
def majorOf (d : Line) : Nat := d.toNat / 2 ^ 448 % 2 ^ 56
def minorOf (d : Line) (p : Nat) : Nat := d.toNat / 2 ^ (7 * p) % 128

/-- MAJOR ‖ minor. -/
def verOf (d : Line) (p : Nat) : Nat := majorOf d * 128 + minorOf d p

def rootOf (e : Engine) (n : Nat) : Nat := tget 0 e.sec.root n

/-! ## The Cask (R336) -/

def caskNone : CaskSet := ⟨[], 0⟩

/-- The set of a metadata slot. -/
def caskSet (la : Nat) : Nat := (la % 2 ^ 13) ^^^ (la / 2 ^ 13 % 2 ^ 13) ^^^ (la / 2 ^ 26 % 2 ^ 12)

/-- A line that the Cask holds. -/
def caskFind (e : Engine) (la : Nat) : Option CaskLine :=
  (tget caskNone e.pack.cask (caskSet la)).lines.find? fun c => c.la == la

def caskData (e : Engine) (la : Nat) : Option Line := (caskFind e la).map (·.data)

def setCask (e : Engine) (k : Nat) (c : CaskSet) : Engine :=
  { e with pack := { e.pack with cask := tput caskNone e.pack.cask k c } }

/-- The ways of a kind: size-class, then counter, then MAC (R343). -/
def kindWays (e : Engine) (kind : Nat) : List Nat :=
  let s := rd e CRY_CASK_CFG_SC_WAYS
  let c := rd e CRY_CASK_CFG_CTR_WAYS
  (List.range 16).filter fun w =>
    match kind with
    | 1 => decide (w < s)
    | 3 => decide (s ≤ w ∧ w < s + c)
    | _ => decide (s + c ≤ w)

/-- The way that a line of a kind takes: a free one, else the victim of the tree within the kind's ways,
where counter lines of level 3 and above stay while another is there. -/
def caskWay (e : Engine) (kind : Nat) (s : CaskSet) : Option Nat :=
  let ways := kindWays e kind
  match ways.find? fun w => !(s.lines.any fun c => c.way == w) with
  | some w => some w
  | none =>
    let low := ways.filter fun w => s.lines.any fun c => c.way == w && !(c.kind == 3 && decide (c.level ≥ 3))
    plruPick 4 1 0 s.plru (if low.isEmpty then ways else low)

/-- A metadata line enters the Cask, or takes new contents there. -/
def caskPut (e : Engine) (la kind level : Nat) (d : Line) : Engine :=
  let k := caskSet la
  let s := tget caskNone e.pack.cask k
  match s.lines.find? fun c => c.la == la with
  | some c => setCask e k
      { lines := s.lines.map fun (u : CaskLine) => if u.la = la then { u with data := d } else u
        plru := plruTouch 4 1 c.way s.plru }
  | none =>
    match caskWay e kind s with
    | none => e
    | some w => setCask e k
        { lines := s.lines.filter (fun (u : CaskLine) => u.way != w) ++ [⟨w, la, kind, level, d⟩]
          plru := plruTouch 4 1 w s.plru }

/-- R336, R340: a use of a line that the Cask holds is a hit, and touches its set's tree. -/
def caskTouch (e : Engine) (la : Nat) : Engine :=
  match caskFind e la with
  | some c =>
    let k := caskSet la
    let s := tget caskNone e.pack.cask k
    setCask (inc e CRY_CNT_CASK_HIT) k { s with plru := plruTouch 4 1 c.way s.plru }
  | none => e

/-! ## Counter paths (R327–R331) -/

/-- The node and position of Fresh index `f` at level `l`. -/
def pathNode (f l : Nat) : Nat × Nat := (f / 64 ^ l, f / 64 ^ (l - 1) % 64)

/-- The parent version of a node (R328), where its parent is in the Cask or it is at the top. -/
def parentVer (e : Engine) (l n : Nat) : Option Nat :=
  if l = topLevel e then some (rootOf e n % 2 ^ 63)
  else (caskData e (nodeLa e (l + 1) (n / 64))).map fun d => verOf d (n % 64)

/-- The version of a Fresh line, where its leaf is in the Cask. -/
def freshVer (e : Engine) (f : Nat) : Option Nat :=
  (caskData e (nodeLa e 1 (f / 64))).map fun d => verOf d (f % 64)

/-- The lines of a path that the Cask lacks, from the leaf up to the first hit. -/
def pathMissing (e : Engine) (f : Nat) : Nat → Nat → List Nat
  | 0, _ => []
  | n + 1, l =>
    let la := nodeLa e l (f / 64 ^ l)
    if (caskFind e la).isSome then [] else la :: pathMissing e f n (l + 1)

/-- Metadata lines that a verification of a slot needs and the Cask lacks (R337). -/
def verifyMissing (e : Engine) (r : Region) (la : Nat) : List Nat :=
  let m := macLa e (macIx r la)
  let mac := if r.mode ≥ 2 ∧ (caskFind e m).isNone then [m] else []
  let ctr := if r.mode = 3 then pathMissing e (freshIx r la) (topLevel e) 1 else []
  mac ++ ctr

/-- R336, R340: the Cask lines that a verification of a slot used are hits; a snapshot (R331) uses none. -/
def verifyHits (e : Engine) (r : Region) (la : Nat) (snap : Option (Nat × Nat)) : Engine :=
  if r.mode < 2 ∨ snap.isSome then e
  else
    let e := caskTouch e (macLa e (macIx r la))
    if r.mode = 3 then caskTouch e (nodeLa e 1 (freshIx r la / 64)) else e

/-- Metadata lines of a write of a slot: its MAC line and the whole path. -/
def writeLines (e : Engine) (r : Region) (la : Nat) : List Nat :=
  (if r.mode ≥ 2 then [macLa e (macIx r la)] else []) ++
    (if r.mode = 3 then (List.range (topLevel e)).map fun i => nodeLa e (i + 1) (freshIx r la / 64 ^ (i + 1)) else [])

/-- Those that the Cask lacks. -/
def writeMissing (e : Engine) (r : Region) (la : Nat) : List Nat :=
  (writeLines e r la).filter fun x => (caskFind e x).isNone

/-! ## Queueing slots -/

/-- A slot enters the write queue of its channel, by its line address, with the class of its request and its metadata
update; `pair` marks a slot of a pair that is packed or split (R303). -/
def queueData (e : Engine) (cls : Option Nat) (upd : Option (Nat × Nat)) (pair : Bool) (la : Nat) (s : Slot) (age : Nat) :
    Engine :=
  let l := lineLoc e la
  putChan e l.ch (pushWrite e (getChan e l.ch) cls upd pair la l s age)

/-- An engine's own slot enters the write queue of its channel. -/
def queueSlot (e : Engine) (la : Nat) (s : Slot) (age : Nat) : Engine := queueData e none none false la s age

/-- A metadata line is updated in the Cask and queued (R289, R330). -/
def putMeta (e : Engine) (la kind level pv : Nat) (d : Line) : Engine :=
  let e := caskPut e la kind level d
  queueSlot e la (encodeSlot (sealMeta e la kind pv d)) e.clk.tb

/-- A line of metadata as it stands: in the Cask, or decrypted from its stored form; none where it is lost (R332). -/
def metaGet (d : Dram) (e : Engine) (la kind pv : Nat) : Option Line :=
  match caskData e la with
  | some x => some x
  | none => match gotOf (newestAt d e (lineLoc e la)) with
    | .data c =>
      let x := openMeta e la kind pv c
      if kind = 1 ∨ checkByte x = 0 then some x else none
    | _ => none

/-- The same, with zeros for a lost line. -/
def metaNow (d : Dram) (e : Engine) (la kind pv : Nat) : Line := (metaGet d e la kind pv).getD 0

/-! ## Losses (R331–R334) -/

/-- R331: a verification failed. -/
def integrityFail (e : Engine) (r : Region) : Engine :=
  let f := if r.mode = 3 then CRY_STATUS_FRESH_FAIL else CRY_STATUS_MAC_FAIL
  let e := sqSet (inc e CRY_CNT_INTEG) CRY_STATUS [(f, 1), (CRY_STATUS_CTX, r.ctx)]
  raise e 0x04 .contained (synOf f.lo r.ctx)

/-- R332: a metadata slot is lost: its flag and a contained fault. -/
def lossFlag (e : Engine) (f : Fld) : Engine :=
  raise (sqSet e CRY_STATUS [(f, 1)]) 0x04 .contained (synOf f.lo 0)

/-- R334: a lost counter line waits for its rebuild. -/
def loseCtr (e : Engine) (la : Nat) : Engine :=
  let e := lossFlag e CRY_STATUS_CTR_LOST
  let k := caskSet la
  let s := tget caskNone e.pack.cask k
  let e := setCask e k { s with lines := s.lines.filter fun (u : CaskLine) => u.la != la }
  { e with sec := { e.sec with lostCtr := if e.sec.lostCtr.contains la then e.sec.lostCtr else la :: e.sec.lostCtr } }

/-! ## Advancing counters (R329) -/

/-- Minor `p` set. -/
def setMinor (d : Line) (p v : Nat) : Line :=
  BitVec.ofNat 512 (d.toNat - minorOf d p * 2 ^ (7 * p) + v % 128 * 2 ^ (7 * p))

/-- The line after a rebase: MAJOR + 1 and every minor 0. -/
def rebased (d : Line) : Line := BitVec.ofNat 512 ((majorOf d + 1) % 2 ^ 56 * 2 ^ 448)

/-- A PROT_SET writes the lines of its new regions; its table stands in the other bank (R318). -/
def initRuns (e : Engine) : Bool :=
  match e.sec.work with
  | some (.protInit _ _ _) => true
  | _ => false

/-- The region of Fresh index `f`: of the current table, or one that is being initialised (R318). -/
def regionOfFresh (e : Engine) (f : Nat) : Option Region :=
  let rs := (bankOf e (curVer e)).regions ++ (if initRuns e then (bankOf e (curVer e + 1)).regions else [])
  (rs.find? fun p =>
    p.2.mode == 3 && decide (p.2.freshBase * 64 ≤ f) &&
      decide (f < p.2.freshBase * 64 + (p.2.limit + 1 - p.2.base) * 64)).map (·.2)

/-- A counter line whose check byte fails is an integrity failure of the region it covers (R331). -/
def ctrCheckFail (e : Engine) (la : Nat) : Engine :=
  let r := match nodeOf e la with
    | some p => (regionOfFresh e (p.2 * 64 ^ p.1)).getD { unassigned with mode := 3 }
    | none => { unassigned with mode := 3 }
  integrityFail e r

/-- R329: a data child of a rebased leaf: its MAC is recomputed from its stored ciphertext. A lost MAC line is rewritten
(R332, R333). -/
def remacChild (d : Dram) (e : Engine) (leaf : Line) (f : Nat) : Engine :=
  match regionOfFresh e f with
  | none => e
  | some r =>
    let la := r.base * 64 + (f - r.freshBase * 64)
    match gotOf (newestAt d e (lineLoc e la)) with
    | .data c =>
      let j := macIx r la
      match metaGet d e (macLa e j) 2 0 with
      | none => putMeta (lossFlag e CRY_STATUS_MAC_LOST) (macLa e j) 2 0 0 0
      | some ml =>
        if macAt ml (j % 9) = 0 then e
        else
          let m := macOf (keysOf e r.ctx) la r.ctx true (verOf leaf (f % 64)) c
          putMeta e (macLa e j) 2 0 0 (setMacAt ml (j % 9) m)
    | _ => e

/-- R329: a node child of a rebased node: re-encrypted and queued. A lost one waits for its rebuild (R332, R334). -/
def rekeyChild (d : Dram) (e : Engine) (old new : Line) (l n : Nat) : Engine :=
  let la := nodeLa e l n
  if levelBase e l + 2 ^ levelLog e l ≤ la ∨ e.sec.lostCtr.contains la then e
  else match metaGet d e la 3 (verOf old (n % 64)) with
    | some x => queueSlot e la (encodeSlot (sealMeta e la 3 (verOf new (n % 64)) x)) e.clk.tb
    | none =>
      let bad := match gotOf (newestAt d e (lineLoc e la)) with
        | .data _ => true
        | _ => false
      loseCtr (if bad then ctrCheckFail e la else e) la

/-- R329: advance(n, p) of the line at a level; answers its new contents. -/
def advance (d : Dram) (e : Engine) (l n p : Nat) : Engine :=
  let la := nodeLa e l n
  let x := metaNow d e la 3 ((parentVer e l n).getD 0)
  if minorOf x p < 127 then caskPut e la 3 l (setMinor x p (minorOf x p + 1))
  else
    let y := rebased x
    let e := caskPut (inc e CRY_CNT_REBASE) la 3 l y
    (List.range 64).foldl (fun e i =>
      if l = 1 then remacChild d e y (n * 64 + i) else rekeyChild d e x y (l - 1) (n * 64 + i)) e

/-- R329: the loop from a node up to the root: each node is queued under its parent's new version. -/
def advanceUp (d : Dram) : Nat → Engine → Nat → Nat → Engine
  | 0, e, _, _ => e
  | k + 1, e, l, n =>
    if l = topLevel e then
      let e := { e with sec := { e.sec with root := tput 0 e.sec.root n (rootOf e n + 1) } }
      putMeta e (nodeLa e l n) 3 l (rootOf e n % 2 ^ 63) ((caskData e (nodeLa e l n)).getD 0)
    else
      let e := advance d e (l + 1) (n / 64) (n % 64)
      let pv := (parentVer e l n).getD 0
      let e := putMeta e (nodeLa e l n) 3 l pv ((caskData e (nodeLa e l n)).getD 0)
      advanceUp d k e (l + 1) (n / 64)

/-- R329: a write to a Fresh line advances its counter path. -/
def advancePath (d : Dram) (e : Engine) (f : Nat) : Engine :=
  advanceUp d 7 (advance d e 1 (f / 64) (f % 64)) 1 (f / 64)

end Sys2Proof.Machine
end

