-- ==== Sys2Proof/Machine/Pack.lean ====
section
/-! DEFINITION. The line packer and the crypto stage on the request path: reads from the QoS stage to the
read queue and from the burst to the response (R16, R17, R294–R296, R331–R337), and writes to the write
queue (R21, R80, R81, R142, R297–R304). -/

namespace Sys2Proof.Machine

/-! ## Regions of requests -/

/-- The region that a request is bound to (R12). -/
def txnRegion (e : Engine) (t : Txn) : Region := (regionOf e t.ver t.req.la).getD unassigned

/-- Changes the packer's state. -/
def mapPack (e : Engine) (f : Pack → Pack) : Engine := { e with pack := f e.pack }

/-! ## Metadata reads (R289, R337) -/

/-- A metadata read of a slot is outstanding. -/
def metaOutstanding (e : Engine) (la : Nat) : Bool :=
  e.pack.want.contains la || (e.pack.rets.any fun r => r.use == .metaRead && r.la == la) ||
    (getChan e (lineLoc e la).ch).rq.any fun r => r.la == la && r.uses.contains .metaRead

/-- Metadata reads enter their channels' read queues promoted, as entries free (R337); one that Grist holds waits
(R112). -/
def pumpMeta (e : Engine) : Engine :=
  e.pack.want.foldl (fun e la =>
    let l := lineLoc e la
    let c := getChan e l.ch
    if c.rq.length < 256 ∧ lineHeld e la = false ∧ intakeOn e l.ch then
      let e := pushPromoted e l.ch none .metaRead la l e.clk.tb
      mapPack e fun p => { p with want := p.want.filter (· != la) }
    else e) e

/-- A metadata slot is read: from the write queue under R17, or by a read of DRAM. A Cask miss is counted once for each
metadata read that is made (R340). -/
def requestMeta (e : Engine) (la : Nat) : Engine :=
  if metaOutstanding e la then e
  else
    let e := inc e CRY_CNT_CASK_MISS
    let l := lineLoc e la
    match findWrite (getChan e l.ch) l with
    | some w => mapPack e fun p => { p with rets := p.rets ++ [⟨.metaRead, la, gotOf w.slot⟩] }
    | none => pumpMeta (mapPack e fun p => { p with want := p.want ++ [la] })

def requestAll (e : Engine) (las : List Nat) : Engine := las.foldl requestMeta e

/-- Metadata reads of a slot that firmware rewrites return what it writes. -/
def metaRewritten (e : Engine) (la : Nat) (s : Slot) : Engine :=
  if metaOutstanding e la = false then e
  else
    let l := lineLoc e la
    let c := getChan e l.ch
    let e := putChan e l.ch { c with rq := c.rq.map fun (r : RqEntry) =>
      if r.la = la then { r with uses := r.uses.filter (· != .metaRead) } else r }
    mapPack e fun p => { p with
      want := p.want.filter (· != la)
      rets := (p.rets.filter fun (r : Ret) => !(r.use == .metaRead && r.la == la)) ++ [⟨.metaRead, la, gotOf s⟩] }

/-! ## Flags and faults -/

/-- R296: a packed slot failed its check. -/
def packCheckFail (e : Engine) (ch : Nat) : Engine :=
  let e := sqSet (inc e GC_CNT_PK_CHK) GC_PACK_STATUS [(GC_PACK_STATUS_CHECK_FAIL, 1)]
  raise e 0x08 .contained (synOf GC_PACK_STATUS_CHECK_FAIL.lo ch)

/-- R290: a code that no pair has. -/
def badBits (b : Nat) : Bool := b == 1 || b == 2

/-- R290: an invalid code starts a rebuild of the size-class slot. -/
def scInvalid (e : Engine) (la : Nat) : Engine :=
  let ix := la / 512
  let e := sqSet e GC_PACK_STATUS [(GC_PACK_STATUS_SC_INVALID, 1)]
  let e := mapPack e fun p => if p.rebuilds.contains ix then p else { p with rebuilds := p.rebuilds ++ [ix] }
  raise e 0x08 .contained (synOf GC_PACK_STATUS_SC_INVALID.lo (targetCh e la))

/-- The size-class slot of a line is being rebuilt (R305). -/
def rebuilding (e : Engine) (la : Nat) : Bool := e.pack.rebuilds.contains (la / 512)

/-- A counter line of the path of a Fresh line is lost, or the rebuild in progress has not passed the line (R334). -/
def pathLost (e : Engine) (r : Region) (la : Nat) : Bool :=
  r.mode == 3 && (((List.range (topLevel e)).any fun i =>
    e.sec.lostCtr.contains (nodeLa e (i + 1) (freshIx r la / 64 ^ (i + 1)))) ||
      e.sec.ctrTasks.any fun t => match t with
        | .node l n _ => freshIx r la / 64 ^ l == n
        | .slot x => x == la)

/-! ## Opening a stored slot -/

/-- What a slot opens to. -/
inductive Opened where
  | wait (missing : List Nat)
  | line (d : Line)
  | poison
  | bad
  deriving DecidableEq, Repr

/-- R331, R333: a slot of a region is verified against its MAC line, or against a snapshot, and decrypted. -/
def openSlot (e : Engine) (r : Region) (la : Nat) (snap : Option (Nat × Nat)) (g : Got) : Opened :=
  match g with
  | .poison | .ue => .poison
  | .data c =>
    if r.mode < 2 then .line (openData e r.mode r.ctx la c)
    else if pathLost e r la then .poison
    else
      let miss := if snap.isSome then [] else verifyMissing e r la
      if miss ≠ [] then .wait miss
      else
        let j := macIx r la
        let v := match snap with
          | some s => s
          | none => (macAt ((caskData e (macLa e j)).getD 0) (j % 9),
              if r.mode = 3 then (freshVer e (freshIx r la)).getD 0 else 0)
        if v.1 = 0 then .poison
        else if v.1 = macOf (keysOf e r.ctx) la r.ctx (r.mode == 3) v.2 c
          then .line (openData e r.mode r.ctx la c)
        else .bad

/-! ## Read responses (R16, R84, R296) -/

/-- A read is answered with data, or with poison and zero data. -/
def respondRead (e : Engine) (t : Txn) (d : Option Line) : Engine :=
  formResp e t (mkResp e t.req 0x43 none d.isNone t.grant (d.getD 0) (some t.ch) (some t.id))

/-- The slot that a read addresses. -/
def readSlot (t : Txn) (packed : Bool) : Nat := if packed then t.req.la / 2 * 2 else t.req.la

/-- A read has its slot: it is answered, or waits for metadata. -/
def finishRead (e : Engine) (t : Txn) (la : Nat) (g : Got) : Engine :=
  let wait := fun (e : Engine) => mapPack e fun p => { p with rets := p.rets ++ [⟨.agent t.id, la, g⟩] }
  let r := txnRegion e t
  match g with
  | .poison | .ue => respondRead e t none
  | .data _ =>
    match t.packed with
    | none => wait e
    | some packed =>
      let hit := verifyHits e r la t.snap
      match openSlot e r la t.snap g with
      | .wait m => wait (requestAll e m)
      | .poison => respondRead hit t none
      | .bad => respondRead (integrityFail hit r) t none
      | .line d =>
        if packed then
          match unpackPair d with
          | some p => respondRead hit t (some (if t.req.la % 2 = 0 then p.1 else p.2))
          | none => respondRead (packCheckFail hit t.ch) t none
        else respondRead hit t (some d)

/-- A slot was read for a use. -/
def deliver (e : Engine) (u : Use) (la : Nat) (g : Got) : Engine :=
  match u with
  | .agent id => match getTxn e id with
    | some t => finishRead e t la g
    | none => e
  | _ => mapPack e fun p => { p with rets := p.rets ++ [⟨u, la, g⟩] }

/-- R296, R331: an agent's read finds that its slot fails verification or its packed form. -/
def useFails (e : Engine) (u : Use) (la : Nat) (g : Got) : Bool :=
  match u with
  | .agent id => match getTxn e id with
    | some t => match t.packed, openSlot e (txnRegion e t) la t.snap g with
      | none, _ => false
      | some _, .bad => true
      | some packed, .line d => packed && (unpackPair d).isNone
      | some _, _ => false
    | none => false
  | _ => false

/-- A slot was read for several uses: where it fails for one, the later ones get poison, and the failure counts once
(R296). -/
def deliverUses (e : Engine) (us : List Ret) : Engine :=
  (us.foldl (fun (a : Engine × List Nat) r =>
    let fails := useFails a.1 r.use r.la r.got
    (deliver a.1 r.use r.la (if a.2.contains r.la then .poison else r.got), if fails then r.la :: a.2 else a.2)) (e, [])).1

/-! ## Reads into the read queue (R17, R137, R294, R295) -/

/-- The pair-table entry of a line. -/
def pairEntry (e : Engine) (la : Nat) : Option PairEnt := e.pack.pairs.find? fun p => p.pair == la / 2

/-- A read waits in the hold slot of its line (R112). -/
def packHold (e : Engine) (t : Txn) : Engine :=
  mapPack (putTxn e { t with stage := .chan }) fun p => { p with
    waits := p.waits.filter (· != t.id)
    hold := if p.hold.contains t.id then p.hold else p.hold ++ [t.id] }

/-- An earlier write of the line has not entered its write queue (R22). -/
def olderWrite (e : Engine) (t : Txn) : Bool :=
  (txnsBefore e t.id).any fun u => !isClass3 u.req.op && u.req.la == t.req.la && !u.done &&
    (u.stage == .qos || u.stage == .chan)

/-- An earlier read of the line has left the QoS stage and waits at the packer or in the hold slot (R22, R112). -/
def earlierRead (e : Engine) (t : Txn) : Bool :=
  (txnsBefore e t.id).any fun u => isClass3 u.req.op && u.req.la == t.req.la &&
    (e.pack.waits.contains u.id || e.pack.hold.contains u.id)

/-- A read waits at the packer. -/
def packWait (e : Engine) (t : Txn) : Engine :=
  mapPack (putTxn e { t with stage := .chan }) fun p =>
    if p.waits.contains t.id then p else { p with waits := p.waits ++ [t.id] }

/-- R295: a read joins the first of the entries that `p` picks. -/
def joinFirst (p : RqEntry → Bool) (u : Use) (pri : Nat) : List RqEntry → List RqEntry
  | [] => []
  | r :: rs => if p r then { r with uses := r.uses ++ [u], pri := max r.pri pri } :: rs else r :: joinFirst p u pri rs

/-- A read of a slot: answered from the write queue, joined to a queued read of a packed slot, or a new entry. Eight
entries stay free for reads that are released ahead of a write (R137, R402). The slot's channel serves it (R45). -/
def issueRead (e : Engine) (t : Txn) (la : Nat) : Engine :=
  let l := lineLoc e la
  let reserve := if t.ahead then 0 else 8
  let t := { t with stage := .chan, snap := none, ch := l.ch }
  let e := putTxn e t
  let c := getChan e l.ch
  let e := mapPack e fun p => { p with waits := p.waits.filter (· != t.id) }
  match findWrite c l with
  | some w => deliver e (.agent t.id) la (gotOf w.slot)
  | none =>
    if intakeOn e l.ch = false then packWait e t
    else
    let open_ := fun (r : RqEntry) => r.la == la && r.issued.isNone
    if t.packed = some true ∧ c.rq.any open_ then
      putChan e l.ch { c with rq := joinFirst open_ (.agent t.id) t.pri c.rq }
    else if c.rq.length + reserve < 256 then
      let e := putChan e l.ch (pushRead e c (some t.req.qc) (.agent t.id) la l t.commit t.pri false)
      requestAll e (verifyMissing e (txnRegion e t) la)
    else
      let e := sqSet e (CH_SCHED_STATUS l.ch) [(CH_SCHED_STATUS_RQ_FULL l.ch, 1)]
      packWait e t

/-- A read whose slot is known goes to its queue, or to the hold slot while Grist holds the slot (R112, R301). -/
def readAt (e : Engine) (t : Txn) (la : Nat) : Engine :=
  if lineHeld e la then packHold e t else issueRead e t la

/-- R22, R112, R294, R297: a read that has left the QoS stage passes Grist and the packer. -/
def packRead (e : Engine) (t : Txn) : Engine :=
  let la := t.req.la
  if lineHeld e la then packHold e t
  else if olderWrite e t then packWait e t
  else
    match pairEntry e la with
    | some _ => mapPack (putTxn e { t with stage := .chan }) fun p => { p with
        pairs := p.pairs.map fun (q : PairEnt) =>
          if q.pair = la / 2 ∧ ¬ q.reads.contains t.id then { q with reads := q.reads ++ [t.id] } else q
        waits := p.waits.filter (· != t.id) }
    | none =>
      if rebuilding e la then packWait e t
      else if (txnRegion e t).pairsSeen = false then readAt e { t with packed := some false } la
      else
        match caskData e (scLa e la) with
        | some x =>
          let e := if e.pack.waits.contains t.id then e else caskTouch e (scLa e la)
          let b := scBits x la
          if badBits b then packWait (scInvalid e la) t
          else readAt e { t with packed := some (b == 3) } (readSlot t (b == 3))
        | none =>
          let e := requestMeta e (scLa e la)
          if la % 2 = 0 then readAt e { t with packed := none } la
          else packWait e t

/-! ## Returns that wait for metadata -/

/-- Every read that waits for metadata or at the packer is looked at again. -/
def retryWaits (e : Engine) : Engine :=
  let rs := e.pack.rets.filter fun r => match r.use with | .agent _ => true | _ => false
  let ws := e.pack.waits
  let e := mapPack e fun p => { p with rets := p.rets.filter fun (r : Ret) => !rs.contains r }
  let e := deliverUses e rs
  ws.foldl (fun e id => match getTxn e id with
    | some t => packRead e t
    | none => mapPack e fun p => { p with waits := p.waits.filter (· != id) }) e

/-- The size-class bits of some lines have arrived: reads in flight that issued without them take them; an invalid code
starts a rebuild, for which its reads wait (R290). -/
def bitsArrived (e : Engine) (sla : Nat) (x : Line) : Engine :=
  let mine := fun (t : Txn) => decide (t.stage = .chan) && t.packed.isNone && isClass3 t.req.op && scLa e t.req.la == sla
  let txns := e.txns.map fun (t : Txn) =>
    if mine t && !badBits (scBits x t.req.la) then { t with packed := some (scBits x t.req.la == 3) } else t
  let e' := { e with txns := txns }
  match e.txns.find? fun t => mine t && badBits (scBits x t.req.la) with
  | some t => scInvalid e' t.req.la
  | none => e'

/-! ## Writes: contents -/

/-- New contents of a line: data, or a poison mark. -/
abbrev Cell := Option Line

/-- The bytes of a partial write over the old line (R80). -/
def mergeLine (old new : Line) (mask : BitVec 64) : Line :=
  bytesLine ((List.range 64).map fun i =>
    if mask.getLsbD i then byteAt new.toNat i else byteAt old.toNat i)

/-- A MemWrPtl that needs the line's old contents (R44, R80). -/
def isPartial (r : Req) : Bool :=
  r.op == .memWrPtl && !r.poison && r.mask != BitVec.allOnes 64

/-- R44, R80: what a write makes of a line. -/
def applyWrite (r : Req) (old : Cell) : Cell :=
  if r.poison then none
  else if isPartial r then old.map fun d => mergeLine d r.data r.mask
  else some r.data

/-! ## Writes: the decision (R298) -/

/-- The slots of a decision, with their contents, whether they form or hold a packed pair, and the
pair's new bits. -/
structure Decision where
  slots : List (Nat × Cell)
  bits : Nat
  forms : Bool
  splits : Bool
  deriving DecidableEq, Repr

/-- A cell fits in 30 bytes; a poisoned line never does. -/
def cellFits : Cell → Bool
  | some d => fits d
  | none => false

/-- The packed slot of two cells, where both fit. -/
def packCells : Cell → Cell → Option Line
  | some a, some b => packPair a b
  | _, _ => none

/-- R298, packed pair: `a` and `b` are the final contents of lines 2k and 2k + 1. -/
def decidePacked (k2 : Nat) (pack poisoned : Bool) (a b : Cell) : Decision :=
  match packCells a b with
  | some p => if pack && !poisoned then ⟨[(k2, some p)], 3, false, false⟩
      else ⟨[(k2, a), (k2 + 1, b)], 0, false, true⟩
  | none => ⟨[(k2, a), (k2 + 1, b)], 0, false, true⟩

/-- R298, separate pair: line `la` is written; `other` is its partner's current data where a write-queue
entry holds it. -/
def decideSeparate (la : Nat) (pack : Bool) (x : Cell) (other : Option Cell) : Decision :=
  let k2 := la / 2 * 2
  let own : Decision := ⟨[(la, x)], 0, false, false⟩
  match other with
  | some y =>
    match (if la % 2 = 0 then packCells x y else packCells y x) with
    | some p => if pack then ⟨[(k2, some p)], 3, true, false⟩ else own
    | none => own
  | none => own

/-- The queued contents of a line's own slot, opened (R17, R298). -/
def queuedCell (e : Engine) (r : Region) (la : Nat) : Option Cell :=
  let l := lineLoc e la
  (findWrite (getChan e l.ch) l).map fun w =>
    match gotOf w.slot with
    | .data c => some (openData e r.mode r.ctx la c)
    | _ => none

/-! ## Writes: entering the queues (R139, R142, R300) -/

/-- R331: reads in flight of a slot keep the MAC and version that they were read under. -/
def snapReads (e : Engine) (r : Region) (la : Nat) : Engine :=
  if r.mode < 2 then e
  else
    let j := macIx r la
    let s := (macAt ((caskData e (macLa e j)).getD 0) (j % 9),
      if r.mode = 3 then (freshVer e (freshIx r la)).getD 0 else 0)
    { e with txns := e.txns.map fun (t : Txn) =>
        if ((t.stage = .chan ∧ isClass3 t.req.op) ∨ t.stage = .push) ∧ t.snap = none ∧
            t.req.la / 2 = la / 2 ∧ readSlot t (t.packed == some true) = la
        then { t with snap := some s } else t }

/-- A write of a line's own slot is queued. -/
def slotQueued (e : Engine) (la : Nat) : Bool :=
  let l := lineLoc e la
  (findWrite (getChan e l.ch) l).isSome

/-- A data slot enters its write queue with its metadata update (R304, R326, R329, R330); a write that replaces a
queued entry of the slot (`queued`) keeps that entry's version. -/
def enterSlot (d : Dram) (e : Engine) (cls : Option Nat) (r : Region) (pair : Bool) (la : Nat) (x : Cell) (age : Nat)
    (queued : Bool) : Engine :=
  let e := snapReads e r la
  let e := if r.mode = 3 ∧ ¬ queued then advancePath d e (freshIx r la) else e
  let cipher := match x with
    | some v => sealData e r.mode r.ctx la v
    | none => 0
  let slot := if x.isSome then encodeSlot cipher else poisonSlot
  if r.mode < 2 then queueData e cls none pair la slot age
  else
    let j := macIx r la
    let v := if r.mode = 3 then (freshVer e (freshIx r la)).getD 0 else 0
    let m := macOf (keysOf e r.ctx) la r.ctx (r.mode == 3) v cipher
    let e := queueData e cls (some (macLa e j, m)) pair la slot age
    putMeta e (macLa e j) 2 0 0 (setMacAt ((caskData e (macLa e j)).getD 0) (j % 9) m)

/-- R298: the packed slot takes the place and age of the older of the pair's queued entries; the other
is removed. -/
def mergeEntries (c : Chan) (l0 l1 : Loc) (la0 : Nat) : Chan :=
  match c.wq.find? fun w => sameSlot w.loc l0 || sameSlot w.loc l1 with
  | none => c
  | some w =>
    let kept := c.wq.filter fun u => u.seq == w.seq || !(sameSlot u.loc l0 || sameSlot u.loc l1)
    let q := kept.map fun (u : WqEntry) => if u.seq = w.seq then { u with loc := l0, la := la0 } else u
    { c with wq := q }

/-- A decision looks at its pair's bits: while PAIRS_SEEN is 0, only one that forms a pair does (R291). -/
def bitsAsked (r : Region) (k : Decision) : Bool := r.pairsSeen || k.bits != 0

/-- A decision changes its pair's bits. -/
def bitsChange (e : Engine) (r : Region) (k : Decision) (k2 : Nat) : Bool :=
  bitsAsked r k && match caskData e (scLa e k2) with
    | some x => scBits x k2 != k.bits
    | none => true

/-- The size-class write of a decision (R289). -/
def enterBits (e : Engine) (r : Region) (k : Decision) (k2 : Nat) : Engine :=
  match caskData e (scLa e k2) with
  | some x => if bitsChange e r k k2 then putMeta e (scLa e k2) 1 0 0 (setScBits x k2 k.bits) else e
  | none => e

/-- The metadata lines that a decision uses: of each of its slots, of slot 2k + 1 where a pair forms (R304), and the
size-class line. -/
def decisionLines (e : Engine) (r : Region) (k : Decision) (k2 : Nat) : List Nat :=
  ((k.slots.flatMap fun p => writeLines e r p.1) ++ (if k.forms then writeLines e r (k2 + 1) else []) ++
    (if bitsAsked r k then [scLa e k2] else [])).eraseDups

/-- Those that the Cask lacks. -/
def decisionMissing (e : Engine) (r : Region) (k : Decision) (k2 : Nat) : List Nat :=
  (decisionLines e r k k2).filter fun x => (caskFind e x).isNone

/-- R298, R301: a pair forms across two channels: the entry of slot 2k + 1 leaves its queue, and gives the packed slot its
place and age where it is the older. -/
def mergeAcross (e : Engine) (l0 l1 : Loc) (k2 : Nat) : Engine :=
  let c1 := getChan e l1.ch
  match findWrite c1 l1 with
  | none => e
  | some w =>
    let e := putChan e l1.ch { c1 with wq := c1.wq.filter fun (u : WqEntry) => !sameSlot u.loc l1 }
    let c0 := getChan e l0.ch
    if c0.wq.any fun u => sameSlot u.loc l0 && decide (u.age ≤ w.age) then e
    else
      let rest := c0.wq.filter fun (u : WqEntry) => !sameSlot u.loc l0
      let w := { w with seq := c0.seq, loc := l0, la := k2 }
      putChan e l0.ch { c0 with
        seq := c0.seq + 1
        wq := rest.filter (fun (u : WqEntry) => decide (u.age ≤ w.age)) ++
          w :: rest.filter (fun (u : WqEntry) => !decide (u.age ≤ w.age)) }

/-- The entries of a decision enter the queues. A packed slot that forms is a new write of slot 2k unless a write of
that slot is queued (R304, R329). The Cask lines that it uses are hits (R340). -/
def enterDecision (d : Dram) (e : Engine) (cls : Option Nat) (ver : Nat) (r : Region) (k : Decision)
    (k2 age : Nat) : Engine :=
  let queued := slotQueued e
  let e := (decisionLines e r k k2).foldl caskTouch e
  let e := if k.forms then
      let l0 := lineLoc e k2
      let l1 := lineLoc e (k2 + 1)
      let e := if l0.ch = l1.ch then
          putChan e l0.ch (mergeEntries (getChan e l0.ch) l0 l1 k2)
        else mergeAcross e l0 l1 k2
      let e := inc e GC_CNT_PK_FORM
      let e := match regionAt e ver k2 with
        | some p => mapRegion e p.1 p.2.base fun g => { g with pairsSeen := true }
        | none => e
      if r.mode = 3 then advancePath d (snapReads e r (k2 + 1)) (freshIx r (k2 + 1)) else e
    else e
  let e := if k.splits then inc e GC_CNT_PK_SPLIT else e
  let e := k.slots.foldl (fun e p => enterSlot d e cls r (k.bits == 3 || k.splits) p.1 p.2 age (queued p.1)) e
  enterBits e r k k2

/-- A channel whose write queue would be over-full or behind whose waiting write this one waits, and the channel and
subchannel of a bank over BANK_MAX (R142). -/
structure Fit where
  full : Option Nat
  cap : Option (Nat × Nat)
  deriving DecidableEq, Repr

/-- R142, R166, R300: whether the queues of `b`, reached from `a`, keep within their limits, for the write of transaction
`own`. -/
def fitsQueues (a b : Engine) (own : Option Nat) : Fit :=
  let chs := List.range 16
  let full := chs.find? fun n =>
    decide ((getChan b n).wq.length > 192) ||
      ((getChan a n).wq != (getChan b n).wq && (!intakeOn a n || match (getChan a n).capWait with
        | some w => w.2 != own
        | none => false))
  let cap := chs.findSome? fun n =>
    let ca := getChan a n
    let cb := getChan b n
    if ca.wq = cb.wq then none
    else
      (cb.wq.find? fun w =>
        decide ((bankRows cb w.loc).length > max (rd a (CH_SPARGE_BANK_MAX n)) (bankRows ca w.loc).length)).map
        fun w => (n, w.loc.sc)
  ⟨full, cap⟩

/-! ## Completion (R21, R81) -/

/-- R45, R81: a write is completed by the channel of the slot that its data entered, slot 2k where `packed`. A PlaceWr
of an HDM-DB line goes on to its push; where the push is skipped, the line's state ends (R381). -/
def completeWrite (e : Engine) (packed poison : Bool) (id : Nat) : Engine :=
  match getTxn e id with
  | none => e
  | some t =>
    if t.eng then delTxn e id
    else
      let k := mkResp e t.req 0x40 none poison 0 0 (some (targetCh e (readSlot t packed))) (some id)
      let e := putTxn e { t with done := true }
      if t.req.op = .placeWr ∧ t.ott.isSome then
        let (e, go) := enterWp e { t with done := true }
        if go then sendPkt e t.req.port k
        else match getTxn e id with
          | some t => lineReleased (formResp e t k) t.req.la
          | none => e
      else formResp e { t with done := true } k

/-! ## Decisions -/

/-- The outcome of trying a decision. -/
inductive Tried where
  | done (e : Engine)
  | needs (las : List Nat)
  | full (ch : Nat)
  | cap (ch sc : Nat)
  | held

/-- R112, R301: Grist holds a slot that a decision writes: of data, of its metadata, or the size-class line whose bits
change. -/
def decisionHeld (e : Engine) (r : Region) (k : Decision) (k2 : Nat) : Bool :=
  (k.slots.any fun p => lineHeld e p.1 || (writeLines e r p.1).any (lineHeld e)) ||
    (k.forms && (lineHeld e (k2 + 1) || (writeLines e r (k2 + 1)).any (lineHeld e))) ||
    (bitsChange e r k k2 && lineHeld e (scLa e k2))

/-- The write that waited at intake has entered (R142, R151). -/
def endCapWait (e : Engine) (own : Option Nat) : Engine :=
  (List.range 16).foldl (fun e n =>
    let c := getChan e n
    match c.capWait with
    | some w => if w.2 = own then putChan e n { c with capWait := none } else e
    | none => e) e

/-- R300: a decision is entered as a whole, or not at all. It is that of the write `t`, or of the writes joined to it. -/
def tryDecision (d : Dram) (e : Engine) (t : Txn) (r : Region) (k : Decision) (k2 : Nat) : Tried :=
  if decisionHeld e r k k2 then .held
  else
    match decisionMissing e r k k2 with
    | [] =>
      let e' := enterDecision d e (if t.eng then none else some t.req.qc) t.ver r k k2 t.commit
      let f := fitsQueues e e' (some t.id)
      match f.full, f.cap with
      | some n, _ => .full n
      | none, some p => .cap p.1 p.2
      | none, none => .done (endCapWait e' (some t.id))
    | m => .needs m

/-- The bits of a pair: `some` where the packer knows them. While PAIRS_SEEN is 0, every pair is separate (R291). -/
def pairBits (e : Engine) (r : Region) (la : Nat) : Option Nat :=
  if r.pairsSeen then (caskData e (scLa e la)).map fun x => scBits x la else some 0

/-! ## A write at the head of its channel's queue -/

/-- A write leaves the QoS stage: its charge is made once (R401). -/
def leaveQos (e : Engine) (n : Nat) (t : Txn) : Engine :=
  let q := e.qos
  let e := { e with qos := { q with writes := tput [] q.writes n ((tget [] q.writes n).filter (· != t.id)) } }
  if t.eng then putTxn e { t with stage := .chan }
  else
    let (e, cov) := chargeBucket e t.req.qc n (charge e t true)
    putTxn e { t with stage := .chan, onG := cov != .x }

/-- The engine's read of a slot for a use enters the read queue promoted, or is answered by R17; it needs
any free entry. `none` where there is none, or where Grist holds the slot (R112). -/
def engineRead (e : Engine) (cls : Option Nat) (u : Use) (la : Nat) (age : Nat) : Option Engine :=
  let l := lineLoc e la
  let c := getChan e l.ch
  if lineHeld e la then none
  else match findWrite c l with
    | some w => some (deliver e u la (gotOf w.slot))
    | none =>
      if c.rq.length < 256 ∧ intakeOn e l.ch then some (pushPromoted e l.ch cls u la l age) else none

/-- The class that a write's entries and reads have. -/
def clsOf (t : Txn) : Option Nat := if t.eng then none else some t.req.qc

/-- A read charged to a write's class, as R402 charges a read that is released ahead of its tokens. -/
def chargeRead (e : Engine) (n : Nat) (t : Txn) : Engine :=
  if t.eng then e else (chargeAhead e t.req.qc n (charge e t false)).1

/-- What becomes of the write that was looked at. -/
inductive Look where
  /-- It left the queue, or the queue waits on it. -/
  | stop (e : Engine)
  /-- It waits, and writes to other pairs pass it. -/
  | pass (e : Engine)
  /-- Grist holds it, and writes to other lines pass it (R112). -/
  | passLine (e : Engine)

/-- A write waits at intake under R142: BANK_CAP, and a cap drain on its subchannel. -/
def capWait (e : Engine) (n sc : Nat) (own : Option Nat) : Engine :=
  let c := getChan e n
  let e := putChan e n { c with capWait := some (sc, own) }
  sqSet e (CH_SCHED_STATUS n) [(CH_SCHED_STATUS_BANK_CAP n, 1)]

/-- R81, R298: a write of a packed pair with the contents that slot 2k gave, `none` where the slot is poisoned or failed
a check: the decision, and whether the written line stays poisoned. -/
def packedWrite (r : Region) (w : Req) (ab : Option (Line × Line)) : Decision × Bool :=
  let k2 := w.la / 2 * 2
  let a : Cell := ab.map (·.1)
  let b : Cell := ab.map (·.2)
  let old := if w.la % 2 = 0 then a else b
  let x := applyWrite w old
  (decidePacked k2 r.pack ab.isNone (if w.la % 2 = 0 then x else a) (if w.la % 2 = 0 then b else x),
    isPartial w && old.isNone)

/-- The outcome of a decision for the write at the head; a failed check counts where the decision enters (R296). -/
def afterTry (e : Engine) (n : Nat) (t : Txn) (packed poison failed : Bool) : Tried → Look
  | .done e' =>
    let e' := if failed then packCheckFail e' n else e'
    .stop (completeWrite (leaveQos e' n t) packed poison t.id)
  | .needs m => .stop (requestAll e m)
  | .full _ => .stop e
  | .cap ch sc => .stop (capWait e ch sc (some t.id))
  | .held => .pass e

/-- R297–R299: the packer takes a write whose pair's bits are known. -/
def decideWrite (d : Dram) (e : Engine) (n : Nat) (t : Txn) (packed : Bool) : Look :=
  let r := txnRegion e t
  let la := t.req.la
  let k2 := la / 2 * 2
  let slot := if packed then k2 else la
  if packed then
    match queuedCell e r k2 with
    | none =>
      -- a partner read, which a partial write's merge read stands in for
      if isPartial t.req then
        match engineRead (chargeRead e n t) (clsOf t) (.merge t.id) k2 t.commit with
        | some e => .stop (mapPack (leaveQos e n t) fun p => { p with merges := p.merges ++ [t.id] })
        | none => if lineHeld e k2 then .pass e else .stop e
      else if pairOcc e (lineLoc e k2).ch ≥ 32 then
        let ch := (lineLoc e k2).ch
        .pass (sqSet e GC_PACK_STATUS [(GC_PACK_STATUS_TRACK_FULL, 1), (GC_PACK_STATUS_CH, ch)])
      else
        match engineRead (chargeRead e n t) (clsOf t) (.partner (k2 / 2)) k2 t.commit with
        | none => if lineHeld e k2 then .pass e else .stop e
        | some e =>
          let e := inc (leaveQos e n t) GC_CNT_PK_PREAD
          .stop (mapPack e fun p => { p with pairs := p.pairs ++ [⟨(lineLoc e k2).ch, k2 / 2, [t.id], []⟩] })
    | some q =>
      let ab := q.bind unpackPair
      let (k, poison) := packedWrite r t.req ab
      afterTry e n t (k.bits == 3) poison (q.isSome && ab.isNone) (tryDecision d e t r k k2)
  else
    let go := fun (x : Cell) =>
      let other := if la % 2 = 0 then la + 1 else la - 1
      let k := decideSeparate la r.pack x (queuedCell e r other)
      afterTry e n t (k.bits == 3) false false (tryDecision d e t r k k2)
    if isPartial t.req then
      match queuedCell e r slot with
      | some (some old) => go (applyWrite t.req (some old))
      | some none => .stop (completeWrite (leaveQos e n t) false true t.id)
      | none =>
        match engineRead (chargeRead e n t) (clsOf t) (.merge t.id) slot t.commit with
        | some e => .stop (mapPack (leaveQos e n t) fun p => { p with merges := p.merges ++ [t.id] })
        | none => .stop e
    else go (applyWrite t.req none)

/-- A merge of the pair is in flight: later writes of the pair wait for it (R22). -/
def mergeOfPair (e : Engine) (la : Nat) : Bool :=
  e.pack.merges.any fun id => match getTxn e id with
    | some t => t.req.la / 2 == la / 2
    | none => false

/-- R402: earlier reads of the line that still wait for tokens are released ahead of the write, in order, as far as
read-queue entries are free; whether all of them are. -/
def releaseEarlier (e : Engine) (n : Nat) (t : Txn) : Engine × Bool :=
  ((heldReads e n t.req.la).filter fun u => (txnsBefore e t.id).any (·.id == u.id)).foldl (fun (a : Engine × Bool) u =>
    let (e, all) := a
    if !all || rqOcc e n ≥ 256 then (e, false)
    else
      let (e, cov) := chargeAhead e u.req.qc n (charge e u false)
      let e := unhold e u.req.qc n u.id
      (packRead e { u with onG := cov == .g, excess := false, ahead := true }, true)) (e, true)

/-- One write of the channel's queue. -/
def lookWrite (d : Dram) (e : Engine) (n : Nat) (t : Txn) : Look :=
  let la := t.req.la
  match releaseEarlier e n t with
  | (e, false) => .stop e
  | (e, true) =>
    if lineHeld e la ∨ earlierRead e t then .passLine e
    else
      match pairEntry e la with
      | some _ =>
        .stop (mapPack (leaveQos e n t) fun p => { p with
          pairs := p.pairs.map fun (q : PairEnt) =>
            if q.pair = la / 2 then { q with writes := q.writes ++ [t.id] } else q })
      | none =>
        if mergeOfPair e la || rebuilding e la || pathLost e (txnRegion e t) la then .pass (endCapWait e (some t.id))
        else match pairBits e (txnRegion e t) la with
          | none => .stop (requestMeta e (scLa e la))
          | some b =>
            if badBits b then .stop (scInvalid e la)
            else decideWrite d e n t (b == 3)

/-- The writes of a channel's queue in arrival order, as far as they pass (R112, R142, R297). `shut` has the lines that
a write which was passed keeps shut to later writes (R22). -/
def lookWrites (d : Dram) (n : Nat) : Engine → List Nat → List Nat → Engine
  | e, _, [] => e
  | e, shut, id :: ids =>
    match getTxn e id with
    | none => lookWrites d n e shut ids
    | some t =>
      if shut.contains t.req.la then lookWrites d n e shut ids
      else match lookWrite d e n t with
        | .stop e => e
        | .pass e => lookWrites d n e (t.req.la / 2 * 2 :: (t.req.la / 2 * 2 + 1) :: shut) ids
        | .passLine e => lookWrites d n e (t.req.la :: shut) ids

/-- R142: behind a write that waits at intake from elsewhere, the later writes of the channel wait. -/
def intakeShut (e : Engine) (n : Nat) : Bool :=
  match (getChan e n).capWait with
  | some w => !(tget [] e.qos.writes n).any fun id => w.2 == some id
  | none => false

/-- WRITE_QUEUE_ENTRY of a channel. -/
def writeEntry (d : Dram) (e : Engine) (n : Nat) : Engine :=
  if intakeShut e n then e else lookWrites d n e [] (tget [] e.qos.writes n)

/-! ## Merge and partner reads that have returned (R80, R81, R297) -/

/-- Takes a returned read. -/
def takeRet (e : Engine) (r : Ret) : Engine :=
  mapPack e fun p => { p with rets := p.rets.filter fun (u : Ret) => !(u == r) }

/-- R80, R81: a merge read has returned: the bytes are merged and the write enters the queue, as soon as
its entries and metadata are there. -/
def mergeReturn (d : Dram) (e : Engine) (t : Txn) (ret : Ret) : Engine :=
  let r := txnRegion e t
  let la := t.req.la
  let k2 := la / 2 * 2
  let fin := fun (e : Engine) => mapPack (takeRet e ret) fun p => { p with merges := p.merges.filter (· != t.id) }
  let hit := fun (e : Engine) => verifyHits e r ret.la none
  let poisoned := fun (e : Engine) => completeWrite (fin (hit e)) false true t.id
  let step := fun (k : Decision) (poison : Bool) (fail : Engine → Engine) =>
    match tryDecision d e t r k k2 with
    | .done e => completeWrite (fin (fail (hit e))) (k.bits == 3) poison t.id
    | .needs m => requestAll e m
    | .full _ | .held => e
    | .cap ch sc => capWait e ch sc (some t.id)
  if rebuilding e la then endCapWait e (some t.id)
  else match pairBits e r la with
  | none => requestMeta e (scLa e la)
  | some b =>
    if badBits b then scInvalid e la else
    let pair := fun (ab : Option (Line × Line)) (fail : Engine → Engine) =>
      let k := packedWrite r t.req ab
      step k.1 k.2 fail
    match openSlot e r ret.la none ret.got with
    | .wait m => requestAll e m
    | .poison => if b = 3 then pair none id else poisoned e
    | .bad => if b = 3 then pair none (integrityFail · r) else poisoned (integrityFail e r)
    | .line x =>
      if b = 3 then pair (unpackPair x) (if (unpackPair x).isNone then (packCheckFail · t.ch) else id)
      else
        let other := if la % 2 = 0 then la + 1 else la - 1
        step (decideSeparate la r.pack (applyWrite t.req (some x)) (queuedCell e r other)) false id

/-- The writes of a pair-table entry applied in order to the pair's contents; the flags say which write
found a poisoned line (R81). -/
def applyWrites (e : Engine) : List Nat → Cell × Cell → (Cell × Cell) × List (Nat × Bool)
  | [], ab => (ab, [])
  | id :: ids, ab =>
    match getTxn e id with
    | none => applyWrites e ids ab
    | some t =>
      let even := t.req.la % 2 = 0
      let old := if even then ab.1 else ab.2
      let x := applyWrite t.req old
      let ab := if even then (x, ab.2) else (ab.1, x)
      let r := applyWrites e ids ab
      (r.1, (id, isPartial t.req && old.isNone) :: r.2)

/-- R297: partner data has arrived: the joined writes are applied in order, one decision is made, and the
entry is freed; waiting reads are answered under R17. -/
def partnerReturn (d : Dram) (e : Engine) (q : PairEnt) (ret : Ret) : Engine :=
  let k2 := q.pair * 2
  match q.writes with
  | [] => takeRet e ret
  | first :: _ =>
    match getTxn e first with
    | none => takeRet e ret
    | some t =>
      let r := txnRegion e t
      let go := fun (ab : Option (Line × Line)) (fail : Engine → Engine) =>
        let w := applyWrites e q.writes (ab.map (·.1), ab.map (·.2))
        let k := decidePacked k2 r.pack ab.isNone w.1.1 w.1.2
        match tryDecision d e t r k k2 with
        | .done e =>
          let e := fail (verifyHits e r k2 none)
          let e := mapPack (takeRet e ret) fun p => { p with pairs := p.pairs.filter fun (x : PairEnt) => x.pair != q.pair }
          let e := w.2.foldl (fun e p => completeWrite e (k.bits == 3) p.2 p.1) e
          q.reads.foldl (fun e id => match getTxn e id with
            | some u => packRead e u
            | none => e) e
        | .needs m => requestAll e m
        | .full _ | .held => e
        | .cap ch sc => capWait e ch sc (some t.id)
      if rebuilding e k2 then endCapWait e (some t.id)
      else match openSlot e r k2 none ret.got with
      | .wait m => requestAll e m
      | .poison => go none id
      | .bad => go none (integrityFail · r)
      | .line x => go (unpackPair x) (if (unpackPair x).isNone then (packCheckFail · q.ch) else id)

end Sys2Proof.Machine
end

