-- ==== Sys2Proof/Machine/Admit.lean ====
section
/-! DEFINITION. What firmware and MEn compute about channel time: the charges (R215, R268, R405), channel
capacity, the class floors and the admission check (R404–R407), and the reported drops (R216, R408). -/

namespace Sys2Proof.Machine

/-! ## Charges, in units of 0.01 % -/

/-- R405: a fraction rounded to the nearest 0.01 %, halves upward. -/
def roundBp (x : Rat) : Nat := (x * 10000 + 1 / 2).floor.toNat

/-- The refresh interval of a channel in CTL cycles (R194), a fraction of a cycle rounded down, as in the tick phases of R197
(DESIGN CHOICE: the rounding is not stated). -/
def refInterval (e : Engine) (n : Nat) (hot : Bool) : Nat :=
  let t := rd e (CH_REF_TIM_TREFI n)
  let t := if gran e n = 0 then t else t / 2
  if hot then t / 2 else t

/-- Busy time of the refresh command of GRAN, in CTL cycles. -/
def refBusy (e : Engine) (n : Nat) : Nat :=
  match gran e n with
  | 0 => rd e (CH_TIM6_TRFC1 n)
  | 1 => rd e (CH_TIM6_TRFC2 n)
  | _ => rd e (CH_TIM6_TRFCSB n)

/-- R215: the refresh charge. -/
def refCharge (e : Engine) (n : Nat) (hot : Bool) : Nat :=
  let i : Rat := rd e (CH_REF_TIM_TREFI n)
  let i := if gran e n = 0 then i else i / 2
  let i := if hot then i / 2 else i
  roundBp ((refBusy e n : Rat) / i)

/-- R215: the Row Guard charge. -/
def rgCharge (e : Engine) (n : Nat) (hot : Bool) : Nat :=
  if rd e (CH_RG_CTRL_RG_MODE n) = 2 then 0
  else
    let t : Rat := (rd e (CH_TIM0_TRP n) : Rat) / 4 + rd e (CH_TIM7_TDRFM n)
    let c := 65 * 32 * 2 ^ cidBits e * t / (8192 * rd e (CH_REF_TIM_TREFI n))
    roundBp (if hot then 2 * c else c)

/-- R215: the refresh-management charge; the ACT rate at full DQ use is one in two CTL cycles. -/
def rfmCharge (e : Engine) (n : Nat) : Nat :=
  if on e (CH_RG_RFM_RFM_REQ n) then
    roundBp ((4 * rd e (CH_TIM9_TRFMSB n) : Rat) / (rd e (CH_RG_RFM_RAAIMT n) * 32 * 2 ^ (gcfg e).k))
  else 0

/-- Peak bandwidth of a channel in units of 10 MB/s. -/
def peakBw (e : Engine) : Nat := binRate e.clk.bin * 8 / 10

/-- R268: the scrub charge. -/
def scrubCharge (e : Engine) (n : Nat) : Nat :=
  let bytes : Rat := dumpBase (gcfg e) * 2 ^ (19 + (gcfg e).k)
  let bs := bytes / (3600 * rd e (CH_SCRUB_CTRL_PERIOD_H n))
  roundBp (max (1 / 10000) (2 * bs / (peakBw e * 10 ^ 7)))

/-- The charge of R215 in a temperature state. -/
def mntCharge (e : Engine) (n : Nat) (hot : Bool) : Nat :=
  refCharge e n hot + rgCharge e n hot + rfmCharge e n

/-- HOT_ADMIT (R405). -/
def hotAdmit (e : Engine) : Bool := on e QOS_CTRL_HOT_ADMIT

/-- R405: the derating fraction d of a channel. -/
def derate (e : Engine) (n : Nat) : Nat := mntCharge e n (hotAdmit e) + scrubCharge e n + 10

/-- R405: C of a channel in units of 10 MB/s. -/
def capacity (e : Engine) (n : Nat) : Nat := peakBw e * (10000 - derate e n) / 10000

/-- R405: HOT_DELTA of a channel. -/
def hotDelta (e : Engine) (n : Nat) : Nat :=
  if hotAdmit e then 0
  else ((mntCharge e n true - mntCharge e n false) * peakBw e + 9999) / 10000

/-! ## Floors (R407) -/

/-- One CTL cycle in nanoseconds. -/
def ctlNs (e : Engine) : Rat := 8000 / (binRate e.clk.bin : Rat)

/-- T_conf: the row-conflict latency at the boundary. -/
def tConf (e : Engine) (n : Nat) : Rat :=
  let phy : Nat := 16 + rd e (CH_TIM0_TRP n) + rd e (CH_TIM0_TRCD n) + rd e (CH_TIM5_RL n)
  (30 + (phy : Rat) / 4) * ctlNs e + 7 / 4

/-- T_block. -/
def tBlock (e : Engine) (n : Nat) : Rat :=
  let d := if rd e (CH_RG_CTRL_RG_MODE n) = 2 then 0 else rd e (CH_TIM7_TDRFM n)
  let m := if on e (CH_RG_RFM_RFM_REQ n) then rd e (CH_TIM7_TRFMAB n) else 0
  (max (refBusy e n) (max d m) + 32 : Nat) * ctlNs e

/-- Counter-tree levels held in lines (R327). -/
def treeLevels (e : Engine) : Nat := (rd e CRY_CTRL_FRESH_LOG2 - 12 + 5) / 6 + 1

/-- T_mode. -/
def tMode (e : Engine) : Nat → Rat
  | 0 => 0
  | 1 => 4
  | 2 => 41 / 4
  | _ => 41 / 4 + 4 * treeLevels e

/-- F(MODE) in units of 10 ns, the largest over the channels in service. -/
def floorOf (e : Engine) (mode : Nat) : Nat :=
  (serviceChans e).foldl (fun m n =>
    max m ((tConf e n + tMode e mode + tBlock e n) / 10).ceil.toNat) 0

/-! ## Reservations (R406) -/

/-- What a class reserves: read and write rate in 10 MB/s, and its most costly mode. -/
structure Resv where
  rd : Nat
  wr : Nat
  mode : Nat
  deriving DecidableEq, Repr

/-- The CRY_ADM factors of a mode, reads and writes, in sixteenths (R343). -/
def admFactor (e : Engine) : Nat → Nat × Nat
  | 2 => (rd e CRY_ADM_AUTH_RD, rd e CRY_ADM_AUTH_WR)
  | 3 => (rd e CRY_ADM_FRESH_RD, rd e CRY_ADM_FRESH_WR)
  | _ => (16, 16)

/-- w_c of a reservation, rounded up to 10 MB/s. -/
def weightOf (e : Engine) (r : Resv) : Nat :=
  let f := admFactor e r.mode
  (r.rd * f.1 + r.wr * f.2 + 15) / 16

/-- The mode of a class's floor. -/
def floorMode (e : Engine) (r : Resv) : Nat :=
  if r.rd = 0 ∧ r.wr = 0 then (if rd e CRY_CTRL_FRESH_LOG2 ≠ 0 then 3 else 2) else r.mode

/-- R407: the admission check over the reservations of the eight classes, with the staged ceilings and
targets. -/
def admits (e : Engine) (rs : List Resv) : Bool :=
  let w := fun c => weightOf e (nth rs c ⟨0, 0, 0⟩)
  let total := ((List.range 8).map w).sum
  let cap := ((serviceChans e).map (capacity e)).sum
  decide (10 * total ≤ 9 * cap) &&
    (List.range 8).all fun c =>
      (rd e (QOS_CLASS_LIMIT_EN c) == 0 || decide (w c ≤ rd e (QOS_CLASS_CEIL c))) &&
      (rd e (QOS_TGT_TARGET c) == 0 ||
        decide (floorOf e (floorMode e (nth rs c ⟨0, 0, 0⟩)) ≤ rd e (QOS_TGT_TARGET c)))

/-- R405: firmware writes BASE and HOT_DELTA of every channel. -/
def writeCaps (e : Engine) : Engine :=
  shedAsk ((serviceChans e).foldl (fun e n =>
    setReg e (QOS_CAP n) (setFields 0
      [(QOS_CAP_BASE n, capacity e n), (QOS_CAP_HOT_DELTA n, hotDelta e n)])) e)

/-! ## Drops (R408) -/

/-- The sparing copy runs. -/
def spareRuns (e : Engine) : Bool :=
  let s := spareCfg e
  s.active && decide (s.ptr < unitLines (gcfg e) s)

/-- R408: FW_DROP of a channel; a share of RATE is rounded up. -/
def fwDrop (e : Engine) (n : Nat) : Nat :=
  let s := spareCfg e
  let rate := 100 * rd e GC_SPARE_RATE_RATE
  if (getChan e n).train.offline then rd e (QOS_CAP_BASE n)
  else if spareRuns e then
    if s.rankScope then (if n = s.failCh then 2 * rate else 0)
    else if n = s.failCh then rate
    else if n < 2 ^ (gcfg e).c then (rate + 14) / 15 else 0
  else 0

/-- R408: firmware writes FW_DROP of every channel. -/
def writeDrops (e : Engine) : Engine :=
  shedAsk ((List.range 16).foldl (fun e n => wr e (QOS_DROP_FW_DROP n) (fwDrop e n)) e)

end Sys2Proof.Machine
end

