-- ==== Sys2Proof/Machine/Patrol.lean ====
section
/-! DEFINITION. What MEn's scrub reads: the slots at the patrol position, the lines of a commanded pass, the slots that
scrub skips, and the rows that MEn may open (R209, R213, R214, R262, R264, R267). -/

namespace Sys2Proof.Machine

/-- A slot of the spared-out unit below PTR, or of the whole unit once its copy is complete. -/
def sparedOut (e : Engine) (l : Loc) : Bool :=
  let g := gcfg e
  let s := spareCfg e
  s.active && inFailed s l && (decide (unitOffset g s l < s.ptr) || decide (unitLines g s ≤ s.ptr))

/-- R274: the location lies in a rank or channel whose sparing copy is complete. -/
def sparedUnit (e : Engine) (l : Loc) : Bool :=
  let s := spareCfg e
  s.active && inFailed s l && decide (unitLines (gcfg e) s ≤ s.ptr)

/-- The slots of an operation that are read. -/
def scrubbed (e : Engine) (n : Nat) (ls : List Loc) : List Loc :=
  ls.filter fun l => (findWrite (getChan e n) l).isNone && !sparedOut e l

/-- The four slots at the patrol position. -/
def patrolSlots (e : Engine) (n : Nat) : List Loc :=
  (List.range 4).map fun i =>
    { ch := n, sc := rd e (CH_SCRUB_POS_SC n), rank := rd e (CH_SCRUB_POS_RANK n)
      bg := rd e (CH_SCRUB_POS_BG n), bank := rd e (CH_SCRUB_POS_BANK n)
      row := rd e (CH_SCRUB_PTR_ROW n), col := 4 * rd e (CH_SCRUB_POS_COLQ n) + i }

/-- The lines of a pass whose slots lie in the group of four slots of a line's slot, in slot order (R262, R267). -/
def groupLines (e : Engine) (p : Pass) (la : Nat) : List Nat :=
  let l := lineLoc e la
  ((List.range 4).filterMap fun i => slotLa e { l with col := l.col / 4 * 4 + i }).filter fun m =>
    decide (p.base ≤ m) && decide (m ≤ p.last)

/-- The first line from `la` on, of `k` lines, that lies in a channel and comes first in its group. -/
def findGroup (e : Engine) (n : Nat) (p : Pass) : Nat → Nat → Option Nat
  | 0, _ => none
  | k + 1, la =>
    if targetCh e la = n ∧ (groupLines e p la).all (la ≤ ·) then some la else findGroup e n p k (la + 1)

/-- The line that the next operation of a pass begins with. -/
def passNext (e : Engine) (n : Nat) (p : Pass) : Option Nat := findGroup e n p (p.last + 1 - p.next) p.next

/-- The slots of the next operation of a channel's oldest pass: the lines of the range in a group of four slots. -/
def passSlots (e : Engine) (n : Nat) : List Loc :=
  match (getChan e n).pass with
  | [] => []
  | p :: _ => match passNext e n p with
    | some la => (groupLines e p la).map (lineLoc e)
    | none => []

/-- MEn may read or write slots of one row: no hold stands on their rank, and their row is open or may be opened. -/
def meReach (e : Engine) (n : Nat) (ls : List Loc) : Bool :=
  ls.all fun l => rankFree e n (prankIx e l.rank) &&
    ((bankAt (getChan e n) l).row == some l.row || !actRefused e n .me (getChan e n) l (nowPhy e))

/-! ## Reads without a preamble (R224) -/

/-- Which sequence a missed read belongs to. -/
def MissUse.kind : MissUse → Nat
  | .scrub => 0
  | .reread _ => 1
  | .save _ => 2
  | .copy => 3
  | .line _ => 4

/-- A missed read of a sequence waits. -/
def missAny (e : Engine) (n k : Nat) : Bool := (getChan e n).missed.any fun m => m.use.kind == k

/-- The first missed read of a sequence whose window has passed and which can be issued again. -/
def missDue (e : Engine) (n k : Nat) : Option Missed :=
  (getChan e n).missed.find? fun m => m.use.kind == k &&
    decide (m.cyc + rd e (CH_TRN_CFG_PAR_WIN n) ≤ e.clk.cyc) && (m.again || meReach e n [m.loc])

end Sys2Proof.Machine
end

