-- ==== Sys2Proof/Machine/Arbiter.lean ====
section
/-! DEFINITION. The channel ownership arbiter (R170–R193): who bids, the scores, grants, preemption and
release, and the watchdogs. -/

namespace Sys2Proof.Machine

/-- The holder: 0 none, 1 scheduler, 2 MEn, 3 TSn. -/
def holder (e : Engine) (n : Nat) : Nat := rd e (CH_ARB_STATE_HOLDER n)

/-- Changes the arbiter of a channel. -/
def mapArb (e : Engine) (n : Nat) (f : Arb → Arb) : Engine :=
  let c := getChan e n
  putChan e n { c with arb := f c.arb }

/-! ## What each requester wants -/

/-- The unissued reads of a subchannel. -/
def queuedReads (c : Chan) (sc : Nat) : List RqEntry :=
  c.rq.filter fun r => r.loc.sc == sc && r.issued.isNone

/-- The queued writes of a subchannel, replay writes first (R241). -/
def queuedWrites (c : Chan) (sc : Nat) : List WqEntry :=
  (c.replay ++ c.wq).filter fun w => w.loc.sc == sc

/-- R171: the scheduler has a queued entry that the subchannel could serve; the fatal write-out runs
whatever SCHED_EN is (R154). -/
def schedWants (e : Engine) (n sc : Nat) : Bool :=
  let c := getChan e n
  if c.arb.dump then false
  else if c.arb.fatal then !c.ownFault && !(queuedWrites c sc).isEmpty
  else on e (CH_SCHED_CTRL_SCHED_EN n) &&
    (!(queuedReads c sc).isEmpty ||
      ((getSub c sc).drain.kind.isSome && !(queuedWrites c sc).isEmpty))

/-- R195: the refresh mode of GRAN differs from the one last written to a rank's devices. -/
def modeDiffers (e : Engine) (n i : Nat) : Bool :=
  (getPRank (getChan e n) i).mode != bit (gran e n != 0)

/-- The first command of an operation of MEn on a physical rank, which PDX precedes in power-down (R464), will be legal on
some subchannels in the next CTL cycle (R198). -/
def opSoon (e : Engine) (n : Nat) (scs : List Nat) (k : DKind) (l : Loc) : Bool :=
  if (getPRank (getChan e n) (prankIx e l.rank)).pd then [0, 1].all fun sc => soonLegal e n sc .pdx l
  else scs.all fun sc => soonLegal e n sc k l

/-- The first command of a refresh of a physical rank, or of the write of its refresh mode before it, will be legal in the
next CTL cycle (R195, R198). -/
def refreshSoon (e : Engine) (n i : Nat) : Bool :=
  let r := getPRank (getChan e n) i
  let sb := gran e n == 2 && !modeDiffers e n i
  let op := rankOpen e n i (if sb then some r.unit else none)
  let k : DKind := if sb then (if op then .presb else .refsb) else if op then .preab
    else if modeDiffers e n i then .mrw else .refab
  opSoon e n [0, 1] k (rankLoc e n i r.unit)

/-- The pending row that a mitigation of a bank acts on: a sampled one first, then the open one. -/
def pendingRow (b : Bank) : Option RgRow :=
  match b.rg.find? fun r => r.pending && r.sampled with
  | some r => some r
  | none =>
    match b.rg.find? fun r => r.pending && b.row == some r.row with
    | some r => some r
    | none => b.rg.find? (·.pending)

/-- The location of a bank by its key. -/
def bankLoc (n k : Nat) : Loc := ⟨n, k / 512, k / 32 % 16, k / 4 % 8, k % 4, 0, 0⟩

/-- The first command of the mitigation of a bank will be legal in the next CTL cycle (DEDUCED: R198 says it of an
operation, R207 calls a mitigation one). -/
def mitSoon (e : Engine) (n k : Nat) (b : Bank) : Bool :=
  match pendingRow b with
  | none => false
  | some r =>
    let l := bankLoc n k
    let kind : DKind := if b.row.isSome then .pre else if r.sampled then .drfm else .act
    opSoon e n [l.sc] kind l

/-- Some physical rank below the channel's count satisfies a condition. -/
def anyRank (e : Engine) (f : Nat → Bool) : Bool := (List.range (pranks e)).any f

/-- Every rank that is in use is in self-refresh. -/
def allSelfRefresh (e : Engine) (n : Nat) : Bool :=
  (List.range (pranks e)).all fun i => (getPRank (getChan e n) i).sr

/-- A self-refresh entry waits for MEn (R154, R185): the write queue is empty, or the channel's own data
path holds the fault. -/
def wantsSelfRefresh (e : Engine) (n : Nat) : Bool :=
  let c := getChan e n
  c.arb.fatal && c.arb.sre && (c.ownFault || (c.wq.isEmpty && c.replay.isEmpty))

/-- The ranks of a slot that a back-off is handled on: those that serve (R278). -/
def backoffRanks (e : Engine) (n s : Nat) : List Nat := (slotRanks e s).filter (rankServes e n)

/-- The first command of the back-off handling of a slot is legal in the next CTL cycle. -/
def backoffSoon (e : Engine) (n s : Nat) : Bool :=
  (backoffRanks e n s).all fun i =>
    meMay e n i && [0, 1].all fun sc =>
      soonLegal e n sc (if rankOpen e n i none then .preab else .rfmab) (rankLoc e n i 0)

/-- A back-off waits for its RFMab commands, and the next round of them can issue. -/
def wantsBackoff (e : Engine) (n : Nat) : Bool :=
  (getChan e n).alerts.any fun p => p.2.backoff && p.2.upto.isNone && backoffSoon e n (p.1 - 2)

/-- A count of R213 has reached a threshold in a bank whose rank MEn may address. -/
def raaAt (e : Engine) (n th : Nat) : Bool :=
  on e (CH_RG_CTRL_RG_EN n) && on e (CH_RG_RFM_RFM_REQ n) &&
    (getChan e n).banks.any fun p => decide (p.2.raa ≥ th) && meMay e n (prankIx e (bankLoc n p.1).rank)

/-- A bank of the bank index that RFMsb addresses from a location is open. -/
def rfmOpen (e : Engine) (n : Nat) (l : Loc) : Bool :=
  (rankBanks e n l.sc (prankIx e l.rank)).any fun b => b.bank == l.bank && (bankAt (getChan e n) b).row.isSome

/-- The same, of a bank whose RFMsb, or the PREsb before it, will be legal in the next CTL cycle. -/
def raaSoon (e : Engine) (n th : Nat) : Bool :=
  raaAt e n th && (getChan e n).banks.any fun p =>
    let l := bankLoc n p.1
    decide (p.2.raa ≥ th) && meMay e n (prankIx e l.rank) && opSoon e n [l.sc] (if rfmOpen e n l then .presb else .rfmsb) l

/-- The reads of MR4 are due, and the first of them will be legal in the next CTL cycle (R201). -/
def mrrSoon (e : Engine) (n : Nat) : Bool :=
  (getChan e n).mrrWant && match (List.range (pranks e)).filter (rankServes e n) with
    | i :: is => (i :: is).all (rankFree e n) && opSoon e n [0, 1] .mrr (rankLoc e n i 0)
    | [] => true

/-- R30: a refresh that can no longer be postponed is due in the bank. -/
def urgentCovers (e : Engine) (n : Nat) (l : Loc) : Bool :=
  let i := prankIx e l.rank
  on e (CH_REF_CTRL_REF_EN n) && on e (urgentF n i) &&
    (gran e n != 2 || l.bank == (getPRank (getChan e n) i).unit)

/-- MEn can go on with the mitigation of a bank: one that an urgent refresh covers goes with the refresh (R30). -/
def canMitigate (e : Engine) (n : Nat) (l : Loc) : Bool :=
  let c := getChan e n
  let b := bankAt c l
  let acts := match pendingRow b with
    | some r => !r.sampled && b.row != some r.row
    | none => false
  meMay e n (prankIx e l.rank) && on e (CH_RG_CTRL_RG_EN n) && bankPending b &&
    !abRefused e c l.rank (nowPhy e) && !(acts && (bankShut e n b).2) && !urgentCovers e n l

/-- The copy of the sparing unit runs on this channel: outside RUN, and while a power-state entry is in progress, PTR is
held (R276, R277). -/
def copyRuns (e : Engine) (n : Nat) : Bool :=
  let s := spareCfg e
  s.active && s.failCh == n && decide (s.ptr < unitLines (gcfg e) s) && !isSafe e && rd e PWR_STATE_STATE == 0 &&
    !on e PWR_STATE_TRANS

/-- The target's write queue takes the copy (R166), as far as its entries and the writes that wait at its intake go
(R142). -/
def copyEnters (e : Engine) (l : Loc) : Bool :=
  let c := getChan e l.ch
  on e (CH_SCHED_CTRL_SCHED_EN l.ch) && (match c.capWait with
    | some w => w.2.isNone
    | none => true) && ((findWrite c l).isSome || decide (c.wq.length < 192))

/-- R142: the copy keeps the target's write queue within BANK_MAX. -/
def copyRoom (e : Engine) (l : Loc) : Bool :=
  let c := getChan e l.ch
  (findWrite c l).isSome || bankRoom c (rd e (CH_SPARGE_BANK_MAX l.ch)) [l]

/-- The next line of the sparing copy is due: RATE admits it (R276), both of its slots can be reached, and the target
channel takes writes. -/
def copyDue (e : Engine) (n : Nat) : Bool :=
  let s := spareCfg e
  let g := gcfg e
  let l := unitLoc g s s.ptr
  if missAny e n 3 then copyRuns e n && (missDue e n 3).isSome && copyEnters e (spareTarget g s s.ptr)
  else copyRuns e n && decide ((getChan e n).copyAt ≤ e.clk.nominal) && (getChan e n).repair.isNone && meMay e n (prankIx e l.rank) &&
    ((findWrite (getChan e n) l).isSome || meReach e n [l]) && copyEnters e (spareTarget g s s.ptr)

/-- It can be copied: it is due, and its write does not wait at the target's intake. -/
def copyReady (e : Engine) (n : Nat) : Bool :=
  let s := spareCfg e
  copyDue e n && copyRoom e (spareTarget (gcfg e) s s.ptr)

/-- MEn may issue a repair's commands to its physical rank, which may be spared out (R274). -/
def repairMay (e : Engine) (n : Nat) (r : Repair) : Bool :=
  let i := prankIx e r.loc.rank
  decide (i < pranks e) && !(getPRank (getChan e n) i).sr && rankFree e n i

/-- The next step of the channel's repair can run. -/
def repairReady (e : Engine) (n : Nat) : Bool :=
  match (getChan e n).repair with
  | some r => !isSafe e && repairMay e n r && match r.phase with
      | 0 => true
      | 1 => if missAny e n 2 then (missDue e n 2).isSome
        else r.hard || decide (r.saved.length ≥ 128) || meReach e n [r.loc]
      | 2 => match r.prog with
        | some t => decide (t ≤ e.clk.nominal)
        | none => decide (r.keys < 4) || meReach e n [r.loc]
      | _ => meReach e n [r.loc]
  | none => false

/-- An offline training run is in progress on the channel (R235). -/
def offlineRuns (e : Engine) (n : Nat) : Bool :=
  on e (CH_TRN_STATE_BUSY n) && rd e (CH_TRN_STATE_RUN_MODE n) == 2

/-- Patrol is due. -/
def patrolDue (e : Engine) (n : Nat) : Bool :=
  on e (CH_SCRUB_CTRL_SCRUB_EN n) && decide (e.clk.nominal ≥ (getChan e n).scrubAt) && !offlineRuns e n

/-- An operation of the patrol can run: it is due, and MEn can reach the slots that it reads. -/
def patrolReady (e : Engine) (n : Nat) : Bool :=
  patrolDue e n && meReach e n (scrubbed e n (patrolSlots e n))

/-- An operation of a commanded pass can run. -/
def passReady (e : Engine) (n : Nat) : Bool :=
  !(getChan e n).pass.isEmpty && !offlineRuns e n && meReach e n (scrubbed e n (passSlots e n))

/-- Patrol or a commanded pass has an operation to do, or a read of one to issue again (R224); both skip a channel in an
offline training run (R262). -/
def scrubReady (e : Engine) (n : Nat) : Bool :=
  !isSafe e && if missAny e n 0 then (missDue e n 0).isSome else patrolReady e n || passReady e n

/-- A slot waits for its second read, and MEn can reach it. -/
def rereadReady (e : Engine) (n : Nat) : Bool :=
  !isSafe e && if missAny e n 1 then (missDue e n 1).isSome else match (getChan e n).rereads with
    | r :: _ => r.cancelled || (findWrite (getChan e n) r.loc).isSome || meReach e n [r.loc]
    | [] => false

/-- The ECS counts wait to be read, and no hold stands in the way (R269). -/
def ecsReady (e : Engine) (n : Nat) : Bool :=
  !isSafe e && (getChan e n).ecsWant &&
    ((List.range (pranks e)).filter (rankServes e n)).all (rankFree e n)

/-- A refresh operation of a physical rank is wanted. -/
def refreshWanted (e : Engine) (n i : Nat) : Bool :=
  meMay e n i && on e (CH_REF_CTRL_REF_EN n) &&
    (on e (dueF n i) || (getPRank (getChan e n) i).opp || modeDiffers e n i)

/-- The kind of MEn's line, 0 where it is not raised (R170, R192): a line is raised for an operation that MEn could
begin under its grant. The reads of MR4 go under kind REF and those of the ECS counts under kind SCRUB (DESIGN CHOICE: no
kind is stated for them). -/
def meWant (e : Engine) (n : Nat) : Nat :=
  let c := getChan e n
  if wantsSelfRefresh e n || wantsBackoff e n || raaSoon e n (rd e (CH_RG_RFM_RAAMMT n)) ||
      anyRank e (fun i => refreshWanted e n i && on e (urgentF n i) && refreshSoon e n i) then 5
  else if c.arb.fatal then 0
  else if c.banks.any (fun (p : Nat × Bank) => canMitigate e n (bankLoc n p.1) && mitSoon e n p.1 p.2) ||
      raaSoon e n (rd e (CH_RG_RFM_RAAIMT n)) then 2
  else if anyRank e (fun i => refreshWanted e n i && refreshSoon e n i) || mrrSoon e n then 1
  else if repairReady e n || copyReady e n then 4
  else if rereadReady e n || scrubReady e n || ecsReady e n then 3
  else 0

/-- A drift measurement has a unit to issue: its oscillators wait to be started, or 2,048 tCK have passed since they
were (R234). -/
def driftReady (e : Engine) (n : Nat) : Bool :=
  on e (CH_TRN_CTRL_TRN_EN n) && match (getChan e n).train.track with
  | some (i, none) => decide (i < pranks e)
  | some (_, some t) => decide (t + 2048 ≤ nowPhy e)
  | none => false

/-- The PHY cycle in which a rank's oscillators last started. -/
def oscStart (e : Engine) (n p : Nat) : Nat :=
  (getSub (getChan e n) 1).log.foldl (fun m d => if d.kind == .mpc && prankIx e d.rank == p then max m d.t else m) 0

/-- The run's next unit reads oscillators that have not run for 2,048 tCK (R234). -/
def oscWait (e : Engine) (n : Nat) : Bool :=
  rd e (CH_TRN_STATE_STEP n) == 10 && (getChan e n).train.units == 9 &&
    decide (nowPhy e < oscStart e n (rd e (CH_TRN_STATE_PRANK n)) + 2048)

/-- TSn's line is raised: a run is in progress and its gap has passed (R231), or a drift measurement has a unit. -/
def tsWant (e : Engine) (n : Nat) : Bool :=
  let c := getChan e n
  !c.arb.fatal && decide (e.clk.nominal ≥ c.train.gapUntil) &&
    ((on e (CH_TRN_STATE_BUSY n) && !oscWait e n) || driftReady e n)

/-- Steep runs on the channel: TSn holds it without interruption, and no slice is counted (R225). -/
def steepRuns (e : Engine) (n : Nat) : Bool := on e (CH_TRN_STATE_BUSY n) && rd e (CH_TRN_STATE_RUN_MODE n) == 0

/-! ## Priorities and scores (R170, R172, R174) -/

/-- PRIO of the scheduler over the reads of some subchannels. -/
def schedPrio (e : Engine) (n : Nat) (scs : List Nat) : Nat :=
  let c := getChan e n
  if c.arb.fatal then 7
  else
    let pris := (c.rq.filter fun r => r.issued.isNone && scs.contains r.loc.sc).map (·.pri)
    let full := if c.wq.length ≥ 192 then 7 else 0
    max full (pris.foldl max (rd e (CH_ARB_PRIO_P_DATA n)))

/-- PRIO of a kind of MEn. -/
def mePrio (e : Engine) (n : Nat) : Nat → Nat
  | 1 => rd e (CH_ARB_PRIO_P_REF n)
  | 2 => rd e (CH_ARB_PRIO_P_MIT n)
  | 3 => rd e (CH_ARB_PRIO_P_SCRUB n)
  | 4 => rd e (CH_ARB_PRIO_P_REPAIR n)
  | 5 => rd e (CH_ARB_PRIO_P_URGENT n)
  | _ => 0

/-- The score of a bid raised in a CTL cycle. -/
def scoreOf (e : Engine) (since prio : Nat) : Nat := min 4095 (e.clk.cyc - since) + prio * 256

/-- A bid that is posted by now. -/
def posted (e : Engine) (b : Option Nat) : Option Nat := b.filter fun t => decide (t ≤ e.clk.cyc)

/-- The three bids' scores: MEn, TSn, scheduler. -/
structure Bids where
  me : Option Nat
  ts : Option Nat
  sched : Option Nat
  deriving DecidableEq, Repr

def bids (e : Engine) (n : Nat) : Bids :=
  let a := (getChan e n).arb
  let p := fun sc => (posted e (nth a.park sc none)).map fun t => scoreOf e t (schedPrio e n [sc])
  { me := (posted e a.me).map fun t => scoreOf e t (mePrio e n (rd e (CH_ARB_STATE_ME_KIND n)))
    ts := (posted e a.ts).map fun t => scoreOf e t (rd e (CH_ARB_PRIO_P_TRAIN n))
    sched := match p 0, p 1 with
      | some x, some y => some (max x y)
      | some x, none => some x
      | none, y => y }

/-- The holder's current PRIO (R174). -/
def holdPrio (e : Engine) (n : Nat) : Nat :=
  match holder e n with
  | 1 => schedPrio e n [0, 1]
  | 2 => mePrio e n (rd e (CH_ARB_STATE_ME_KIND n))
  | 3 => rd e (CH_ARB_PRIO_P_TRAIN n)
  | _ => 0

/-- The highest waiting score. -/
def topScore (b : Bids) : Nat := max (b.me.getD 0) (max (b.ts.getD 0) (b.sched.getD 0))

/-- The winner of a contest: MEn, then TSn, then the scheduler on equal scores (R172). -/
def winner (b : Bids) : Nat :=
  let t := topScore b
  if b.me = some t then 2 else if b.ts = some t then 3 else if b.sched = some t then 1 else 0

/-! ## Lines, release and contest -/

/-- R171: bids are posted and withdrawn as the requesters want; a bid that stays keeps its age, and a new one counts
from CTL cycle `cyc`. -/
def syncFrom (cyc : Nat) (e : Engine) (n : Nat) : Engine :=
  let h := holder e n
  let c := getChan e n
  let keep := fun (want : Bool) (old : Option Nat) => if want then some (old.getD cyc) else none
  let k := meWant e n
  let ts := keep (decide (h ≠ 3) && tsWant e n) c.arb.ts
  let me := keep (decide (h ≠ 2) && decide (k ≠ 0)) c.arb.me
  let park := [keep (decide (h ≠ 1) && schedWants e n 0) (nth c.arb.park 0 none),
    keep (decide (h ≠ 1) && schedWants e n 1) (nth c.arb.park 1 none)]
  let e := putChan e n { c with arb := { c.arb with park := park, me := me, ts := ts } }
  let st := CH_ARB_STATE n
  setReg e st (setFields (reg e st)
    [(CH_ARB_STATE_ME_KIND n, if h = 2 then rd e (CH_ARB_STATE_ME_KIND n) else k),
     (CH_ARB_STATE_WAIT_TRAIN n, bit ts.isSome), (CH_ARB_STATE_WAIT_MAINT n, bit me.isSome),
     (CH_ARB_STATE_WAIT_DATA n, bit (park.any (·.isSome)))])

/-- The lines as the requesters want them now. -/
def syncLines (e : Engine) (n : Nat) : Engine := syncFrom e.clk.cyc e n

/-- The PHY cycle at which the last command of a channel is off its CA bus. -/
def busEnd (e : Engine) (n : Nat) : Nat :=
  (getChan e n).subs.foldl (fun m s => s.log.foldl (fun m d => max m (d.t + caCycles d.kind)) m) 0

/-- The CTL cycle that follows a release: the holder has held the channel for a cycle, its last command is off the bus, and
the cycle before `k` has ended (R175, R177). -/
def nextBid (e : Engine) (n k : Nat) : Nat := max ((getChan e n).arb.since + 1) (max k ((busEnd e n + 3) / 4))

/-- The channel becomes free, and its holder may bid again from a CTL cycle (R177). -/
def freeFrom (e : Engine) (n cyc : Nat) : Engine :=
  let c := getChan e n
  let e := putChan e n { c with arb := { c.arb with pend := none, wd := e.clk.nominal } }
  let e := wr (wr e (CH_ARB_STATE_PREEMPT_PEND n) 0) (CH_ARB_STATE_HOLDER n) 0
  let e := wr e (CH_TRN_STATE_HELD n) 0
  let e := wr e (CH_ARB_STATE_HOLD_PRIO n) 0
  syncFrom cyc e n

/-- The same, from the CTL cycle that follows the last command. -/
def freeChan (e : Engine) (n : Nat) : Engine := freeFrom e n (nextBid e n e.clk.cyc)

/-- The channel is released at the end of the CTL cycle before `k`; a release with preemption pending completes the
preemption (R177). -/
def releaseAt (e : Engine) (n k : Nat) : Engine :=
  let c := nextBid e n k
  freeFrom (if (getChan e n).arb.pend.isSome then inc e (CH_CNT_PREEMPT n) else e) n c

/-- The same, at the end of the last CTL cycle. -/
def releaseChan (e : Engine) (n : Nat) : Engine := releaseAt e n e.clk.cyc

/-- A command of the channel is still partly on a CA bus at the end of the CTL cycle before `k`. -/
def busCrossing (e : Engine) (n k : Nat) : Bool := decide (busEnd e n > 4 * k)

/-- The PRE of an open row is still to come under the adaptive policy (R144): work left to issue (DEDUCED: only the
holder can issue it, and a scheduler without a queued entry makes no bid). -/
def closeDue (e : Engine) (n : Nat) : Bool :=
  on e (CH_SCHED_CTRL_SCHED_EN n) && rd e (CH_SCHED_CTRL_PAGE_POL n) == 2 && !(getChan e n).arb.fatal &&
    (getChan e n).banks.any fun (p : Nat × Bank) => p.2.row.isSome

/-- R175, R177: the scheduler gives up a channel in which it has nothing left to issue, or at its preemption point with
preemption pending since an earlier CTL cycle; the point is the end of the CTL cycle before `k`. -/
def schedYieldAt (e : Engine) (n k : Nat) : Engine :=
  let c := getChan e n
  if holder e n = 1 ∧ busCrossing e n k = false then
    let due := match c.arb.pend with
      | some p => decide (p < e.clk.cyc)
      | none => false
    if due || (!schedWants e n 0 && !schedWants e n 1 && !closeDue e n) then releaseAt e n k else e
  else e

/-- The same at the end of the last CTL cycle. -/
def schedYield (e : Engine) (n : Nat) : Engine := schedYieldAt e n e.clk.cyc

/-- R173, R179, R188: the winner holds the channel from the next CTL cycle, its watchdog counts from there, and a resumed
slice has a new limit. -/
def grantTo (e : Engine) (n w : Nat) : Engine :=
  let c := getChan e n
  let a := c.arb
  let a := { a with
    since := e.clk.cyc + 1, pend := none, wd := (tick e 1).clk.nominal,
    park := if w = 1 then [none, none] else a.park,
    me := if w = 2 then none else a.me, ts := if w = 3 then none else a.ts }
  let tr := if w = 3 then { c.train with slice := some (tick e 1).clk.nominal } else c.train
  let newSlice := decide (w = 3) && c.train.slice.isNone && on e (CH_TRN_STATE_BUSY n) && !steepRuns e n
  let e := putChan e n { c with arb := a, train := tr }
  let e := wr e (CH_ARB_STATE_HOLDER n) w
  let e := if w = 3 then wr e (CH_TRN_STATE_HELD n) 1 else e
  if newSlice then addF (inc e (CH_CNT_TRN_SLICE n)) (CH_TRN_STATE_SLICES n) 1 else e

/-- The preemption enable of the holder (R176). -/
def preemptOk (e : Engine) (n : Nat) : Bool :=
  match holder e n with
  | 1 => on e (CH_ARB_CTRL_PRE_DATA n)
  | 2 => on e (CH_ARB_CTRL_PRE_MAINT n)
  | 3 => on e (CH_ARB_CTRL_PRE_TRAIN n) && !steepRuns e n
  | _ => false

/-- R176: preemption pending is re-evaluated. -/
def evalPreempt (e : Engine) (n : Nat) (top : Nat) : Engine :=
  let p := decide (top > holdPrio e n * 256) && preemptOk e n
  let e := mapArb e n fun a => { a with pend := if p then some (a.pend.getD e.clk.cyc) else none }
  wr e (CH_ARB_STATE_PREEMPT_PEND n) (bit p)

/-- MEn has an operation left of the kind that it holds the channel for. -/
def meStill (e : Engine) (n : Nat) : Bool :=
  let c := getChan e n
  let ref := anyRank e (refreshWanted e n)
  let mit := c.banks.any (fun (p : Nat × Bank) => canMitigate e n (bankLoc n p.1)) || raaAt e n (rd e (CH_RG_RFM_RAAIMT n))
  c.arb.fatal || c.arb.dump || match rd e (CH_ARB_STATE_ME_KIND n) with
    | 1 => ref || c.mrrWant
    | 2 => mit
    | 3 => rereadReady e n || scrubReady e n || ecsReady e n
    | 4 => repairReady e n || copyReady e n
    | _ => ref || mit || wantsBackoff e n

/-- R175: MEn or TSn gives up a channel in which it has nothing left to issue. -/
def blockYield (e : Engine) (n : Nat) : Engine :=
  let idle := match holder e n with
    | 2 => !meStill e n
    | 3 => !on e (CH_TRN_STATE_BUSY n) && !driftReady e n
    | _ => false
  let k := e.clk.cyc + 1
  if idle && decide ((getChan e n).arb.since ≤ e.clk.cyc) && !busCrossing e n k then releaseAt e n k else e

/-- R172, R173, R176: one contest. A holder that releases at the end of this CTL cycle gives way to the winner. -/
def arbContest (e : Engine) (n : Nat) : Engine :=
  let e := syncLines (blockYield (schedYieldAt e n (e.clk.cyc + 1)) n) n
  let b := bids e n
  let top := topScore b
  let e := wr e (CH_ARB_STATE_TOP_SCORE n) top
  let e :=
    if holder e n = 0 then
      let w := winner b
      if w = 0 then e else syncLines (grantTo e n w) n
    else evalPreempt e n top
  wr e (CH_ARB_STATE_HOLD_PRIO n) (holdPrio e n)

/-- MEn holds the channel now. -/
def meHolds (e : Engine) (n : Nat) : Bool :=
  holder e n == 2 && decide ((getChan e n).arb.since ≤ e.clk.cyc)

/-- The scheduler may use a PHY cycle. -/
def schedHolds (e : Engine) (n t : Nat) : Bool :=
  holder e n == 1 && decide (4 * (getChan e n).arb.since ≤ t)

/-- TSn holds the channel now. -/
def tsHolds (e : Engine) (n : Nat) : Bool :=
  holder e n == 3 && decide ((getChan e n).arb.since ≤ e.clk.cyc)

/-- The grant takes effect: time passes to the first CTL cycle of the holder. -/
def toGrant (e : Engine) (n : Nat) : Engine := tick e ((getChan e n).arb.since - e.clk.cyc)

/-- R175: time passes until no command of the channel is partly on a CA bus at the end of the CTL cycle. -/
def offBus (e : Engine) (n : Nat) : Engine :=
  let t := busEnd e n
  if t > nowPhy e + 4 then toPhy e (t - 1) else e

/-- R175, R178: MEn ends an operation and releases the channel; with preemption pending its progress
count is saved. -/
def meDone (e : Engine) (n : Nat) : Engine :=
  let e := offBus e n
  let c := getChan e n
  let b := c.arb.batch + 1
  let e := if c.arb.pend.isSome then wr e (CH_ARB_PROGRESS_ME_PROG n) b else e
  let e := mapArb e n fun a => { a with batch := b }
  let e := releaseChan e n
  if meWant e n = 0 then mapArb e n fun a => { a with batch := 0 } else e

/-! ## Watchdogs (R188) -/

/-- The limit of the holder's watchdog, in time units. -/
def wdLimit (e : Engine) (n : Nat) : Nat :=
  let v := match holder e n with
    | 1 => rd e (CH_ARB_WD_WD_DATA n)
    | 2 => rd e (CH_ARB_WD_WD_MAINT n)
    | _ => rd e (CH_ARB_WD_WD_TRAIN n)
  usUnits (10 * v)

/-- A bite drops the grant and the line of its block. -/
def dropGrant (e : Engine) (n : Nat) : Engine :=
  let e := mapArb e n fun a => { a with pend := none, wd := e.clk.nominal, batch := 0 }
  let e := wr (wr e (CH_ARB_STATE_PREEMPT_PEND n) 0) (CH_ARB_STATE_HOLDER n) 0
  wr (wr e (CH_TRN_STATE_HELD n) 0) (CH_ARB_STATE_HOLD_PRIO n) 0

/-- A requester that bids alone wins the contest of the current CTL cycle: MEn with kind URGENT, or the scheduler with PRIO
7 (R185, R186), and holds the channel from the next. -/
def seize (e : Engine) (n w : Nat) : Engine :=
  let e := if w = 2 then wr e (CH_ARB_STATE_ME_KIND n) 5 else e
  let e := grantTo e n w
  let e := wr e (CH_ARB_STATE_TOP_SCORE n) (holdPrio e n * 256)
  let e := tick e 1
  wr e (CH_ARB_STATE_HOLD_PRIO n) (holdPrio e n)

/-- Work under a grant that `seize` takes, and its release. -/
def holding (e : Engine) (n w : Nat) (f : Engine → Engine) : Engine := freeChan (offBus (f (seize e n w)) n) n

/-- MEn does an operation that another holder waits for: that holder releases the channel to MEn's bid, and takes it back
when MEn has released it (R155, R175). -/
def underMe (e : Engine) (n : Nat) (f : Engine → Engine) : Engine :=
  match holder e n with
  | 2 => f e
  | 0 => holding e n 2 f
  | h => seize (holding (freeChan (offBus e n) n) n 2 f) n h

end Sys2Proof.Machine
end

