-- ==== Sys2Proof/Machine/EccOps.lean ====
section
/-! DEFINITION. What a decoded slot does besides its data: the error log, the device counters, marks,
faults and write-backs (R257–R266), and firmware's actions on them (R275). -/

namespace Sys2Proof.Machine

/-! ## Marks (R257, R258) -/

/-- The marked device of a rank and subchannel. -/
def markOf (e : Engine) (n rank sc : Nat) : Option Nat :=
  ((List.range 8).find? fun m => on e (CH_ECC_MARK_VALID n m) &&
    rd e (CH_ECC_MARK_RANK n m) == rank && rd e (CH_ECC_MARK_SC n m) == sc).map fun m =>
      rd e (CH_ECC_MARK_DEV n m)

/-- A mark is written (R258). -/
def setMark (e : Engine) (n m rank sc dev : Nat) : Engine :=
  setReg e (CH_ECC_MARK n m) (setFields 0
    [(CH_ECC_MARK_VALID n m, 1), (CH_ECC_MARK_RANK n m, rank), (CH_ECC_MARK_SC n m, sc),
     (CH_ECC_MARK_DEV n m, dev)])

/-! ## Log (R259) -/

/-- A record joins the channel's error log, or is dropped. -/
def eccLog (e : Engine) (n kind origin dev cw : Nat) (l : Loc) : Engine :=
  let c := getChan e n
  if c.ecc.length < 16 then
    putChan e n { c with
      ecc := c.ecc ++ [⟨tbNs e, kind, origin, c.eccOvf, dev, l, cw⟩], eccOvf := false }
  else
    let e := putChan e n { c with eccOvf := true }
    sqSet (inc e (CH_CNT_LOG_DROP n)) (CH_ECC_STATUS n) [(CH_ECC_STATUS_LOG_OVF n, 1)]

/-! ## Firmware's actions (R275, R276) -/

/-- The sparing copy starts (R276): the unit, PTR = 0, then ACTIVE; RATE is reported as a capacity drop. -/
def startSpare (e : Engine) (ch rank scope : Nat) : Engine :=
  let w := setFields (reg e GC_SPARE_CTRL)
    [(GC_SPARE_CTRL_FAIL_CH, ch), (GC_SPARE_CTRL_FAIL_RANK, rank), (GC_SPARE_CTRL_SCOPE, scope)]
  let e := setReg e GC_SPARE_CTRL w
  let e := setReg (setReg e GC_SPARE_PTR_LO 0) GC_SPARE_PTR_HI 0
  let e := wr e GC_SPARE_CTRL_ACTIVE 1
  writeDrops e

/-- The sparing resource is free and its bound is met (R110); scope 1 is a rank. -/
def canSpare (e : Engine) (scope : Nat) : Bool :=
  let g := gcfg e
  !on e GC_SPARE_CTRL_ACTIVE && g.spareRows != 0 &&
    (if scope = 1 then g.k != 0 && decide (g.spareRows ≥ spareBound g g.k)
     else decide (g.spareRows ≥ spareBound g g.c))

/-- R275: AUTO_SPARE on a channel, of a rank where its bound is met, else of the channel. -/
def autoSpare (e : Engine) (n rank : Nat) (rankFirst : Bool) : Engine :=
  if on e GC_RAS_POLICY_AUTO_SPARE then
    if rankFirst && canSpare e 1 then startSpare e n rank 1
    else if canSpare e 0 then startSpare e n 0 0
    else e
  else e

/-- A repair starts (R271, R272). -/
def startRepair (e : Engine) (n : Nat) (l : Loc) (dev : Option Nat) (hard : Bool) (ticket : Option Nat) :
    Engine :=
  let c := getChan e n
  let e := putChan e n { c with repair := some ⟨l, dev, hard, 0, [], 0, [], ticket, 0, none⟩ }
  setReg e (CH_PPR_STATE n) (setFields 0 [(CH_PPR_STATE_BUSY n, 1), (CH_PPR_STATE_HARD n, bit hard)])

/-- R275: a HOT device is marked where its rank and subchannel are not, or the rank is spared. -/
def markHot (e : Engine) (n rank sc dev : Nat) : Engine :=
  match markOf e n rank sc with
  | some m => if m = dev then e else autoSpare e n rank true
  | none =>
    if on e GC_RAS_POLICY_AUTO_MARK then
      match (List.range 8).find? fun m => !on e (CH_ECC_MARK_VALID n m) with
      | some m => setMark e n m rank sc dev
      | none => e
    else e

/-- Firmware of MC0/MC1 can act: in IDLE the event restarts the pair (R463). -/
def fwLive (e : Engine) : Bool :=
  clocked e && decide (rd e MBX_CORE_STATE_ST01 ≤ 1) && !nth e.dbg.halted 0 false &&
    (nth e.cores 0 ⟨0, none, false, 0⟩).released

/-- Firmware can do this now: no repair starts on a channel that has agreed to an entry (R459). -/
def fwReady (e : Engine) (a : FwAct) : Bool :=
  fwLive e && match a with
    | .repair l _ => !hasAgreed e (16 + l.ch)
    | _ => true

/-- R275: what firmware does of its own accord on a channel. -/
def fwDo (e : Engine) : FwAct → Engine
  | .safe => e
  | .mark n rank sc dev => markHot e n rank sc dev
  | .repair l dev => if (getChan e l.ch).repair = none then startRepair e l.ch l (some dev) false none else e
  | .spare n rank first => autoSpare e n rank first

/-- R32, R275: firmware acts now, or when its pair runs again. -/
def firmware (e : Engine) (a : FwAct) : Engine :=
  if fwReady e a then fwDo e a else { e with mci := { e.mci with acts := e.mci.acts ++ [a] } }

/-- R275: ROW_TH corrected errors in one row within WIN_MS start a soft repair of the row. -/
def onRow (e : Engine) (n : Nat) (l : Loc) (dev : Nat) : Engine :=
  let c := getChan e n
  let now := e.clk.nominal
  let row : Loc := { l with col := 0 }
  let win := msUnits (rd e (CH_ECC_CTRL_WIN_MS n))
  let h := (now, row, dev) :: c.rowErr.filter fun p => decide (now < p.1 + win)
  let e := putChan e n { c with rowErr := h }
  let hits := (h.filter fun p => p.2.1 == row && p.2.2 == dev).length
  if on e GC_RAS_POLICY_AUTO_PPR ∧ hits ≥ rd e GC_RAS_POLICY_ROW_TH then firmware e (.repair { row with ch := n } dev) else e

/-- R275: uncorrectable errors on two physical ranks within WIN_MS spare the channel. -/
def onUe (e : Engine) (n : Nat) (l : Loc) : Engine :=
  let c := getChan e n
  let now := e.clk.nominal
  let win := msUnits (rd e (CH_ECC_CTRL_WIN_MS n))
  let i := prankIx e l.rank
  let h := (now, i) :: c.ueErr.filter fun p => decide (now < p.1 + win)
  let e := putChan e n { c with ueErr := h }
  if h.any fun p => p.2 != i then firmware e (.spare n 0 false) else e

/-! ## Counting an outcome (R259–R261) -/

/-- The detail of an ECC syndrome (R529). -/
def eccDetail (l : Loc) (dev : Nat) : Nat := l.sc * 2 ^ 22 + dev * 2 ^ 18 + l.row % 2 ^ 18

/-- Window count of a device, by rank, subchannel and position. -/
def winKey (rank sc dev : Nat) : Nat := (rank * 2 + sc) * 16 + dev

/-- A corrected error outside any mark. -/
def countCe (e : Engine) (n origin dev cw : Nat) (l : Loc) : Engine :=
  let e := inc e (CH_CNT_CE n)
  let e := satF e (CH_ECC_DEV_CE_CNT n l.rank l.sc dev) 1
  let k := winKey l.rank l.sc dev
  let c := getChan e n
  let v := tget 0 c.win k + 1
  let e := putChan e n { c with win := tput 0 c.win k v }
  let e := eccLog e n 0 origin dev cw l
  let syn := synOf 0xFF (eccDetail l dev)
  let e := if on e (CH_ECC_DEV_HOT n l.rank l.sc dev) then raiseUncounted e (0x10 + n) .corrected syn
    else raise e (0x10 + n) .corrected syn
  let e := onRow e n l dev
  let th := rd e (CH_ECC_CTRL_DEV_TH n)
  if v = th ∨ (th < v ∧ !on e (CH_ECC_DEV_HOT n l.rank l.sc dev)) then
    let e := wr e (CH_ECC_DEV_HOT n l.rank l.sc dev) 1
    firmware (sqSet e (CH_ECC_STATUS n) [(CH_ECC_STATUS_DEV_HOT n, 1)]) (.mark n l.rank l.sc dev)
  else e

/-- An uncorrectable slot, or a second device under a mark: flag, log and contained fault. -/
def countUe (e : Engine) (n origin kind dev cw : Nat) (l : Loc) (isMeta : Bool) : Engine :=
  let e := inc e (CH_CNT_UE n)
  let f := if kind = 2 then CH_ECC_STATUS_MARK_UE n
    else if isMeta then CH_ECC_STATUS_META_UE n else CH_ECC_STATUS_UE n
  let e := sqSet e (CH_ECC_STATUS n) [(f, 1)]
  let e := eccLog e n kind origin dev cw l
  let e := raise e (0x10 + n) .contained (synOf f.lo (eccDetail l dev))
  if kind = 2 then firmware e (.spare n l.rank true) else onUe e n l

/-- What a read of a slot yields: the data or mark that it returns, and the corrected slot where a
write-back is due. -/
structure EccRes where
  got : Got
  fixed : Option Slot
  deriving DecidableEq, Repr

/-- R255–R261: a slot as it was read is decoded and counted. -/
def eccRead (e : Engine) (n origin : Nat) (l : Loc) (s : Slot) (isMeta : Bool) : Engine × EccRes :=
  match decodeSlot (markOf e n l.rank l.sc) s with
  | .clean => (e, ⟨.data (slotData s), none⟩)
  | .poisoned => (inc e (CH_CNT_POISON_RD n), ⟨.poison, none⟩)
  | .corrected t dev cw =>
    let g := if decodeSlot none t = .poisoned then Got.poison else .data (slotData t)
    (countCe e n origin dev cw l, ⟨g, some t⟩)
  | .marked t dev =>
    let g := if decodeSlot none t = .poisoned then Got.poison else .data (slotData t)
    (satF e (CH_ECC_DEV_CE_CNT n l.rank l.sc dev) 1, ⟨g, none⟩)
  | .uncorrectable cw => (countUe e n origin 1 15 cw l isMeta, ⟨.ue, none⟩)
  | .second dev cw => (countUe e n origin 2 dev cw l isMeta, ⟨.ue, none⟩)

/-! ## Write-backs (R264, R266) -/

/-- R264: a write-back is placed when the write queue takes it (R166), has a free entry and BANK_MAX allows it, unless a
write of the slot has come since. -/
def writeBack (e : Engine) (n : Nat) (l : Loc) (s : Slot) (newer : Bool) : Engine :=
  let c := getChan e n
  if newer || (findWrite c l).isSome then e
  else if intakeOn e n ∧ c.wq.length < 192 ∧ bankRoom c (rd e (CH_SPARGE_BANK_MAX n)) [l] then
    inc (putChan e n (pushWrite e c none none false noLine l s e.clk.tb)) (CH_CNT_SCRUB_WB n)
  else e

/-- R266: while DEMAND_EN is 1, a read that has corrected an error outside a mark causes a write-back. -/
def demandBack (e : Engine) (n : Nat) (l : Loc) (x : EccRes) (newer : Bool) : Engine :=
  match x.fixed with
  | some f => if on e (CH_ECC_CTRL_DEMAND_EN n) then writeBack e n l f newer else e
  | none => e

/-- A slot of metadata, by its line address. -/
def isMetaLa (e : Engine) (la : Nat) : Bool :=
  decide (dataTop (gcfg e) ≤ la) && decide (la < metaTop e)

/-- A slot of metadata, by the line that it is the slot of, wherever sparing has put it (R111); the slot of no line counts
by its row. -/
def isMetaLoc (e : Engine) (l : Loc) : Bool :=
  match slotLa e l with
  | some la => isMetaLa e la
  | none => decide (dataRows (gcfg e) ≤ l.row) && decide (l.row < spareBase (gcfg e))

end Sys2Proof.Machine
end

