-- ==== Sys2Proof/Machine/Sched.lean ====
section
/-! DEFINITION. The channel scheduler (R143–R154): promotion, Sparge drains, the choice of the next
command, its effect, and the capture of read bursts (R224). -/

namespace Sys2Proof.Machine

/-! ## The checks of SCHED_EN (R168) -/

/-- A number lies in a range. -/
def inRange (v lo hi : Nat) : Bool := decide (lo ≤ v) && decide (v ≤ hi)

/-- R168, but for the open banks. -/
def schedFields (e : Engine) (n : Nat) : Bool :=
  rd e (CH_SCHED_CTRL_PAGE_POL n) != 3 && inRange (rd e (CH_SPARGE_HIGH n)) 1 192 &&
    decide (rd e (CH_SPARGE_LOW n) < rd e (CH_SPARGE_HIGH n)) && rd e (CH_SPARGE_BANK_MAX n) != 0 &&
    decide (rd e (CH_SCHED_CTRL_AGE_CAP n) ≥ 64) &&
    decide (rd e (CH_TIM1_TRC n) ≥ rd e (CH_TIM1_TRAS n) + rd e (CH_TIM0_TRP n))

/-- R168. -/
def schedOk (e : Engine) (n : Nat) : Bool := schedFields e n && allClosed e n

/-! ## Promotion (R146) -/

/-- An entry is due for promotion. -/
def promotable (e : Engine) (n : Nat) (r : RqEntry) : Bool :=
  r.pri == 7 || decide (e.clk.cyc ≥ r.cyc + rd e (CH_SCHED_CTRL_AGE_CAP n))

/-- R146: entries that have reached AGE_CAP or PRI 7 become promoted. -/
def promoteScan (e : Engine) (n : Nat) : Engine :=
  let c := getChan e n
  let new := c.rq.filter fun r => !r.promoted && promotable e n r
  if new.isEmpty then e
  else
    let f := fun (r : RqEntry) => if promotable e n r then { r with promoted := true } else r
    let e := putChan e n { c with rq := c.rq.map f }
    addF e (CH_CNT_PROMO_VALUE n) new.length

/-- The promoted reads of a subchannel that wait for their CAS. -/
def promotedReads (c : Chan) (sc : Nat) : List RqEntry := (queuedReads c sc).filter (·.promoted)

/-! ## Sparge (R150–R153) -/

/-- S of the stagger (R152). -/
def staggerLen (e : Engine) (n : Nat) : Nat :=
  let t := timOf e n
  if t.tccdS = 0 then Config.staggerCorner (t.twtrS + t.rl)
  else (t.twtrS + t.rl + t.tccdS - 1) / t.tccdS

def mapDrain (c : Chan) (sc : Nat) (f : Drain → Drain) : Chan :=
  let s := getSub c sc
  putSub c sc { s with drain := f s.drain }

def drainKind (c : Chan) (sc : Nat) : Option DrainKind := (getSub c sc).drain.kind

/-- The subchannel with more queued writes, A on a tie. -/
def moreWrites (c : Chan) : Nat :=
  if (queuedWrites c 1).length > (queuedWrites c 0).length then 1 else 0

/-- A watermark or cap drain runs. -/
def bigDrain (c : Chan) : Bool :=
  [0, 1].any fun s => drainKind c s == some .watermark || drainKind c s == some .cap

/-- A drain starts, or an opportunistic drain takes a new kind, which starts none in CH_CNT_DRAIN (DESIGN CHOICE: the spec
says it of the watermark drain alone, and is silent on the cap drain). -/
def startDrain (e : Engine) (n sc : Nat) (k : DrainKind) : Engine :=
  let c := getChan e n
  let e := if (drainKind c sc).isNone then inc e (CH_CNT_DRAIN n) else e
  putChan e n (mapDrain c sc fun d => { d with kind := some k, tail := none, tailLeft := 0, casSince := 0 })

/-- R150, R151: the watermark and cap drains that are due. -/
def spargeStart (e : Engine) (n : Nat) : Engine :=
  let c := getChan e n
  if bigDrain c || !on e (CH_SCHED_CTRL_SCHED_EN n) then e
  else match c.capWait with
    | some w => startDrain e n w.1 .cap
    | none =>
      if c.wq.length ≥ rd e (CH_SPARGE_HIGH n) then
        let opp := [0, 1].filter fun s => drainKind c s == some .opportunistic
        let sc := match opp with
          | [s] => s
          | _ => moreWrites c
        startDrain e n sc .watermark
      else e

/-- The tail rank: most queued writes of the subchannel, lowest on a tie (R152). -/
def tailRank (e : Engine) (c : Chan) (sc : Nat) : Nat :=
  let cnt := fun i => ((queuedWrites c sc).filter fun w => prankIx e w.loc.rank == i).length
  (List.range (pranks e)).foldl (fun b i => if cnt i > cnt b then i else b) 0

def endDrain (c : Chan) (sc : Nat) : Chan :=
  mapDrain c sc fun d => { d with kind := none, tail := none, tailLeft := 0, paused := false, casSince := 0 }

/-- R151, R152: the end, the change of kind and the stagger of a subchannel's drain. The drain ends too when the tail
rank has taken its S writes (DEDUCED: step 3 allows no more). -/
def drainEnd (e : Engine) (n sc : Nat) : Engine :=
  let c := getChan e n
  let occ := c.wq.length
  let low := rd e (CH_SPARGE_LOW n)
  let high := rd e (CH_SPARGE_HIGH n)
  match drainKind c sc with
  | none => e
  | some .opportunistic =>
    if !(queuedReads c sc).isEmpty || (queuedWrites c sc).isEmpty then putChan e n (endDrain c sc) else e
  | some .cap =>
    if c.capWait.isSome then e
    else if occ ≥ high then putChan e n (mapDrain c sc fun d => { d with kind := some .watermark })
    else putChan e n (endDrain c sc)
  | some .watermark =>
    let s := if pranks e ≥ 2 then staggerLen e n else 0
    if occ ≤ low then putChan e n (endDrain c sc)
    else match (getSub c sc).drain.tail with
      | some r =>
        if decide ((getSub c sc).drain.tailLeft > 0) && (queuedWrites c sc).any fun w => prankIx e w.loc.rank == r then e
        else putChan e n (endDrain c sc)
      | none =>
        if (queuedWrites c sc).isEmpty then
          let c := endDrain c sc
          putChan e n (mapDrain c (1 - sc) fun d => { d with kind := some .watermark, tail := none, casSince := 0 })
        else if s ≠ 0 ∧ occ ≤ low + s then
          putChan e n (mapDrain c sc fun d => { d with tail := some (tailRank e c sc), tailLeft := s })
        else e

/-- R153: the pause of a drain for promoted reads; a full write queue ends it. -/
def drainPause (e : Engine) (n sc : Nat) : Engine :=
  let c := getChan e n
  let d := (getSub c sc).drain
  if d.kind.isNone then e
  else if (promotedReads c sc).isEmpty then
    putChan e n (mapDrain c sc fun d => { d with paused := false, casSince := 0 })
  else if c.wq.length ≥ 192 then putChan e n (mapDrain c sc fun d => { d with paused := false })
  else if d.paused then e
  else
    let long := decide (d.casSince ≥ rd e (CH_SPARGE_PREEMPT_MAX n))
    if decide (c.wq.length < rd e (CH_SPARGE_HIGH n)) || long then
      let e := putChan e n (mapDrain c sc fun d => { d with paused := true })
      if long then sqSet e (CH_SCHED_STATUS n) [(CH_SCHED_STATUS_PROMO_WAIT n, 1)] else e
    else e

/-- The time since which a subchannel has had no queued read (R150). -/
def idleUpdate (e : Engine) (n sc : Nat) : Engine :=
  let c := getChan e n
  if (queuedReads c sc).isEmpty then e
  else putChan e n (putSub c sc { getSub c sc with idleSince := e.clk.cyc })

/-- Sparge looks at the channel after a change of its queues. -/
def spargeLook (e : Engine) (n : Nat) : Engine :=
  let e := [0, 1].foldl (fun e s => drainEnd e n s) e
  let e := spargeStart e n
  [0, 1].foldl (fun e s => drainPause (idleUpdate e n s) n s) e

/-- R143, R166: SCHED_EN has set: every predictor stands at 2, and what waits for the queues is looked at again. -/
def schedSet (e : Engine) (n : Nat) : Engine :=
  let c := getChan e n
  let e := putChan e n { c with banks := c.banks.map fun (p : Nat × Bank) => (p.1, { p.2 with pred := 2 }) }
  spargeLook (pumpMeta (retryWaits e)) n

/-- Firmware sets SCHED_EN of a channel: R168 checks it as any write, and flags a refused one. -/
def firmSched (e : Engine) (n : Nat) : Engine :=
  if on e (CH_SCHED_CTRL_SCHED_EN n) then e
  else if schedOk e n then schedSet (wr e (CH_SCHED_CTRL_SCHED_EN n) 1) n
  else rejectIn e (CH_CFG_REJECT n) .mc01 (CH_SCHED_CTRL n) 1

/-! ## Candidates (R144, R147–R149) -/

/-- A command for a queued entry. -/
structure Cand where
  write : Bool
  seq : Nat
  age : Nat
  pri : Nat
  promoted : Bool
  acted : Bool
  kind : DKind
  loc : Loc
  deriving DecidableEq, Repr

/-- The next command that an entry needs: a CAS to its open row, an ACT, or a PRE. -/
def nextKind (c : Chan) (l : Loc) (cas : DKind) : DKind :=
  match (bankAt c l).row with
  | none => .act
  | some r => if r = l.row then cas else .pre

def candOfRead (c : Chan) (r : RqEntry) : Cand :=
  ⟨false, r.seq, r.age, r.pri, r.promoted, r.acted, nextKind c r.loc .rd, r.loc⟩

def candOfWrite (c : Chan) (w : WqEntry) : Cand :=
  ⟨true, w.seq, w.age, 0, false, w.acted, nextKind c w.loc .wr, w.loc⟩

/-- The entries in the current direction of a subchannel (R147, R149, R152–R154); replay writes first
(R241). -/
def inDirection (e : Engine) (c : Chan) (sc : Nat) : List Cand :=
  let d := (getSub c sc).drain
  let reads := queuedReads c sc
  let repl := c.replay.filter fun w => w.loc.sc == sc
  let writes := if repl.isEmpty then c.wq.filter fun w => w.loc.sc == sc else repl
  if c.arb.fatal then writes.map (candOfWrite c)
  else if d.kind.isNone then reads.map (candOfRead c)
  else if d.paused then (promotedReads c sc).map (candOfRead c)
  else match d.tail with
    | none => writes.map (candOfWrite c)
    | some r =>
      (writes.filter fun w => prankIx e w.loc.rank == r).map (candOfWrite c) ++
        (reads.filter fun q => prankIx e q.loc.rank != r).map (candOfRead c)

/-- R140: an older unissued read of the same slot holds a CAS back. -/
def orderHolds (c : Chan) (k : Cand) : Bool :=
  (k.kind == .rd || k.kind == .wr) &&
    c.rq.any fun r => r.issued.isNone && decide (r.seq < k.seq) && sameSlot r.loc k.loc

/-- Another entry in the current direction hits the row of a location (R144). -/
def rowHit (ks : List Cand) (l : Loc) (row seq : Nat) : Bool :=
  ks.any fun k => k.seq != seq && bankKey k.loc == bankKey l && k.loc.row == row

/-- R144, R206: the CAS with or without auto-precharge. -/
def casKind (e : Engine) (n : Nat) (c : Chan) (ks : List Cand) (k : Cand) : DKind :=
  let plain := k.kind
  let auto : DKind := if k.kind = .rd then .rda else .wra
  let b := bankAt c k.loc
  let hit := rowHit ks k.loc k.loc.row k.seq
  if c.arb.fatal || bankPending b then plain
  else match rd e (CH_SCHED_CTRL_PAGE_POL n) with
    | 1 => if hit then plain else auto
    | 2 => if b.pred = 0 ∧ hit = false then auto else plain
    | _ => plain

/-- R148: a candidate delays a promoted entry. -/
def delays (e : Engine) (n sc : Nat) (c : Chan) (t : Nat) (k : Cand) : Bool :=
  !k.promoted && (promotedReads c sc).any fun p =>
    bankKey p.loc == bankKey k.loc && !allowed e n sc (nextKind c p.loc .rd) p.loc t

/-- Rank of a kind: CAS before ACT before PRE. -/
def kindRank : DKind → Nat
  | .act => 1
  | .pre => 2
  | _ => 0

/-- The bank group of the last command of the same kind on the subchannel. -/
def lastSame (c : Chan) (sc : Nat) (k : DKind) : Option Nat :=
  (bgClass k).bind fun i => nth (getSub c sc).lastBg i none

/-- Keeps the candidates that satisfy `p`, where there are any. -/
def prefer (p : Cand → Bool) (ks : List Cand) : List Cand :=
  if ks.any p then ks.filter p else ks

/-- The oldest candidate. -/
def oldest : List Cand → Option Cand
  | [] => none
  | k :: ks => match oldest ks with
    | none => some k
    | some m => if k.age < m.age ∨ (k.age = m.age ∧ k.seq ≤ m.seq) then some k else some m

/-- R147: the command that the scheduler chooses in a CA slot of a subchannel. -/
def chooseCmd (e : Engine) (n sc t : Nat) : Option Cand :=
  let c := getChan e n
  let all := inDirection e c sc
  let ks := all.filter fun k => !orderHolds c k && allowed e n sc (if kindRank k.kind = 0 then casKind e n c all k else k.kind) k.loc t
  let ks := ks.filter fun k => !delays e n sc c t k
  let ks := prefer (·.promoted) ks
  let ks := ks.filter fun k =>
    !(k.kind == .pre && !k.promoted && match (bankAt c k.loc).row with
      | some r => rowHit all k.loc r k.seq
      | none => false)
  let top := ks.foldl (fun m k => max m k.pri) 0
  let ks := ks.filter fun k => k.pri == top
  let lo := ks.foldl (fun m k => min m (kindRank k.kind)) 2
  let ks := ks.filter fun k => kindRank k.kind == lo
  let ks := prefer (fun k => match lastSame c sc k.kind with
    | some g => g != k.loc.bg
    | none => true) ks
  oldest ks

/-! ## Issue (R143) -/

/-- An entry's own need caused an ACT. -/
def markActed (c : Chan) (k : Cand) : Chan :=
  if k.write then
    { c with
      wq := c.wq.map (fun (w : WqEntry) => if w.seq = k.seq then { w with acted := true } else w),
      replay := c.replay.map (fun (w : WqEntry) => if w.seq = k.seq then { w with acted := true } else w) }
  else { c with rq := c.rq.map fun (r : RqEntry) => if r.seq = k.seq then { r with acted := true } else r }

/-- R143: a CAS moves the predictor and counts a row hit. -/
def casBank (e : Engine) (n : Nat) (k : Cand) : Engine :=
  let c := getChan e n
  let b := bankAt c k.loc
  let b := { b with lastCas := e.clk.cyc, pred := if k.acted then b.pred else min 3 (b.pred + 1) }
  let e := putChan e n (putBank c (bankKey k.loc) b)
  if k.acted then e else inc e (CH_CNT_HIT n)

/-- R273: a slot that the write-out writes is superseded in the repair buffer. -/
def supersede (e : Engine) (n : Nat) (l : Loc) : Engine :=
  let c := getChan e n
  match c.repair with
  | some r =>
    if c.arb.fatal ∧ bankKey r.loc = bankKey l ∧ r.loc.row = l.row then
      putChan e n { c with repair := some { r with superseded := l.col :: r.superseded } }
    else e
  | none => e

/-- A read CAS: the slot leaves DRAM as it stands now. -/
def issueReadCas (d : Dram) (e : Engine) (n : Nat) (k : Cand) (t : Nat) : Engine :=
  let s := dramAt d e k.loc
  let c := getChan e n
  let c := { c with rq := c.rq.map fun (r : RqEntry) =>
    if r.seq = k.seq then { r with issued := some t, data := s, newer := false } else r }
  let c := putSub c k.loc.sc { getSub c k.loc.sc with idleSince := e.clk.cyc }
  let c := touchRank e c k.loc.rank
  inc (putChan e n c) (CH_CNT_RD n)

/-- R241: a WR or WRA joins the replay log, which holds 64 writes of each subchannel. A later write of the slot takes
the place of a replay write (DEDUCED: the replay write would bring back older data). -/
def logWrite (e : Engine) (n t : Nat) (w : WqEntry) (old : Slot) : Engine :=
  let c := getChan e n
  let mine := (⟨t, w, old⟩ : Replay) :: c.replayLog.filter fun p => p.entry.loc.sc == w.loc.sc
  let other := c.replayLog.filter fun p => p.entry.loc.sc != w.loc.sc
  putChan e n { c with
    replayLog := mine.take 64 ++ other, replay := c.replay.filter fun (x : WqEntry) => !sameSlot x.loc w.loc }

/-- MEn or TSn writes a slot of an open row, which holds `old`, with a WR in its first legal slot. -/
def issueWr (e : Engine) (n : Nat) (l : Loc) (s old : Slot) : Engine :=
  let e := issueAt e n l.sc .wr l
  let c := getChan e n
  let t := (getSub c l.sc).log.head?.elim (nowPhy e) (·.t)
  let e := putChan e n { c with seq := c.seq + 1 }
  dramPut (logWrite e n t ⟨c.seq, none, none, false, gristInv (gcfg e) l, l, s, e.clk.tb, false⟩ old) l s

/-- A write CAS: the slot goes to DRAM and into the replay log (R241). -/
def issueWriteCas (d : Dram) (e : Engine) (n : Nat) (k : Cand) (t : Nat) : Engine :=
  let c := getChan e n
  match (c.replay ++ c.wq).find? fun w => w.seq == k.seq with
  | none => e
  | some w =>
    let c := touchRank e c w.loc.rank
    let c := { c with
      wq := c.wq.filter (fun (x : WqEntry) => x.seq != w.seq),
      replay := c.replay.filter (fun (x : WqEntry) => x.seq != w.seq) }
    let c := if (promotedReads c k.loc.sc).isEmpty then c
      else mapDrain c k.loc.sc fun d => { d with casSince := d.casSince + 1 }
    let c := mapDrain c k.loc.sc fun d => { d with tailLeft := d.tailLeft - 1 }
    let e := dramPut (logWrite (putChan e n c) n t w (dramAt d e w.loc)) w.loc w.slot
    supersede (inc e (CH_CNT_WR n)) n w.loc

/-- The chosen command is issued at a PHY cycle. -/
def issueCand (d : Dram) (e : Engine) (n sc t : Nat) (k : Cand) : Engine :=
  let c := getChan e n
  match k.kind with
  | .act =>
    let e := issueCmd e n sc (mkCmd e n .act k.loc t)
    putChan e n (markActed (getChan e n) k)
  | .pre =>
    let b := bankAt c k.loc
    let e := issueCmd e n sc (mkCmd e n .pre k.loc t)
    let c := getChan e n
    let e := putChan e n (putBank c (bankKey k.loc) { bankAt c k.loc with pred := b.pred - 1 })
    inc e (CH_CNT_CONFLICT n)
  | _ =>
    let kind := casKind e n c (inDirection e c sc) k
    let e := casBank e n k
    let e := issueCmd e n sc (mkCmd e n kind k.loc t)
    if k.write then issueWriteCas d e n k t else issueReadCas d e n k t

/-- SCHED_COMMAND: in the CA slot at PHY cycle `t` of a subchannel. -/
def schedCommand (d : Dram) (e : Engine) (n sc t : Nat) : Engine :=
  let e := schedYield (promoteScan (placeDeferred e n t) n) n
  let en := on e (CH_SCHED_CTRL_SCHED_EN n) || (getChan e n).arb.fatal
  if en && schedHolds e n t then
    let e := spargeLook e n
    match chooseCmd e n sc t with
    | some k => syncLines (spargeLook (issueCand d e n sc t k) n) n
    | none =>
      let c := getChan e n
      match (inDirection e c sc).find? fun k => (getPRank c (prankIx e k.loc.rank)).pd && rankFree e n (prankIx e k.loc.rank) with
      | some k => wakeRank e n (prankIx e k.loc.rank)
      | none => e
  else e

/-! ## Idle close and opportunistic drain (R144, R150) -/

/-- A row of the subchannel that the adaptive policy closes at a PHY cycle. -/
def idleRow (e : Engine) (n sc t : Nat) : Option Loc :=
  let c := getChan e n
  let ks := inDirection e c sc
  ((List.range (pranks e)).flatMap (rankBanks e n sc)).find? fun l =>
    let b := bankAt c l
    match b.row with
    | none => false
    | some r =>
      decide (e.clk.cyc > b.lastCas + rd e (CH_SCHED_CTRL_PAGE_IDLE n)) &&
        !(ks.any fun k => bankKey k.loc == bankKey l && k.loc.row == r) &&
        allowed e n sc .pre l t

/-- PAGE_IDLE_CLOSE: under the adaptive policy an idle row is closed with PRE. -/
def pageIdle (e : Engine) (n sc t : Nat) : Engine :=
  let e := schedYield (placeDeferred e n t) n
  if on e (CH_SCHED_CTRL_SCHED_EN n) && rd e (CH_SCHED_CTRL_PAGE_POL n) == 2 && schedHolds e n t then
    match idleRow e n sc t with
    | some l => issueCmd e n sc (mkCmd e n .pre l t)
    | none => e
  else e

/-- OPPORTUNISTIC_DRAIN: a subchannel without a queued read for IDLE_DRAIN CTL cycles starts a drain. -/
def oppDrain (e : Engine) (n sc : Nat) : Engine :=
  let c := getChan e n
  let w := rd e (CH_SPARGE_IDLE_DRAIN n)
  let e := tick e ((getSub c sc).idleSince + w - e.clk.cyc)
  let ok := on e (CH_SCHED_CTRL_SCHED_EN n) && w != 0 && (queuedReads c sc).isEmpty &&
    !(queuedWrites c sc).isEmpty && (drainKind c sc).isNone
  if ok then syncLines (startDrain e n sc .opportunistic) n else e

/-! ## Capture (R224) -/

/-- The reissue or the end of a read whose burst had no preamble (R224). -/
def gateMiss (e : Engine) (n : Nat) (r : RqEntry) : Engine :=
  let e := inc e (CH_CNT_GATE_MISS n)
  let e := sqSet e (CH_TRN_STATUS n) [(CH_TRN_STATUS_GATE_MISS n, 1)]
  let c := getChan e n
  putChan e n { c with rq := c.rq.map fun (q : RqEntry) =>
    if q.seq = r.seq then { q with issued := none, miss := false, again := true, acted := false } else q }

/-- Both lines of a packed slot are read by one entry. -/
def readsTwo (e : Engine) (r : RqEntry) : Bool :=
  let ls := r.uses.filterMap fun u => match u with
    | .agent id | .push id => (getTxn e id).map fun t => t.req.la % 2
    | _ => none
  ls.contains 0 && ls.contains 1

/-- The origin of a read in the error log (R259). -/
def originOf (us : List Use) : Nat :=
  if us.any fun u => match u with | .agent _ => true | _ => false then 0 else 2

/-- A captured burst leaves the read queue for ECC and the return path. -/
def captured (e : Engine) (n : Nat) (r : RqEntry) (s : Slot) : Engine :=
  let c := getChan e n
  let c := touchRank e c r.loc.rank
  let e := putChan e n { c with rq := c.rq.filter fun (q : RqEntry) => q.seq != r.seq }
  let origin := originOf r.uses
  let (e, x) := eccRead e n origin r.loc s (isMetaLa e r.la)
  let e := demandBack e n r.loc x r.newer
  let e := if x.got = .ue ∧ origin = 0 then
      let c := getChan e n
      putChan e n { c with rereads := c.rereads ++ [⟨r.loc, 2, e.clk.nominal, r.newer⟩] }
    else e
  let e := if readsTwo e r then inc e GC_CNT_PK_RD2 else e
  let e := deliverUses e (r.uses.map fun u => ⟨u, r.la, x.got⟩)
  syncLines (spargeLook (pumpMeta e) n) n

/-- The oldest issued read of a subchannel whose burst has not been looked at. -/
def nextBurst (c : Chan) (sc : Nat) : Option RqEntry :=
  (c.rq.filter fun r => r.loc.sc == sc && r.issued.isSome && !r.miss).foldl
    (fun (o : Option RqEntry) r => match o with
      | none => some r
      | some q => if r.issued.getD 0 < q.issued.getD 0 then some r else some q) none

/-- READ_BURST_CAPTURE: the next burst of a subchannel arrives, with or without its preamble; `err` is
what the devices and the lanes turned over in it. -/
def burstCapture (e : Engine) (n sc : Nat) (preamble : Bool) (err : Slot) : Engine :=
  match nextBurst (getChan e n) sc with
  | none => e
  | some r =>
    let e := toPhy e (r.issued.getD 0 + rd e (CH_TIM5_RL n) + 8)
    if preamble then captured e n r (r.data ^^^ err)
    else
      let c := getChan e n
      putChan e n { c with rq := c.rq.map fun (q : RqEntry) =>
        if q.seq = r.seq then { q with miss := true } else q }

end Sys2Proof.Machine
end

