-- ==== Sys2Proof/Machine/Maint.lean ====
section
/-! DEFINITION. MEn's refresh, Row Guard, refresh management, alerts and temperature (R194–R216, R240–R242,
R464, R610), and the self-refresh entry and exit of a physical rank (R204). -/

namespace Sys2Proof.Machine

/-! ## Debt (R197, R198) -/

/-- The source of MEn (R529). -/
def meFault (e : Engine) (n i : Nat) (f : Fld) : Engine :=
  raise e (0x30 + n) .contained (synOf f.lo i)

/-- R198: a rank is treated according to D. -/
def judge (e : Engine) (n i : Nat) : Engine :=
  let d := debt e n i
  let post : Int := rd e (CH_REF_CTRL_POST_MAX n)
  let due : Int := rd e (CH_REF_CTRL_DUE_AT n)
  if on e (CH_REF_CTRL_REF_EN n) then
    let p := getPRank (getChan e n) i
    let late := (p.overrun || decide (d > post)) && decide (d ≥ due)
    let newly := decide (d > post) && !on e (overdueF n i)
    let e := mapPRank e n i fun p => { p with overrun := late }
    let e := wr e (dueF n i) (bit (decide (d ≥ due)))
    let e := wr e (urgentF n i) (bit (late || decide (d ≥ post)))
    let e := wr e (overdueF n i) (bit (decide (d > post)))
    if newly then
      let e := sqSet e (CH_MNT_STATUS n) [(CH_MNT_STATUS_REF_OVERRUN n, 1), (CH_MNT_STATUS_PRANK n, i)]
      meFault e n i (CH_MNT_STATUS_REF_OVERRUN n)
    else e
  else
    let e := mapPRank e n i fun p => { p with overrun := false, opp := false }
    wr (wr (wr e (dueF n i) 0) (urgentF n i) 0) (overdueF n i) 0

def judgeAll (e : Engine) (n : Nat) : Engine := (List.range (pranks e)).foldl (fun e i => judge e n i) e

/-- R197, R202: the tick of physical rank `i` after one at cycle `t`, by its phase i × interval / P. -/
def nextTick (e : Engine) (n i t : Nat) : Nat :=
  let k := max 1 (refInterval e n (on e (CH_TEMP_STATE_HOT n)))
  let ph := (getChan e n).tickBase + i * k / max 1 (pranks e)
  t + (k - (t - ph) % k)

/-- REFRESH_TICK: the interval tick of a physical rank (R197); D saturates at 15. -/
def refTick (e : Engine) (n i : Nat) : Engine :=
  if chanLive e n && rankServes e n i then
    let p := getPRank (getChan e n) i
    let e := tick e (p.tickAt - e.clk.cyc)
    let e := mapPRank e n i fun p => { p with tickAt := nextTick e n i p.tickAt }
    let e := setDebt e n i (min 15 (debt e n i + 1))
    syncLines (judge e n i) n
  else e

/-- R197: the tick phases of some ranks of a channel start again. -/
def startTicks (e : Engine) (n : Nat) (is : List Nat) : Engine :=
  let k := max 1 (refInterval e n (on e (CH_TEMP_STATE_HOT n)))
  let e := putChan e n { getChan e n with tickBase := e.clk.cyc }
  is.foldl (fun e i => mapPRank e n i fun p => { p with tickAt := e.clk.cyc + k + i * k / max 1 (pranks e) }) e

/-- R197: the tick phases of a channel's ranks start again. -/
def restartTicks (e : Engine) (n : Nat) : Engine := startTicks e n (List.range (pranks e))

/-- An entry of either queue addresses a physical rank. -/
def rankQueued (e : Engine) (c : Chan) (i : Nat) : Bool :=
  c.rq.any (fun r => prankIx e r.loc.rank == i) || c.wq.any (fun w => prankIx e w.loc.rank == i) ||
    c.replay.any (fun w => prankIx e w.loc.rank == i)

/-- OPPORTUNISTIC_REFRESH: a rank that no entry has addressed for IDLE_REF CTL cycles (R198). -/
def oppRefresh (e : Engine) (n i : Nat) : Engine :=
  let c := getChan e n
  let pull : Int := rd e (CH_REF_CTRL_PULL_MAX n)
  if chanLive e n && rankServes e n i && on e (CH_REF_CTRL_REF_EN n) && !rankQueued e c i &&
      decide (debt e n i > -pull) then
    let e := tick e ((getPRank c i).lastUse + rd e (CH_REF_CTRL_IDLE_REF n) - e.clk.cyc)
    syncLines (mapPRank e n i fun p => { p with opp := true }) n
  else e

/-! ## Operations -/

/-- MEn's operation of one of the kinds `ks` under its grant; the operation ends in a release (R178). -/
def meOp (e : Engine) (n : Nat) (ks : List Nat) (ok : Engine → Bool) (f : Engine → Engine) : Engine :=
  if holder e n = 2 ∧ ks.contains (rd e (CH_ARB_STATE_ME_KIND n)) then
    let t := toGrant e n
    if ok t then meDone (f t) n else e
  else e

/-- Precharges a physical rank on both subchannels where a bank is open (R610). -/
def closeRank (e : Engine) (n i : Nat) : Engine :=
  if rankOpen e n i none then issueBoth e n .preab (rankLoc e n i 0) else e

/-- A completed refresh command or unit: D, credits and the counter (R194, R197). -/
def refreshDone (e : Engine) (n i : Nat) : Engine :=
  let e := setDebt e n i (debt e n i - 1)
  let e := mapPRank e n i fun p =>
    { p with credits := p.credits + (if gran e n = 0 then 2 else 1), opp := false }
  judge (inc e (CH_CNT_REF n)) n i

/-- R198, R196: one refresh command of a physical rank, with the precharge that it needs. Outside same-bank mode no unit
is in progress. -/
def refreshCmd (e : Engine) (n i : Nat) : Engine :=
  if gran e n = 2 then
    let u := (getPRank (getChan e n) i).unit
    let l := rankLoc e n i u
    let e := if rankOpen e n i (some u) then issueBoth e n .presb l else e
    let e := issueBoth e n .refsb l
    let e := mapPRank e n i fun p => { p with unit := (u + 1) % 4 }
    if u = 3 then refreshDone e n i else e
  else
    let e := mapPRank (issueBoth (closeRank e n i) n .refab (rankLoc e n i 0)) n i fun p => { p with unit := 0 }
    refreshDone e n i

/-- A bank of a rank, of a bank index where one is given, whose sampled row waits for its DRFM. -/
def sampledIn (e : Engine) (n i : Nat) (bank : Option Nat) : Option Loc :=
  ([0, 1].flatMap fun sc => rankBanks e n sc i).findSome? fun (l : Loc) =>
    if bank.isNone || bank == some l.bank then
      ((bankAt (getChan e n) l).rg.find? fun r => r.pending && r.sampled).map fun r =>
        { l with row := r.row }
    else none

/-- R30, R200: the mitigation of a bank that an urgent refresh covers is handed on as a deferred DRFM. -/
def deferDrfm (e : Engine) (n i : Nat) (bank : Option Nat) : Engine :=
  match sampledIn e n i bank with
  | some l => if on e (CH_RG_CTRL_RG_EN n) then mapPRank e n i fun p => { p with deferred := some l } else e
  | none => e

/-- The refresh-mode register of a rank is written (R195). -/
def writeMode (e : Engine) (n i : Nat) : Engine :=
  let e := issueBoth (closeRank e n i) n .mrw (rankLoc e n i 0)
  mapPRank e n i fun p => { p with mode := bit (gran e n != 0) }

/-- One refresh operation of a physical rank: the write of its refresh mode where that differs (R195), else a refresh, which
hands on the mitigation that it covers where it is urgent (R30, R200). -/
def refreshWork (e : Engine) (n i : Nat) : Engine :=
  let e := wakeRank e n i
  if modeDiffers e n i then writeMode e n i
  else
    let urgent := on e (urgentF n i)
    let u := (getPRank (getChan e n) i).unit
    let e := refreshCmd e n i
    if urgent then deferDrfm e n i (if gran e n = 2 then some u else none) else e

/-- REFRESH_OPERATION. -/
def refreshOp (e : Engine) (n i : Nat) : Engine :=
  meOp e n [1, 5] (fun e => refreshWanted e n i) fun e => refreshWork e n i

/-- DEFERRED_COMMAND: a deferred DRFM issues in the first slot in which it is legal (R200). -/
def deferredCmd (e : Engine) (n i : Nat) : Engine :=
  let p := getPRank (getChan e n) i
  match p.deferred with
  | some l =>
    if chanLive e n then
      let t := earliest (cidBits e) (getSub (getChan e n) l.sc).log (mkCmd e n .drfm l 0) (nowPhy e)
      syncLines (placeOne e n t i) n
    else e
  | none => e

/-! ## Mitigation and refresh management (R207, R213) -/

/-- R207: one operation of the mitigation of a bank: DRFM, with its PRE where the row is open, or the
activation of a row that was not sampled. -/
def mitigate (e : Engine) (n : Nat) (l : Loc) : Engine :=
  let b := bankAt (getChan e n) l
  match pendingRow b with
  | none => e
  | some r =>
    let l := { l with row := r.row }
    if r.sampled || b.row == some r.row then
      let e := if b.row.isSome then issueAt e n l.sc .pre l else e
      inc (issueAt e n l.sc .drfm l) (CH_CNT_MIT n)
    else
      let e := if b.row.isSome then issueAt e n l.sc .pre l else e
      issueAt e n l.sc .act l

/-- MITIGATION_OPERATION on a bank. -/
def mitigationOp (e : Engine) (n : Nat) (l : Loc) : Engine :=
  let i := prankIx e l.rank
  let l := { l with ch := n }
  meOp e n [2, 5] (fun e => canMitigate e n l) fun e => mitigate (wakeRank e n i) n l

/-- RFMsb to the bank index of a location, with the precharge that it needs. -/
def rfmIssue (e : Engine) (n : Nat) (l : Loc) : Engine :=
  let i := prankIx e l.rank
  let e := wakeRank e n i
  let e := if rfmOpen e n l then issueAt e n l.sc .presb l else e
  inc (issueAt e n l.sc .rfmsb l) (CH_CNT_RFM n)

/-- RFM_OPERATION: RFMsb to a bank index of a logical rank, one of whose counts has reached RAAIMT (R213). -/
def rfmOp (e : Engine) (n sc rank bank : Nat) : Engine :=
  let i := prankIx e rank
  let l : Loc := ⟨n, sc, rank, 0, bank, 0, 0⟩
  let need := fun e => (List.range 8).any fun g =>
    decide ((bankAt (getChan e n) { l with bg := g }).raa ≥ rd e (CH_RG_RFM_RAAIMT n))
  meOp e n [2, 5] (fun e => meMay e n i && on e (CH_RG_CTRL_RG_EN n) &&
      on e (CH_RG_RFM_RFM_REQ n) && need e) fun e => rfmIssue e n l

/-- RG_EPOCH_END: 16,384 credits end the Row Guard epoch of a rank (R208). -/
def rgEpochEnd (e : Engine) (n i : Nat) : Engine :=
  let p := getPRank (getChan e n) i
  if p.credits ≥ 16384 then
    let c := putPRank (getChan e n) i { p with credits := p.credits - 16384 }
    let ls := [0, 1].flatMap fun sc => rankBanks e n sc i
    syncLines (putChan e n (mapBanks c ls fun b => { b with rg := [], n := 0, capped := false })) n
  else e

/-! ## Self-refresh (R204) -/

/-- The physical ranks that are used and not in self-refresh. -/
def awakeRanks (e : Engine) (n : Nat) : List Nat :=
  (List.range (pranks e)).filter fun i => rankServes e n i

/-- A rank owes a refresh, or has a unit in progress. -/
def owes (e : Engine) (n i : Nat) : Bool :=
  decide (debt e n i > 0) || (gran e n == 2 && decide ((getPRank (getChan e n) i).unit ≠ 0))

/-- A refresh of a rank, behind the write of its refresh mode where that differs (R195). -/
def refreshNow (e : Engine) (n i : Nat) : Engine := refreshCmd (if modeDiffers e n i then writeMode e n i else e) n i

/-- Refreshes until D ≤ 0 and the units in progress are complete; the ranks refresh in parallel, each in its
turn. -/
def catchUp (n : Nat) (is : List Nat) : Nat → Engine → Engine
  | 0, e => e
  | k + 1, e => catchUp n is k (is.foldl (fun e i => if owes e n i then refreshNow e n i else e) e)

/-- Every used rank of a channel enters self-refresh. -/
def enterAllSR (e : Engine) (n : Nat) : Engine :=
  let is := awakeRanks e n
  let e := is.foldl (fun e i => wakeRank e n i) e
  let e := if on e (CH_REF_CTRL_REF_EN n) then catchUp n is 64 e else e
  is.foldl (fun e i =>
    mapPRank (issueBoth (closeRank e n i) n .sre (rankLoc e n i 0)) n i fun p =>
      { p with sr := true, deferred := none }) e

/-- A physical rank that TXS has passed for: D is 0. -/
def outOfSR (e : Engine) (n i : Nat) : Engine :=
  judge (setDebt (mapPRank e n i fun p => { p with sr := false }) n i 0) n i

/-- Every rank of a channel that is in self-refresh leaves it. -/
def exitAllSR (e : Engine) (n : Nat) : Engine :=
  let is := (List.range (pranks e)).filter fun i => (getPRank (getChan e n) i).sr
  if is.isEmpty then e
  else
    let e := is.foldl (fun e i => issueBoth e n .srx (rankLoc e n i 0)) e
    let e := tick e (rd e (CH_TIM7_TXS n))
    let e := startTicks (is.foldl (fun e i => outOfSR e n i) e) n is
    putChan e n { getChan e n with ecsAt := 0 }

/-- The last CTL cycle in which an entry or a command addressed a physical rank. -/
def lastUsed (e : Engine) (n i : Nat) : Nat :=
  let c := getChan e n
  c.subs.foldl (fun m s => (s.log.filter fun d => prankIx e d.rank == i).foldl
    (fun m d => max m (d.t / 4)) m) (getPRank c i).lastUse

/-- POWER_DOWN_ENTRY: in IDLE a precharged rank that nothing has addressed for PDE_IDLE CTL cycles; PDE_IDLE = 0 disables it (R464, R471). -/
def powerDown (e : Engine) (n i : Nat) : Engine :=
  let c := getChan e n
  if chanLive e n && rankServes e n i && rd e PWR_STATE_STATE == 1 && rd e PWR_CTRL_PDE_IDLE != 0 && !rankOpen e n i none &&
      !rankQueued e c i && !(getPRank c i).pd && rankFree e n i then
    let e := tick e (lastUsed e n i + rd e PWR_CTRL_PDE_IDLE - e.clk.cyc)
    let e := issueBoth e n .pde (rankLoc e n i 0)
    mapPRank e n i fun p => { p with pd := true }
  else e

/-! ## Alerts (R214, R240–R242) -/

def putAlert (e : Engine) (n s : Nat) (a : Option Alert) : Engine :=
  let c := getChan e n
  putChan e n { c with alerts := match a with
    | some a => tinsert s a c.alerts
    | none => terase s c.alerts }

/-- ALERT_ASSERT: CHn_ALERT_N of a slot is sampled asserted; an alert during a recovery keeps the window of
the recovery (R240, R242). -/
def alertAssert (e : Engine) (n s : Nat) : Engine :=
  if chanLive e n && (s == 0 || twoSlots e) then
    let now := e.clk.cyc
    let win := now - rd e (CH_TRN_CFG_PAR_WIN n)
    match tlookup (getChan e n).alerts s with
    | none => putAlert e n s (some ⟨now, false, false, win, none, 0, none⟩)
    | some a =>
      if a.parity then putAlert e n s (some ⟨now, false, false, win, some (a.winFrom, a.at_), 0, none⟩) else e
  else e

/-- MEn asks for the RCD error log of a slot over the sideband (R214). -/
def askLog (e : Engine) (n s : Nat) : Engine :=
  let m := n / 2 * 2
  let c := getChan e m
  putChan e m { c with i3c := { c.i3c with queue := c.i3c.queue ++ [⟨2 + n % 2, .log, s, 0⟩] } }

/-- R242: the recovery that an alert of another class has interrupted starts again with its own window. -/
def restarted (a : Alert) : Option Alert :=
  a.prior.map fun p => { a with at_ := p.2, parity := true, winFrom := p.1, prior := none }

/-- ALERT_CLASSIFY: the assertion has lasted `w` CTL cycles (R214). -/
def alertClassify (e : Engine) (n s w : Nat) : Engine :=
  match tlookup (getChan e n).alerts s with
  | none => e
  | some a =>
    if a.parity then e
    else
      let lo := rd e (CH_RG_ABO_PW_MIN n) * 4
      let hi := rd e (CH_RG_ABO_PW_MAX n) * 64
      let e := tick e (a.at_ + min w hi - e.clk.cyc)
      let i := (slotRanks e s).headD 0
      let flag := fun e f => sqSet e (CH_MNT_STATUS n) [(f, 1), (CH_MNT_STATUS_PRANK n, i)]
      if w < lo then putAlert e n s (some { a with
          parity := true, prior := none, winFrom := a.prior.elim a.winFrom fun p => min p.1 a.winFrom })
      else if w ≤ hi then
        let e := putAlert (putAlert e n s (restarted a)) n (s + 2) (some { a with backoff := true, prior := none })
        let e := inc (flag e (CH_MNT_STATUS_ABO n)) (CH_CNT_ABO n)
        syncLines e n
      else
        let e := flag (putAlert e n s (restarted a)) (CH_MNT_STATUS_ALERT_UNID n)
        askLog (meFault e n i (CH_MNT_STATUS_ALERT_UNID n)) n s

/-- The PHY cycle of the last RFMab of a channel. -/
def lastRfmab (e : Engine) (n : Nat) : Nat :=
  (getChan e n).subs.foldl (fun m s => (s.log.filter fun d => d.kind == .rfmab).foldl (fun m d => max m d.t) m) 0

/-- One round of the RFMab commands of a back-off to the physical ranks of the slot, in parallel; after RFM_CNT rounds
ACTs are refused until TRFMAB has passed since the last (R214, R610). -/
def backoffRound (e : Engine) (n s : Nat) (a : Alert) : Engine :=
  let is := backoffRanks e n s
  let e := is.foldl (fun e i => closeRank (wakeRank e n i) n i) e
  let e := is.foldl (fun e i => inc (issueBoth e n .rfmab (rankLoc e n i 0)) (CH_CNT_RFM n)) e
  if a.rounds + 1 ≥ rd e (CH_RG_ABO_RFM_CNT n) then
    let t := lastRfmab e n + 4 * rd e (CH_TIM7_TRFMAB n)
    askLog (putAlert e n (s + 2) (some { a with rounds := a.rounds + 1, upto := some t })) n s
  else putAlert e n (s + 2) (some { a with rounds := a.rounds + 1 })

/-- ALERT_BACKOFF_RFM: a round of a back-off. Between the rounds the channel is free (R155). -/
def alertBackoff (e : Engine) (n s : Nat) : Engine :=
  match tlookup (getChan e n).alerts (s + 2) with
  | none => e
  | some a =>
    if a.upto.isSome then e
    else
      meOp e n [5] (fun e => (backoffRanks e n s).all fun i => meMay e n i) fun e => backoffRound e n s a

/-- R241 steps 3 and 4: reads of the window without a preamble are unissued again, and its writes become
replay writes, the newest of each slot that no queued write supersedes. -/
def replayWindow (e : Engine) (n s lo hi : Nat) : Engine :=
  let c := getChan e n
  let inWin := fun (t : Nat) (rank : Nat) =>
    decide (lo ≤ t) && decide (t < hi) && slotOf (gcfg e) rank == s
  let unissue := fun (r : RqEntry) => match r.issued with
    | some t => if r.miss && inWin t r.loc.rank then { r with issued := none, miss := false, acted := false } else r
    | none => r
  let back := (c.replayLog.filter fun p => inWin p.t p.entry.loc.rank).foldl
    (fun (acc : List WqEntry) p =>
      if acc.any (fun w => sameSlot w.loc p.entry.loc) || (findWrite c p.entry.loc).isSome then acc
      else { p.entry with acted := false } :: acc) []
  let miss := fun (m : Missed) =>
    if inWin (4 * m.cyc) m.loc.rank then { m with again := false, parity := true } else m
  putChan e n { c with
    rq := c.rq.map unissue,
    missed := c.missed.map miss,
    replay := c.replay ++ back,
    replayLog := c.replayLog.filter fun p => !inWin p.t p.entry.loc.rank }

/-- R241 step 5: what the window's maintenance commands did is owed again. -/
def redoMaint (e : Engine) (n i lo hi : Nat) : Engine :=
  let c := getChan e n
  let ms := c.maintLog.filter fun m => decide (lo ≤ m.t) && decide (m.t < hi) && m.prank == i
  let e := putChan e n { c with maintLog := c.maintLog.filter fun m => !(ms.contains m) }
  let refs := (ms.filter fun m => m.loc.sc == 0 &&
    (m.kind == .refab || (m.kind == .refsb && m.loc.bank == 3))).length
  let e := setDebt e n i (min 15 (debt e n i + refs))
  let e := if ms.any fun m => m.kind == .refsb then mapPRank e n i fun p => { p with unit := 0 } else e
  let e := ms.foldl (fun e m =>
    let c := getChan e n
    if m.kind = .drfm then
      let b := bankAt c m.loc
      putChan e n (putBank c (bankKey m.loc) { b with rg := b.rg.map fun (r : RgRow) =>
        if r.row = m.loc.row then { r with pending := true, sampled := false } else r })
    else if m.kind = .rfmsb then
      putChan e n (m.lowered.foldl (fun c p =>
        let b := getBank c p.1
        putBank c p.1 { b with raa := b.raa + p.2 }) c)
    else e) e
  judge e n i

/-- R239: in blocking mode the RCD of the slot has dropped the failing command and every later one, so the writes
among them never reached their slots. Which command of the window failed is a free value. -/
def dropBlocked (e : Engine) (n s lo hi : Nat) : Engine :=
  let c := getChan e n
  if (nth c.rcd s ⟨false, 0⟩).blocking then
    let f := lo + Config.choice e.free % max 1 (hi - lo)
    let ws := c.replayLog.filter fun p => decide (f ≤ p.t) && decide (p.t < hi) && slotOf (gcfg e) p.entry.loc.rank == s
    ws.foldl (fun e p => dramPut e p.entry.loc p.old) (drawFree e)
  else e

/-- R241 steps 1 to 5: the error-clear word and PREab on both subchannels, inserted ahead of the holder's commands, and
the replay of the window of the alert. -/
def parityReplay (e : Engine) (n s : Nat) (a : Alert) : Engine :=
  let e := dropBlocked e n s (4 * a.winFrom) (4 * a.at_)
  let e := (slotRanks e s).foldl (fun e i => wakeRank e n i) e
  let e := insertBoth e n .mrw (rankLoc e n ((slotRanks e s).headD 0) 0)
  let e := tick e (rd e (CH_TIM8_TMRD n))
  let e := (slotRanks e s).foldl (fun e i => insertBoth e n .preab (rankLoc e n i 0)) e
  let e := replayWindow e n s (4 * a.winFrom) (4 * a.at_)
  (slotRanks e s).foldl (fun e i => redoMaint e n i (4 * a.winFrom) (4 * a.at_)) e

/-- R242: the recoveries of a slot in the last millisecond: more than four raise PAR_STORM. -/
def parityStorm (e : Engine) (n s : Nat) : Engine :=
  let c := getChan e n
  let now := e.clk.nominal
  let old := (tget [] c.parity s).filter fun t => decide (now < t + msUnits 1)
  let e := putChan e n { c with parity := tput [] c.parity s (now :: old) }
  if old.length ≥ 4 then
    let e := sqSet e (CH_TRN_STATUS n) [(CH_TRN_STATUS_PAR_STORM n, 1)]
    let e := raise e (0x40 + n) .contained (synOf (CH_TRN_STATUS_PAR_STORM n).lo 0)
    firmware e (.spare n 0 false)
  else e

/-- CA_PARITY_RECOVERY (R241, R242). -/
def parityRecovery (e : Engine) (n s : Nat) : Engine :=
  match tlookup (getChan e n).alerts s with
  | none => e
  | some a =>
    if a.parity then
      let e := tick (putAlert (parityReplay e n s a) n s none) 1
      let e := inc (sqSet e (CH_TRN_STATUS n) [(CH_TRN_STATUS_PAR_REPLAY n, 1)]) (CH_CNT_PAR n)
      syncLines (askLog (parityStorm e n s) n s) n
    else e

/-! ## What lifts a refusal -/

/-- What the block does next that an ACT of a requester waits for (R30, R154, R156, R157, R213, R214): the deferred DRFM
of the rank, the end of a back-off, a due refresh, RFMsb or a mitigation, the last of them under MEn's grant. None stands where only an alert's
classification or the end of an epoch can lift the refusal (R209, R240). -/
def liftOnce (e : Engine) (n : Nat) (who : Who) (l : Loc) : Option Engine :=
  let c := getChan e n
  let b := bankAt c l
  let i := prankIx e l.rank
  let s := slotOf (gcfg e) l.rank
  let me := fun (f : Engine → Engine) => some (underMe e n fun e => f (wakeRank e n i))
  if heldAt e c l.rank (nowPhy e) then none
  else if deferredHolds e c l.rank then some (deferredCmd e n i)
  else if abRefused e c l.rank (nowPhy e) then
    match tlookup c.alerts (s + 2) with
    | some a => match a.upto with
      | some u => some (toPhy e (u + 3))
      | none => me fun e => backoffRound e n s a
    | none => none
  else if who == .sched && dueRefused e n c l then
    let urgent := on e (urgentF n i)
    me fun e =>
      let e := refreshNow e n i
      if urgent then deferDrfm e n i (if gran e n = 2 then some l.bank else none) else e
  else if (bankShut e n b).2 then me fun e => rfmIssue e n l
  else if who != .me && bankPending b then me fun e => mitigate e n l
  else none

/-- The same until a requester's ACT to a location is legal, or nothing more can be done for it. -/
def liftRefusal (n : Nat) (who : Who) (l : Loc) : Nat → Engine → Engine
  | 0, e => e
  | k + 1, e =>
    if actRefused e n who (getChan e n) l (nowPhy e) || deferredHolds e (getChan e n) l.rank then
      match liftOnce e n who l with
      | some e => liftRefusal n who l k e
      | none => e
    else e

/-! ## Temperature (R201–R203) -/

/-- The highest hub reading, and the highest MR4 request. -/
def hubMax (c : Chan) : Nat := c.hubs.foldl (fun m p => max m p.2) 0
def mr4Max (c : Chan) : Nat := c.mr4.foldl (fun m p => max m p.2) 0

/-- R203: the channel is at its critical temperature, or a device asks for a rate above twice normal. -/
def thermCrit (e : Engine) (n : Nat) : Engine :=
  meFault (sqSet e (CH_MNT_STATUS n) [(CH_MNT_STATUS_THERM_CRIT n, 1)]) n 0 (CH_MNT_STATUS_THERM_CRIT n)

/-- The channel's temperature state follows its sources (R201, R202): it returns to normal once every source has been
cool for one POLL_MS. -/
def tempUpdate (e : Engine) (n : Nat) : Engine :=
  let c := getChan e n
  let t := hubMax c
  let r := mr4Max c
  let now := e.clk.nominal
  let cool := decide (t ≤ rd e (CH_TEMP_CFG_HOT_OFF n)) && r == 0
  let coolAt := if cool then some (c.coolAt.getD now) else none
  let crit := decide (t ≥ rd e (CH_TEMP_CFG_CRIT n))
  let e := putChan e n { c with crit := crit, coolAt := coolAt }
  let was := on e (CH_TEMP_STATE_HOT n)
  let hot := if decide (t ≥ rd e (CH_TEMP_CFG_HOT_ON n)) || r != 0 then true
    else if coolAt.any fun a => decide (now ≥ a + msUnits (rd e (CH_TEMP_CFG_POLL_MS n))) then false
    else was
  let e := wr e (CH_TEMP_STATE_MR4_RATE n) r
  let e := if hot = was then e
    else
      let e := wr e (CH_TEMP_STATE_HOT n) (bit hot)
      shedAsk (sqSet e (CH_MNT_STATUS n) [(CH_MNT_STATUS_HOT_CHANGE n, 1)])
  if crit && !c.crit then thermCrit e n else e

/-- A poll has read the hub of a slot. -/
def hubRead (e : Engine) (n s temp : Nat) : Engine :=
  let c := getChan e n
  let e := putChan e n { c with hubs := tinsert s temp c.hubs }
  tempUpdate (wr e (CH_TEMP_STATE_TEMP_MAX n) (hubMax (getChan e n))) n

/-- An in-band interrupt carries the reading of one hub (R201). -/
def tempIbi (e : Engine) (n s temp : Nat) : Engine :=
  let c := getChan e n
  tempUpdate (putChan e n { c with hubs := tinsert s temp c.hubs }) n

/-- POLL_MS has passed: the hubs of the channel's modules are asked over the sideband, whose readings are `temps`, 8 bits
a slot, and MEn asks for the channel to read MR4. -/
def startPoll (e : Engine) (n temps : Nat) : Engine :=
  let e := tickTo e ((getChan e n).pollAt + msUnits (rd e (CH_TEMP_CFG_POLL_MS n)))
  let e := putChan e n { getChan e n with pollAt := e.clk.nominal, mrrWant := true }
  let m := n / 2 * 2
  let c := getChan e m
  let asks := (List.range (2 ^ (gcfg e).slotBits)).map fun s =>
    (⟨2 + n % 2, .temp, s, temps / 2 ^ (8 * s) % 256⟩ : I3cReq)
  syncLines (putChan e m { c with i3c := { c.i3c with queue := c.i3c.queue ++ asks } }) n

/-- MEn reads MR4 of each physical rank by MRR (R201): 2 bits a rank. Each read above twice the normal rate sets
THERM_CRIT (R203). -/
def readMr4 (e : Engine) (n mr4 : Nat) : Engine :=
  meOp e n [1] (fun e => (getChan e n).mrrWant && (awakeRanks e n).all fun i => rankFree e n i) fun e =>
    let is := awakeRanks e n
    let e := is.foldl (fun e i => issueBoth (wakeRank e n i) n .mrr (rankLoc e n i 0)) e
    let e := putChan e n { getChan e n with mrrWant := false, mr4 := is.map fun i => (i, mr4 / 2 ^ (2 * i) % 4) }
    is.foldl (fun e i => if mr4 / 2 ^ (2 * i) % 4 ≥ 2 then thermCrit e n else e) (tempUpdate e n)

/-! ## Maintenance time (R216) -/

/-- MNT_TIME_INTERVAL: the busy time of the last millisecond, and the excess over the charge. -/
def mntInterval (e : Engine) (n : Nat) : Engine :=
  if clocked e then
    let e := tickTo e ((getChan e n).busyAt + msUnits 1)
    let c := getChan e n
    let late := ((c.pranks.flatMap (·.busyTo)).map fun b => b - e.clk.cyc).sum
    let busy := c.busy - late
    let e := putChan e n { c with busy := late, busyAt := e.clk.nominal }
    let e := setReg e (CH_MNT_TIME n) (BitVec.ofNat 32 busy)
    let cycles := binRate e.clk.bin * 125
    let frac : Rat := (busy : Rat) / (cycles * 2 * pranks e)
    let charge : Rat := (mntCharge e n (on e (CH_TEMP_STATE_HOT n)) : Rat) / 10000
    let excess := ratNat ((frac - charge) * peakBw e)
    if excess = rd e (QOS_DROP_EXCESS n) then e
    else shedAsk (wr e (QOS_DROP_EXCESS n) excess)
  else e

end Sys2Proof.Machine
end

