-- ==== Sys2Proof/Machine/Tickets.lean ====
section
/-! DEFINITION. Records and tickets of the Mulum Command Interface (R502–R513), which every block that
works for a ticket reports to, and whether the firmware of a core pair runs. -/

namespace Sys2Proof.Machine

/-! ## Status codes (R506) -/

abbrev stOk : Nat := 0x00
abbrev stBusy : Nat := 0x01
abbrev stDone : Nat := 0x02
abbrev stAborted : Nat := 0x03
abbrev stTooLate : Nat := 0x04
abbrev stSuperseded : Nat := 0x05
abbrev stQuiesce : Nat := 0x06
abbrev stOver : Nat := 0x07
abbrev stUnsupported : Nat := 0x08
abbrev stDenied : Nat := 0x09
abbrev stBadArg : Nat := 0x0A

def mapMci (e : Engine) (f : Mci → Mci) : Engine := { e with mci := f e.mci }

/-! ## Records (R503, R512) -/

def word (n : Nat) : Word := BitVec.ofNat 32 n

/-- R503: a record with its two header words. -/
def mkRec (box op tag st res : Nat) (body : List Word) (ticket : Bool) : Rec :=
  { box := box, tag := tag, ticket := ticket
    words := word (op * 2 ^ 16 + tag * 2 ^ 8 + st) ::
      word (res % 2 ^ 24 * 2 ^ 8 + (body.length + 2)) :: body }

/-- R512: the store of the status word completes the command. -/
def storeRec (e : Engine) (r : Rec) : Engine :=
  let e := mapMci e fun m => { m with records := m.records ++ [r] }
  let w := r.words.headD 0
  traceRec e 3 (r.box % 64 * 2 ^ 16 + w.toNat / 2 ^ 16) w

/-- An immediate response (R503). -/
def answer (e : Engine) (box op tag st res : Nat) (body : List Word) : Engine :=
  storeRec e (mkRec box op tag st res body false)

/-! ## Sessions -/

def getSession (e : Engine) (box : Nat) : Option Session := tget none e.mci.sessions box
def putSession (e : Engine) (box : Nat) (s : Option Session) : Engine :=
  mapMci e fun m => { m with sessions := tput none m.sessions box s }

/-! ## Tickets (R511) -/

def findTicket (e : Engine) (id : Nat) : Option Ticket := e.mci.tickets.find? fun t => t.id == id

def mapTicket (e : Engine) (id : Nat) (f : Ticket → Ticket) : Engine :=
  mapMci e fun m => { m with tickets := m.tickets.map fun t => if t.id = id then f t else t }

/-- The open tickets of a mailbox's session: those of a session that has ended are no longer its own (R509). -/
def boxTickets (e : Engine) (box : Nat) : List Ticket := e.mci.tickets.filter fun t => t.box == box && !t.drop

/-- R511: a ticket opens under the next identity; its TAG leaves the remembered ones. -/
def openTicket (e : Engine) (box tag op : Nat) (body : List Word) : Engine × Nat :=
  let id := e.mci.nextTicket
  let e := mapMci e fun m => { m with
    nextTicket := id + 1, tickets := m.tickets ++ [⟨id, box, tag, op, 0, false, false, false, body⟩] }
  let e := match getSession e box with
    | some s => putSession e box (some { s with recent := s.recent.filter (· != tag) })
    | none => e
  (e, id)

def setProgress (e : Engine) (id n : Nat) : Engine := mapTicket e id fun t => { t with progress := n }
def addProgress (e : Engine) (id n : Nat) : Engine :=
  mapTicket e id fun t => { t with progress := t.progress + n }

/-- The ticket's declared point passes. -/
def declare (e : Engine) (id : Nat) : Engine := mapTicket e id fun t => { t with declared := true }

/-- An abort of the ticket has been answered OK. -/
def isAborting (e : Engine) (id : Nat) : Bool :=
  match findTicket e id with
  | some t => t.aborting
  | none => false

/-- R503, R513: a ticket ends with its status, RES and command-specific words; a ticket whose abort was
answered OK stores ABORTED and nothing else. -/
def finish (e : Engine) (id st res : Nat) (body : List Word) : Engine :=
  match findTicket e id with
  | none => e
  | some t =>
    let e := mapMci e fun m => { m with tickets := m.tickets.filter fun u => u.id != id }
    let st := if t.aborting then stAborted else st
    if t.drop then e
    else storeRec e (mkRec t.box t.op t.tag st res
      (word (t.progress % 2 ^ 32) :: word (t.progress / 2 ^ 32) :: body) true)

/-- The same for an operation that may have been started without a ticket. -/
def finishOpt (e : Engine) (id : Option Nat) (st res : Nat) (body : List Word) : Engine :=
  match id with
  | some i => finish e i st res body
  | none => e

def progressOpt (e : Engine) (id : Option Nat) (n : Nat) : Engine :=
  match id with
  | some i => setProgress e i n
  | none => e

def declareOpt (e : Engine) (id : Option Nat) : Engine :=
  match id with
  | some i => declare e i
  | none => e

/-! ## The management cores (R475, R478) -/

/-- The two lockstep pairs: 0 is MC0/MC1, 1 is MC2/MC3. -/
def pairField (p : Nat) : Fld := if p = 0 then MBX_CORE_STATE_ST01 else MBX_CORE_STATE_ST23
def restartField (p : Nat) : Fld := if p = 0 then MBX_CORE_STATE_RESTART01 else MBX_CORE_STATE_RESTART23

/-- A pair executes its firmware. -/
def pairRuns (e : Engine) (p : Nat) : Bool :=
  clocked e && rd e (pairField p) == 0 && !nth e.dbg.halted p false &&
    (nth e.cores p ⟨0, none, false, 0⟩).released

end Sys2Proof.Machine
end

