-- ==== Sys2Proof/Machine/Runs.lean ====
section
/-! DEFINITION. Training runs (R225, R227, R230–R233): their steps and units, how a run begins and ends, its triggers,
and the gate misses of R224. -/

namespace Sys2Proof.Machine

def mapTrain (e : Engine) (n : Nat) (f : Train → Train) : Engine :=
  let c := getChan e n
  putChan e n { c with train := f c.train }

/-! ## Steps and units -/

/-- The modules are MRDIMMs. -/
def isMrdimm (e : Engine) (n : Nat) : Bool := rd e (CH_PHY_SPD_TYPE n) == 2

/-- The steps of a run in order (R225, R230, R235); steps 4 and 9 are for MRDIMMs. -/
def runSteps (e : Engine) (n mode mask : Nat) : List Nat :=
  let all := match mode with
    | 0 => List.range 11
    | 1 => [5, 6, 9, 10]
    | _ => [5, 6, 8, 9, 10]
  all.filter fun s => mask / 2 ^ s % 2 == 1 && (isMrdimm e n || (s != 4 && s != 9))

/-- The physical ranks of a mask. -/
def runRanks (mask : Nat) : List Nat := (List.range 4).filter fun p => mask / 2 ^ p % 2 == 1

/-- The step and physical rank that follow, step by step. -/
def nextPos (e : Engine) (n : Nat) (cur : Option (Nat × Nat)) : Option (Nat × Nat) :=
  let t := (getChan e n).train
  let ps := (runSteps e n (rd e (CH_TRN_STATE_RUN_MODE n)) t.steps).flatMap fun s =>
    (runRanks t.pranks).map fun p => (s, p)
  match cur with
  | none => ps.head?
  | some x => (ps.dropWhile (· != x)).tail.head?

/-- The probe units of step 8 for a logical rank (DESIGN CHOICE: 64 for a physical rank, as for step 6). -/
def probeUnits (e : Engine) : Nat := 64 / 2 ^ cidBits e

/-- The units of step 8 for a logical rank: sixteen that save its lines, a column each, the probes, sixteen that restore
the lines and one that closes the row (R236). A unit issues over at most 32 CTL cycles, so the 32 lines need several. -/
def lineUnits (e : Engine) : Nat := probeUnits e + 33

/-- R231: units of a step for a physical rank; an online run measures the write drift in the last two of
step 10. -/
def stepUnits (e : Engine) (mode step : Nat) : Nat :=
  match step with
  | 5 => 4
  | 6 => 64
  | 8 => lineUnits e * 2 ^ cidBits e
  | 9 => 2
  | 10 => if mode = 1 then 10 else 8
  | _ => 1

/-- The run stands at a step and a physical rank. -/
def atPos (e : Engine) (n : Nat) (x : Nat × Nat) : Engine :=
  let e := setReg e (CH_TRN_STATE n) (setFields (reg e (CH_TRN_STATE n))
    [(CH_TRN_STATE_STEP n, x.1), (CH_TRN_STATE_PRANK n, x.2)])
  mapTrain e n fun t => { t with units := 0, rerun := false, probe := [] }

/-- The channel temperature (R201). -/
def chanTemp (e : Engine) (n : Nat) : Nat := hubMax (getChan e n)

/-- R227, R249: FAIL with the location of the first failure. -/
def failFlags (e : Engine) (n step : Nat) (f : Option LaneFail) : List (Fld × Nat) :=
  if on e (CH_TRN_STATUS_FAIL n) then []
  else
    let f := f.getD ⟨0, 0, 0⟩
    [(CH_TRN_STATUS_FAIL n, 1), (CH_TRN_STATUS_STEP n, step), (CH_TRN_STATUS_PRANK n, f.prank.val),
     (CH_TRN_STATUS_SC n, f.sc.val), (CH_TRN_STATUS_LANE n, f.lane.val)]

/-- FAIL with the contained fault of TSn. -/
def trainFail (e : Engine) (n step : Nat) (f : Option LaneFail) : Engine :=
  let e := sqSet e (CH_TRN_STATUS n) (failFlags e n step f)
  let lane := match f with | some f => f.lane.val | none => 0
  raise e (0x40 + n) .contained (synOf (CH_TRN_STATUS_FAIL n).lo (step * 2 ^ 7 + lane))

/-! ## The end of a run -/

/-- TSn lets the channel go. -/
def tsRelease (e : Engine) (n : Nat) : Engine := if holder e n = 3 then releaseChan (offBus e n) n else e

/-- The slice ends: the channel is released and the gap begins (R231). -/
def sliceEnd (e : Engine) (n : Nat) : Engine :=
  if holder e n = 3 then
    tsRelease (mapTrain e n fun t => { t with
      slice := none, gapUntil := e.clk.nominal + usUnits (rd e (CH_TRN_CFG_GAP n)) }) n
  else mapTrain e n fun t => { t with slice := none }

/-- R227: every bank of the channel is precharged. -/
def prechargeAll (e : Engine) (n : Nat) : Engine :=
  if chanLive e n then (List.range (pranks e)).foldl (fun e i => closeRank e n i) e else e

/-- R235: the channel serves again after the command RETRAIN. -/
def backInService (e : Engine) (n : Nat) : Engine :=
  if (getChan e n).train.offline then
    let e := mapTrain e n fun t => { t with offline := false }
    writeDrops (firmSched e n)
  else e

/-- The end of a run: BUSY clears, the channel is released and the ticket completes. Steep leaves the banks
precharged. -/
def closeRun (e : Engine) (n : Nat) (flags : List (Fld × Nat)) : Engine :=
  let steep := steepRuns e n
  let e := if steep then prechargeAll e n else e
  let e := wr e (CH_TRN_STATE_BUSY n) 0
  let e := sqSet e (CH_TRN_STATUS n) flags
  let t := (getChan e n).train
  let e := mapTrain e n fun t => { t with units := 0, probe := [], ticket := none, stop := none }
  let e := putChan e n { getChan e n with missed := (getChan e n).missed.filter fun m => m.use.kind != 4 }
  let w := reg e (CH_TRN_STATUS n)
  let w := if t.failed.isEmpty then w else w ||| word (2 ^ (CH_TRN_STATUS_FAIL n).lo)
  let e := finishOpt e t.ticket stOk (rd e (CH_TRN_STATE_SLICES n)) [w]
  let e := if steep then tsRelease e n else sliceEnd e n
  backInService e n

/-! ## The start of a run -/

/-- The sideband reads of Steep's step 0, one for each hub of the channel (R225, R245). -/
def askSpd (e : Engine) (n : Nat) : Engine :=
  let m := n / 2 * 2
  let c := getChan e m
  let asks := (List.range (if twoSlots e then 2 else 1)).map fun s => (⟨n % 2, .spd, s, 0⟩ : I3cReq)
  putChan e m { c with i3c := { c.i3c with queue := c.i3c.queue ++ asks } }

/-- Starts a run: its mode, ranks and steps, from its first step, and TSn bids for the channel. A run without a step
ends as it starts. -/
def beginRun (e : Engine) (n mode pranks steps : Nat) (ticket : Option Nat) : Engine :=
  let e := setReg e (CH_TRN_STATE n) (setFields (reg e (CH_TRN_STATE n))
    [(CH_TRN_STATE_BUSY n, 1), (CH_TRN_STATE_RUN_MODE n, mode), (CH_TRN_STATE_SLICES n, 0)])
  let e := mapTrain e n fun t => { t with
    steps := steps, pranks := pranks, slice := none, began := e.clk.nominal,
    failed := [], stop := none, retries := [], ticket := ticket }
  match nextPos e n none with
  | some x =>
    let e := atPos e n x
    if mode = 0 then
      syncLines (if x.1 = 0 then askSpd e n else e) n
    else syncLines e n
  | none => closeRun e n [(CH_TRN_STATUS_DONE n, 1)]

/-- R244, R459: the channel has agreed to the entry in progress, and starts no run until it ends or reverses. -/
def entryAgreed (e : Engine) (n : Nat) : Bool := on e PWR_STATE_TRANS && e.pwr.agreed.contains (16 + n)

/-- The steps of an online run (R230). -/
def onlineSteps : Nat := 0x660

/-- R233: a trigger starts an online run, or sets the pending flag while a run is in progress. -/
def trigger (e : Engine) (n steps : Nat) : Engine :=
  if on e (CH_TRN_STATE_BUSY n) || isSafe e || entryAgreed e n then
    if on e (CH_TRN_STATE_PENDING n) then e
    else mapTrain (wr e (CH_TRN_STATE_PENDING n) 1) n fun t => { t with pendSteps := steps }
  else beginRun e n 1 (2 ^ pranks e - 1) steps none

/-- A pending trigger's run starts when the current run has ended (R233). -/
def startPending (e : Engine) (n : Nat) : Engine :=
  if on e (CH_TRN_STATE_PENDING n) && !on e (CH_TRN_STATE_BUSY n) && !isSafe e && !entryAgreed e n then
    let s := (getChan e n).train.pendSteps
    beginRun (wr e (CH_TRN_STATE_PENDING n) 0) n 1 (2 ^ pranks e - 1) s none
  else e

/-- R233: how many runs in a row have failed a step, after a run with these steps and failures. -/
def failCount (t : Train) (ran : List Nat) : Tbl Nat :=
  ran.foldl (fun a s => tput 0 a s (if t.failed.any (·.1 == s) then tget 0 a s + 1 else 0)) t.fails

/-- A run has completed: the trigger's bases, and the first of its failures whose step has failed in three runs in a row
(R233). The count of that step restarts at 0 (DESIGN CHOICE: what a fourth failing run in a row does is not stated). -/
def runEnds (e : Engine) (n : Nat) : Engine :=
  let mode := rd e (CH_TRN_STATE_RUN_MODE n)
  let t := (getChan e n).train
  let cnt := if mode = 0 then t.fails else failCount t (runSteps e n mode t.steps)
  let third := t.failed.find? fun f => decide (tget 0 cnt f.1 ≥ 3) && mode != 0
  let cnt := match third with
    | some f => tput 0 cnt f.1 0
    | none => cnt
  let e := mapTrain e n fun t => { t with ended := e.clk.nominal, temp := chanTemp e n, fails := cnt }
  match third, t.failed.head? with
  | some f, _ => firmware (trainFail e n f.1 (some f.2)) (.spare n 0 false)
  | none, some f => if mode = 2 then trainFail e n f.1 (some f.2) else e
  | none, none => e

/-- A run that has completed: DONE, and a pending trigger's run. -/
def endRun (e : Engine) (n : Nat) : Engine :=
  startPending (closeRun (runEnds e n) n [(CH_TRN_STATUS_DONE n, 1)]) n

/-! ## Gate misses (R224) -/

/-- A burst without a preamble is counted. -/
def gateCount (e : Engine) (n : Nat) : Engine :=
  sqSet (inc e (CH_CNT_GATE_MISS n)) (CH_TRN_STATUS n) [(CH_TRN_STATUS_GATE_MISS n, 1)]

/-- The second miss of a read, which is an uncorrectable error: it counts, it raises a contained fault, and an online run
of read gate training is asked for where TRN_EN enables the triggers (R248). -/
def missTwice (e : Engine) (n : Nat) : Engine :=
  let e := gateCount e n
  let e := raise e (0x40 + n) .contained (synOf (CH_TRN_STATUS_GATE_MISS n).lo (5 * 2 ^ 7))
  if on e (CH_TRN_CTRL_TRN_EN n) then trigger e n (2 ^ 5) else e

end Sys2Proof.Machine
end

