-- ==== Sys2Proof/Machine/Scrub.lean ====
section
/-! DEFINITION. MEn's reads and copies: patrol and commanded scrub, second reads, ECS readout, soft and hard
repair, and the sparing copy (R112, R262–R278). -/

namespace Sys2Proof.Machine

/-- The `i`th slot of a run of error patterns. -/
def errAt {w : Nat} (err : BitVec w) (i : Nat) : Slot := err.extractLsb' (640 * i) 640

/-! ## Slots that scrub skips (R262, R264) -/

/-- Opens the row of a location for MEn, closing another row first; says whether it opened it. -/
def meOpen (e : Engine) (n : Nat) (l : Loc) : Engine × Bool :=
  match (bankAt (getChan e n) l).row with
  | some r =>
    if r = l.row then (e, false)
    else (issueAt (issueAt e n l.sc .pre l) n l.sc .act l, true)
  | none => (issueAt e n l.sc .act l, true)

/-- The row of a location is open, or a requester may open it as far as holds and refusals go. -/
def canReach (e : Engine) (n : Nat) (who : Who) (l : Loc) : Bool :=
  rankFree e n (prankIx e l.rank) &&
    ((bankAt (getChan e n) l).row == some l.row || !actRefused e n who (getChan e n) l (nowPhy e))

/-- A slot that MEn or TSn writes beside the scheduler, outside RUN: what refuses its ACT is lifted, its row opens and the
WR issues. Where the refusal stays (an alert's hold, a capped bank), the write waits in the write queue (DESIGN CHOICE). -/
def blockWrite (e : Engine) (n : Nat) (who : Who) (l : Loc) (s old : Slot) : Engine :=
  let e := wakeRank e n (prankIx e l.rank)
  let e := if (bankAt (getChan e n) l).row = some l.row then e else liftRefusal n who l 256 e
  if canReach e n who l then issueWr (meOpen e n l).1 n l s old
  else putChan e n (pushWrite e (getChan e n) none none false ((slotLa e l).getD noLine) l s e.clk.tb)

/-- The bank of a location is precharged where it is open and no alert holds its rank. -/
def closeRow (e : Engine) (n : Nat) (l : Loc) : Engine :=
  if (bankAt (getChan e n) l).row.isSome && rankFree e n (prankIx e l.rank) then issueAt e n l.sc .pre l else e

/-- R224: reads whose bursts have no preamble wait for PAR_WIN; bit i of `miss` says so of read i of the CTL cycles in
`sent`, and bit 4 + i that its reissue has none either. `f` says what a read is for, and what its reissue turns over. -/
def park (e : Engine) (n : Nat) (sent : List (Loc × Nat)) (miss : BitVec 8) (f : Nat → Slot × MissUse) : Engine :=
  let late := sent.zipIdx.filter fun p => miss.getLsbD p.2
  let c := getChan e n
  putChan e n { c with missed := c.missed ++ late.map fun p =>
    ⟨p.1.1, p.1.2, (f p.2).1, miss.getLsbD (p.2 + 4), false, false, (f p.2).2⟩ }

/-- MEn reads some slots of one row: ACT when the row is closed, the reads, PRE if it opened the row. Answers the slots
whose bursts have no preamble, which wait. -/
def meReads (e : Engine) (n : Nat) (ls : List Loc) (miss : BitVec 8) (f : Nat → Slot × MissUse) : Engine × List Loc :=
  match ls with
  | [] => (e, [])
  | l :: _ =>
    let (e, opened) := meOpen (wakeRank e n (prankIx e l.rank)) n l
    let (e, sent) := ls.foldl (fun (a : Engine × List (Loc × Nat)) l =>
      let e := issueAt a.1 n l.sc .rd l
      (e, a.2 ++ [(l, e.clk.cyc)])) (e, [])
    let e := park e n sent miss f
    (if opened then issueAt e n l.sc .pre l else e, (ls.zipIdx.filter fun p => miss.getLsbD p.2).map (·.1))

/-- R224: a missed read is issued again and counts, unless a parity recovery explains it; one that has had no preamble
twice is lost. `f` goes on with the slot, and with whether it is lost. -/
def missAgain (e : Engine) (n : Nat) (m : Missed) (f : Engine → Bool → Engine) : Engine :=
  let c := getChan e n
  let drop := fun (e : Engine) => putChan e n { getChan e n with missed := (getChan e n).missed.erase m }
  if m.again then f (missTwice (drop e) n) true
  else
    let e := if m.parity then e else gateCount e n
    let (e, opened) := meOpen (wakeRank e n (prankIx e m.loc.rank)) n m.loc
    let e := issueAt e n m.loc.sc .rd m.loc
    let t := e.clk.cyc
    let e := if opened && m.use.kind != 4 then issueAt e n m.loc.sc .pre m.loc else e
    if m.twice then putChan e n { getChan e n with
      missed := c.missed.map fun x => if x = m then { m with cyc := t, again := true, parity := false } else x }
    else f (drop e) false

/-- A slot that MEn has read goes through ECC; one whose burst had no preamble twice is uncorrectable (R224). -/
def meDecode (e : Engine) (n origin : Nat) (l : Loc) (s : Slot) (lost : Bool) : Engine × EccRes :=
  if lost then (countUe e n origin 1 15 0 l (isMetaLoc e l), ⟨.ue, none⟩)
  else eccRead e n origin l s (isMetaLoc e l)

/-- R264, R265: one slot of a scrub operation as it was read: a first uncorrectable read, and a burst that has no preamble
twice (`lost`), is read again. -/
def scrubSlot (e : Engine) (n : Nat) (l : Loc) (s : Slot) (lost : Bool) : Engine :=
  let again := fun (e : Engine) =>
    let c := getChan e n
    putChan e n { c with rereads := c.rereads ++ [⟨l, 1, e.clk.nominal, false⟩] }
  if lost then again e
  else match decodeSlot (markOf e n l.rank l.sc) s with
  | .uncorrectable _ => again e
  | .second _ _ => again e
  | _ =>
    let (e, x) := eccRead e n 1 l s (isMetaLoc e l)
    match x.fixed with
    | some f => writeBack e n l f false
    | none => e

/-- One scrub operation over slots of a row. -/
def scrubRun (d : Dram) (e : Engine) (n : Nat) (ls : List Loc) (err : BitVec 2560) (miss : BitVec 8) : Engine :=
  let rs := scrubbed e n ls
  let at0 := fun l => errAt err (ls.idxOf l)
  let (e, late) := meReads e n rs miss fun i => (at0 (nth rs i ⟨0, 0, 0, 0, 0, 0, 0⟩), .scrub)
  rs.foldl (fun e l => if late.contains l then e else scrubSlot e n l (dramAt d e l ^^^ at0 l) false) e

/-! ## Patrol (R262, R263) -/

/-- The operations of a pass. -/
def patrolOps (e : Engine) : Nat := let g := gcfg e; dumpBase g * 2 ^ g.k * 2048

/-- A field counts up to its limit and carries. -/
def carry (v lim : Nat) (c : Bool) : Nat × Bool :=
  if c then (if v + 1 ≥ lim then (0, true) else (v + 1, false)) else (v, false)

/-- PERIOD_H in time units. -/
def patrolPeriod (e : Engine) (n : Nat) : Nat := msUnits (3600000 * rd e (CH_SCRUB_CTRL_PERIOD_H n))

/-- The patrol position advances; the end of a pass sets PATROL_DONE, and PATROL_LATE when it overran. -/
def patrolAdvance (e : Engine) (n : Nat) : Engine :=
  let g := gcfg e
  let (q, c) := carry (rd e (CH_SCRUB_POS_COLQ n)) 32 true
  let (s, c) := carry (rd e (CH_SCRUB_POS_SC n)) 2 c
  let (b, c) := carry (rd e (CH_SCRUB_POS_BANK n)) 4 c
  let (h, c) := carry (rd e (CH_SCRUB_POS_BG n)) 8 c
  let (k, c) := carry (rd e (CH_SCRUB_POS_RANK n)) (2 ^ g.k) c
  let (r, c) := carry (rd e (CH_SCRUB_PTR_ROW n)) (dumpBase g) c
  let e := setReg e (CH_SCRUB_POS n) (setFields 0
    [(CH_SCRUB_POS_COLQ n, q), (CH_SCRUB_POS_SC n, s), (CH_SCRUB_POS_BANK n, b),
     (CH_SCRUB_POS_BG n, h), (CH_SCRUB_POS_RANK n, k)])
  let e := wr e (CH_SCRUB_PTR_ROW n) r
  let ch := getChan e n
  let e := putChan e n { ch with scrubAt := ch.scrubAt + patrolPeriod e n / max 1 (patrolOps e) }
  if c then
    let ch := getChan e n
    let late := decide (e.clk.nominal > ch.patrolAt + patrolPeriod e n)
    let e := sqSet e (CH_ECC_STATUS n)
      ([(CH_ECC_STATUS_PATROL_DONE n, 1)] ++ if late then [(CH_ECC_STATUS_PATROL_LATE n, 1)] else [])
    let e := inc e (CH_CNT_PATROL n)
    putChan e n { getChan e n with patrolAt := e.clk.nominal }
  else e

/-! ## Commanded passes (R267) -/

/-- The passes of a ticket that are left. -/
def passLeft (e : Engine) (id : Nat) : Bool :=
  (List.range 16).any fun n => (getChan e n).pass.any fun p => p.ticket == id

/-- One operation of the oldest extra pass of a channel, which counts the slots that it scrubs; the last one of the ticket
ends SCRUB with OK. -/
def passOp (d : Dram) (e : Engine) (n : Nat) (err : BitVec 2560) (miss : BitVec 8) : Engine :=
  match (getChan e n).pass with
  | [] => e
  | p :: ps =>
    let stop := fun (e : Engine) =>
      let e := putChan e n { getChan e n with pass := ps }
      if passLeft e p.ticket then e else finish e p.ticket stOk 0 []
    match passNext e n p with
    | none => stop e
    | some la =>
      let ls := passSlots e n
      let k := (scrubbed e n ls).length
      let e := addProgress (scrubRun d e n ls err miss) p.ticket k
      let p := { p with next := la + 1, done := p.done + k }
      let e := putChan e n { getChan e n with pass := p :: ps }
      if (passNext e n p).isNone then stop e else e

/-- SCRUB_OPERATION. -/
def scrubOp (d : Dram) (e : Engine) (n : Nat) (err : BitVec 2560) (miss : BitVec 8) : Engine :=
  meOp e n [3] (fun e => scrubReady e n) fun e =>
    match missDue e n 0 with
    | some m => missAgain e n m fun e lost => scrubSlot e n m.loc (dramAt d e m.loc ^^^ m.err) lost
    | none =>
    if patrolReady e n then patrolAdvance (scrubRun d e n (patrolSlots e n) err miss) n
    else passOp d e n err miss

/-! ## Second reads (R265) -/

/-- What a second read found: the slot is written back corrected or poisoned, unless a write of it has come. -/
def rereadEnd (d : Dram) (e : Engine) (n : Nat) (r : Reread) (err : Slot) (lost : Bool) : Engine :=
  if (findWrite (getChan e n) r.loc).isSome then e
  else
    let (e, x) := meDecode e n r.origin r.loc (dramAt d e r.loc ^^^ err) lost
    match x.got, x.fixed with
    | .ue, _ => writeBack e n r.loc poisonSlot false
    | _, some f => writeBack e n r.loc f false
    | _, none => e

/-- UE_REREAD: a slot found uncorrectable is read once more, and written back corrected or poisoned. -/
def ueReread (d : Dram) (e : Engine) (n : Nat) (err : Slot) (miss : BitVec 8) : Engine :=
  meOp e n [3] (fun e => rereadReady e n) fun e =>
    let c := getChan e n
    match missDue e n 1 with
    | some m => missAgain e n m fun e lost => match m.use with
      | .reread r => rereadEnd d e n r m.err lost
      | _ => e
    | none =>
    match c.rereads with
    | [] => e
    | r :: rs =>
      let e := putChan e n { c with rereads := rs }
      if r.cancelled || (findWrite c r.loc).isSome then e
      else
        let (e, late) := meReads e n [r.loc] miss fun _ => (err, .reread r)
        if late.isEmpty then rereadEnd d e n r err false else e

/-! ## ECS and the windows (R260, R269) -/

/-- The ECS counts become due, ECS_POLL_H after the last reading, and at once after SRX. -/
def ecsDue (e : Engine) (n : Nat) : Engine :=
  let at0 := (getChan e n).ecsAt
  let e := if at0 = 0 then e else tickTo e (at0 + msUnits (3600000 * rd e (CH_SCRUB_CTRL_ECS_POLL_H n)))
  syncLines (putChan e n { getChan e n with ecsAt := e.clk.nominal, ecsWant := true }) n

/-- One MRR to a logical rank on each subchannel returns the counts of its devices, which step 1 of Steep has set to
automatic mode. -/
def ecsRank (n : Nat) (counts : BitVec 5120) (e : Engine) (r : Nat) : Engine :=
  let e := issueBoth (wakeRank e n (prankIx e r)) n .mrr ⟨n, 0, r, 0, 0, 0, 0⟩
  [0, 1].foldl (fun e s => (List.range 10).foldl (fun e v =>
    wr e (CH_ECC_DEV_ECS_ERR n r s v)
      (min 255 (counts.extractLsb' (16 * ((r * 2 + s) * 10 + v)) 16).toNat)) e) e

/-- ECS_POLL: the reading that ECS_POLL_H makes due is asked for, or goes on under MEn's grant: each device's ECS count, 16
bits by RANK, subchannel and device. -/
def ecsPoll (e : Engine) (n : Nat) (counts : BitVec 5120) : Engine :=
  if chanLive e n && on e (CH_SCRUB_CTRL_SCRUB_EN n) then
    if (getChan e n).ecsWant then
      meOp e n [3] (fun e => ecsReady e n) fun e =>
        let rs := (List.range (2 ^ (gcfg e).k)).filter fun r => rankServes e n (prankIx e r)
        let e := rs.foldl (ecsRank n counts) e
        putChan e n { getChan e n with ecsWant := false }
    else ecsDue e n
  else e

/-- ECC_WINDOW_RESTART: every WIN_MS each device's window count restarts. -/
def eccWindow (e : Engine) (n : Nat) : Engine :=
  if clocked e then
    let e := tickTo e ((getChan e n).winAt + msUnits (rd e (CH_ECC_CTRL_WIN_MS n)))
    putChan e n { getChan e n with win := [], winAt := e.clk.nominal }
  else e

/-! ## Repair (R271–R274) -/

/-- The `i`th slot of the repaired row. -/
def repairSlot (r : Repair) (i : Nat) : Loc := { r.loc with col := i }

/-- The channel's repair; its missed reads end with it. -/
def putRepair (e : Engine) (n : Nat) (r : Option Repair) : Engine :=
  let c := getChan e n
  putChan e n { c with repair := r, missed := if r.isNone then c.missed.filter (fun m => m.use.kind != 2) else c.missed }

def pprProgress (e : Engine) (n : Nat) (_r : Repair) (v : Nat) : Engine :=
  wr e (CH_PPR_STATE_SLOTS n) v

/-- The response words of PPR: the repaired address as its request names it. -/
def pprWords (r : Repair) : List Word :=
  let l := r.loc
  [word (l.ch + l.sc * 2 ^ 4 + bit r.hard * 2 ^ 5 + bit r.dev.isNone * 2 ^ 6 + r.dev.getD 0 * 2 ^ 8 +
     l.rank * 2 ^ 12 + l.bg * 2 ^ 16 + l.bank * 2 ^ 19), word l.row]

/-- A repair ends: the refusals lift, firmware records the repair, and the command completes (R272 step 6). -/
def endRepair (e : Engine) (n : Nat) (r : Repair) : Engine :=
  let e := wr (wr (putRepair e n none) (CH_PPR_STATE_BUSY n) 0) (CH_PPR_STATE_COMMITTED n) 0
  let w := nth (pprWords r)
  let e := mapMci e fun m => { m with repairs := m.repairs ++ [(w 0 0, w 1 0)] }
  finishOpt e r.ticket stOk 0 (pprWords r)

/-- A slot of the row as it was read, for the repair buffer: an uncorrectable one as poisoned. -/
def saveSlot (d : Dram) (e : Engine) (n : Nat) (l : Loc) (err : Slot) (lost : Bool) : Engine × Slot :=
  let (e, x) := meDecode e n 3 l (dramAt d e l ^^^ err) lost
  let t := match x.got with
    | .data v => encodeSlot v
    | _ => poisonSlot
  (demandBack e n l x false, t)

/-- Four slots of the row are read into the repair buffer; a slot whose burst had no preamble follows later (R224). -/
def saveFour (d : Dram) (e : Engine) (n : Nat) (r : Repair) (err : BitVec 2560) (miss : BitVec 8) : Engine :=
  let k := r.saved.length
  let ls := (List.range 4).map fun i => repairSlot r (k + i)
  let (e, late) := meReads e n ls miss fun i => (errAt err i, .save (k + i))
  let (e, got) := ls.zipIdx.foldl (fun (a : Engine × List Slot) p =>
    if late.contains p.1 then (a.1, a.2 ++ [poisonSlot])
    else
      let x := saveSlot d a.1 n p.1 (errAt err p.2) false
      (x.1, a.2 ++ [x.2])) (e, [])
  let r := { r with saved := r.saved ++ got }
  progressOpt (pprProgress (putRepair e n (some r)) n r r.saved.length) r.ticket r.saved.length

/-- Two slots of the buffer are written back, except those that a write-out has superseded (R273). Their row stays open:
with TWR and the PRE the operation would pass the 64 CTL cycles of R178. -/
def restoreTwo (d : Dram) (e : Engine) (n : Nat) (r : Repair) : Engine :=
  let is := [r.restored, r.restored + 1].filter fun i => !r.superseded.contains i
  let e := match is with
    | [] => e
    | _ =>
      let e := (meOpen (wakeRank e n (prankIx e r.loc.rank)) n r.loc).1
      is.foldl (fun e i =>
        let l := repairSlot r i
        issueWr e n l (nth r.saved i poisonSlot) (dramAt d e l)) e
  let r := { r with restored := r.restored + 2 }
  pprProgress (putRepair e n (some r)) n r r.restored

/-- The last operation of a repair: its row is closed, as MEn leaves every bank (R143), and the repair ends. -/
def closeRepair (e : Engine) (n : Nat) (r : Repair) : Engine :=
  let e := if (bankAt (getChan e n) r.loc).row = some r.loc.row
    then issueAt (wakeRank e n (prankIx e r.loc.rank)) n r.loc.sc .pre r.loc else e
  endRepair e n r

/-- The declared point: the first MRW of the entry sequence. -/
def enterRepair (e : Engine) (n : Nat) (r : Repair) : Engine :=
  let i := prankIx e r.loc.rank
  let e := issueAt (closeRank (wakeRank e n i) n i) n r.loc.sc .mrw r.loc
  let e := putRepair e n (some { r with phase := 2 })
  declareOpt (wr e (CH_PPR_STATE_COMMITTED n) 1) r.ticket

/-- The time that the devices program a repair for. -/
def programTime (hard : Bool) : Nat :=
  nsUnit * if hard then Config.programNs true else min 2000 (Config.programNs false)

/-- R272 step 4: behind the first MRW the four MRWs of the guard key, the ACT and WR of the row that start the program
time, and after it the PRE and the MRW that leave repair mode (PRESUMED: the sequence of JESD79-5). -/
def programStep (e : Engine) (n : Nat) (r : Repair) : Engine :=
  let sc := r.loc.sc
  let e := wakeRank e n (prankIx e r.loc.rank)
  match r.prog with
  | none =>
    if r.keys < 4 then putRepair (issueAt e n sc .mrw r.loc) n (some { r with keys := r.keys + 1 })
    else
      let e := issueAt (issueAt e n sc .act r.loc) n sc .wr r.loc
      putRepair e n (some { r with prog := some (e.clk.nominal + programTime r.hard) })
  | some _ =>
    let e := issueAt (issueAt e n sc .pre r.loc) n sc .mrw r.loc
    if r.hard then endRepair e n r else putRepair e n (some { r with phase := 3 })

/-- The next operation of a repair: a refresh, the close, save, entry, program and exit, restore, close. -/
def repairStep (d : Dram) (e : Engine) (n : Nat) (r : Repair) (err : BitVec 2560) (miss : BitVec 8) : Engine :=
  let i := prankIx e r.loc.rank
  match r.phase with
  | 0 =>
    let e := wakeRank e n i
    if on e (CH_REF_CTRL_REF_EN n) && owes e n i then (if modeDiffers e n i then writeMode e n i else refreshCmd e n i)
    else
    let e := if (bankAt (getChan e n) r.loc).row.isSome then issueAt e n r.loc.sc .pre r.loc else e
    putRepair e n (some { r with phase := 1 })
  | 1 =>
    match missDue e n 2 with
    | some m => missAgain e n m fun e lost => match m.use, (getChan e n).repair with
      | .save i, some r =>
        let x := saveSlot d e n m.loc m.err lost
        putRepair x.1 n (some { r with saved := setNth r.saved i x.2 })
      | _, _ => e
    | none => if r.hard || decide (r.saved.length ≥ 128) then enterRepair e n r else saveFour d e n r err miss
  | 2 => programStep e n r
  | _ => if r.restored ≥ 128 then closeRepair e n r else restoreTwo d e n r

/-- PPR_REPAIR_STEP. -/
def pprStep (d : Dram) (e : Engine) (n : Nat) (err : BitVec 2560) (miss : BitVec 8) : Engine :=
  meOp e n [4] (fun e => repairReady e n) fun e =>
    match (getChan e n).repair with
    | some r => syncLines (repairStep d e n r err miss) n
    | none => e

/-! ## The sparing copy (R112, R276–R278) -/

/-- The ticket of SPARE. -/
def spareTicket (e : Engine) : Option Nat := (e.mci.tickets.find? fun t => t.op == 0x0201).map (·.id)

/-- R276: the copy is complete. -/
def spareDone (e : Engine) : Engine :=
  let e := sqSet e GC_SPARE_STATUS [(GC_SPARE_STATUS_DONE, 1)]
  finishOpt (writeDrops e) (spareTicket e) stOk 0 [reg e GC_SPARE_STATUS]

/-- R22, R112, R394: requests at the QoS stage whose line has moved to another channel go to the queues of that channel, in
the order in which they left the directory stage. -/
def rehome (e : Engine) : Engine :=
  (e.txns.filter fun t => t.stage == .qos && t.ch != targetCh e t.req.la).foldl (fun e t =>
    let ch := targetCh e t.req.la
    let later := ((e.txns.dropWhile fun u => u.id != t.id).drop 1).map (·.id)
    let move := fun (q : Tbl (List Nat)) (a b : Nat) =>
      let q := tput [] q a ((tget [] q a).filter (· != t.id))
      tput [] q b (insertBefore later t.id (tget [] q b))
    let q := e.qos
    let e := putTxn e { t with ch := ch }
    if isClass3 t.req.op then
      { e with qos := { q with hold := move q.hold (16 * t.req.qc + t.ch) (16 * t.req.qc + ch) } }
    else { e with qos := { q with writes := move q.writes t.ch ch } }) e

/-- PTR advances, and the held reads of the line wait at the packer for the target (R112): each goes on in its original
order, behind the earlier writes of its line. -/
def sparePtr (e : Engine) (p : Nat) : Engine :=
  let e := rehome (wr (wr e GC_SPARE_PTR_LO_PTR (p % 2 ^ 32)) GC_SPARE_PTR_HI_PTR (p / 2 ^ 32))
  let hold := e.pack.hold
  let e := mapPack e fun k => { k with hold := [], waits := hold ++ k.waits }
  pumpMeta (retryWaits e)

/-- R277: a slot that the copy has read, as it writes it. -/
def copyRead (d : Dram) (e : Engine) (n : Nat) (l : Loc) (err : Slot) (lost : Bool) : Engine × Slot :=
  let (e, x) := meDecode e n 3 l (dramAt d e l ^^^ err) lost
  let e := demandBack e n l x false
  match x.got with
  | .data v => (e, encodeSlot v)
  | .poison => (e, poisonSlot)
  | .ue => (sqSet e GC_SPARE_STATUS [(GC_SPARE_STATUS_POISONED, 1)], poisonSlot)

/-- R277: the slot that the copy writes: the queued write of the line where there is one; none where the burst of its read
has no preamble. -/
def copySlot (d : Dram) (e : Engine) (n : Nat) (l : Loc) (err : Slot) (miss : BitVec 8) : Engine × Option Slot :=
  match findWrite (getChan e n) l with
  | some w => (e, some w.slot)
  | none =>
    let (e, late) := meReads e n [l] miss fun _ => (err, .copy)
    if late.isEmpty then
      let x := copyRead d e n l err false
      (x.1, some x.2)
    else (e, none)

/-- R276: a line has been copied: the next one follows 64 B at RATE GB/s later. -/
def copyPaced (e : Engine) (n : Nat) : Engine :=
  let c := getChan e n
  putChan e n { c with copyAt := max c.copyAt e.clk.nominal + 64 * nsUnit / max 1 (rd e GC_SPARE_RATE_RATE) }

/-- R277: the line at PTR goes to the target's write queue, and PTR passes it. -/
def copyWrite (d : Dram) (e : Engine) (n : Nat) (v : Slot) : Engine :=
  let s := spareCfg e
  let g := gcfg e
  let t := spareTarget g s s.ptr
  let la := gristInv g (unitLoc g s s.ptr)
  let packed := isMetaLa e la == false && scBits (metaNow d e (scLa e la) 1 0) la == 3
  let e := endCapWait (putChan e t.ch (pushWrite e (getChan e t.ch) none none packed la t v e.clk.tb)) none
  let e := sparePtr (copyPaced e n) (s.ptr + 1)
  let e := progressOpt e (spareTicket e) (s.ptr + 1)
  if s.ptr + 1 ≥ unitLines g s then spareDone e else e

/-- One line of the copy, or the line whose read is issued again. -/
def copyLine (d : Dram) (e : Engine) (n : Nat) (err : Slot) (miss : BitVec 8) : Engine :=
  match missDue e n 3 with
  | some m => missAgain e n m fun e lost =>
    let x := copyRead d e n m.loc m.err lost
    copyWrite d x.1 n x.2
  | none =>
    match copySlot d e n (unitLoc (gcfg e) (spareCfg e) (spareCfg e).ptr) err miss with
    | (e, some v) => copyWrite d e n v
    | (e, none) => e

/-! ## Power of the channels (R65, R474) -/

/-- A register of a channel lies in PD_PHYn. -/
def inPhy (a : Nat) : Bool :=
  let o := a % 0x10000
  (decide (0x600 ≤ o) && decide (o < 0x800)) || (decide (0x1000 ≤ o) && decide (o < 0x8000))

/-- A channel's registers of a domain that has lost its supply stand at reset. -/
def dropRegs (e : Engine) (n : Nat) (phy : Bool) : Engine :=
  { e with regs := e.regs.filter fun p => !(p.1 / 0x10000 == 0x10 + n && inPhy p.1 == phy) }

/-- PD_CTLn or PD_PHYn goes off: what it holds is lost. -/
def chanOff (old : Word) (e : Engine) (n : Nat) : Engine :=
  let v := reg e PWR_CH_PWR
  let c := getChan e n
  let e := if old.getLsbD n && !v.getLsbD n then
      putChan (dropRegs e n false) n { chanReset with train := c.train, i3c := c.i3c, rcd := c.rcd, spdProt := c.spdProt }
    else e
  if old.getLsbD (n + 16) && !v.getLsbD (n + 16) then
    let e := dropRegs e n true
    let e := { e with chans := tput chanReset e.chans n { getChan e n with train := trainReset, i3c := i3cReset } }
    driveReset e n false
  else e

/-- PWR_CH_PWR takes new enables: the domains that it turns off lose what they hold (R65, R452, R474). -/
def setChPower (e : Engine) (w : Word) : Engine :=
  (List.range 16).foldl (chanOff (reg e PWR_CH_PWR)) (setReg e PWR_CH_PWR w)

/-- R278: firmware takes a spared channel out of service once its queues are empty. -/
def dropChannel (e : Engine) (n : Nat) : Engine :=
  let e := wr e (CH_SCHED_CTRL_SCHED_EN n) 0
  let e := judgeAll (wr e (CH_REF_CTRL_REF_EN n) 0) n
  let e := wr e (CH_RG_CTRL_RG_EN n) 0
  let e := wr e (CH_TRN_CTRL_TRN_EN n) 0
  let e := wr e (CH_SCRUB_CTRL_SCRUB_EN n) 0
  let e := driveReset e n false
  let off := 2 ^ n + (if n % 2 = 0 then 0 else 2 ^ (n + 16))
  let e := setChPower e (reg e PWR_CH_PWR &&& ~~~ (BitVec.ofNat 32 off))
  setService e (reg e QOS_SERVICE &&& ~~~ (BitVec.ofNat 32 (2 ^ n)))

/-- SPARE_COPY_LINE: line PTR is copied into the target unit, or its write waits at the target's intake (R142). -/
def spareCopy (d : Dram) (e : Engine) (err : Slot) (miss : BitVec 8) : Engine :=
  let s := spareCfg e
  let g := gcfg e
  let n := s.failCh
  let l' := spareTarget g s s.ptr
  if copyDue e n && !copyRoom e l' then capWait e l'.ch l'.sc none
  else if copyRuns e n then
    meOp e n [4] (fun e => copyReady e n) fun e => copyLine d e n err miss
  else
    let c := getChan e n
    if s.active && !s.rankScope && !isSafe e && on e (CH_SCHED_CTRL_SCHED_EN n) && c.rq.isEmpty &&
        c.wq.isEmpty && c.replay.isEmpty && c.repair.isNone && decide (unitLines g s ≤ s.ptr) then dropChannel e n
    else e

end Sys2Proof.Machine
end

