-- ==== Sys2Proof/Machine/Train.lean ====
section
/-! DEFINITION. TSn and the sideband (R222–R238, R243–R251): probe and service copies, centering, runs and
their units, Steep, triggers, write drift, the gate-miss window and the I3C controllers. -/

namespace Sys2Proof.Machine

/-! ## Lanes (R223, R228, R250) -/

/-- The service register of a lane. -/
def laneReg (n p s j : Nat) : Nat := CH_LANE_DQ n p s j

def laneKey (p s j : Nat) : Nat := (p * 2 + s) * 128 + j

/-- A lane in the probe copy, as the service copy has it where the step has not measured it. -/
def probeLane (e : Engine) (n p s j : Nat) : Word :=
  (tlookup (getChan e n).train.probe (laneKey p s j)).getD (reg e (laneReg n p s j))

def setProbe (e : Engine) (n p s j : Nat) (w : Word) : Engine :=
  mapTrain e n fun t => { t with probe := tinsert (laneKey p s j) w t.probe }

/-- The bits of a lane that a step measures (R225, R250); an online run moves only the host taps (R230). -/
def stepMask (step mode j : Nat) : Word :=
  match step with
  | 2 => if j = 68 then 0xFF0007FF else 0
  | 3 => if 60 ≤ j ∧ j ≤ 67 then 0xFF0007FF else 0
  | 5 => if 40 ≤ j ∧ j < 50 then 0xFFE00000 else 0
  | 7 => if 40 ≤ j ∧ j < 50 then 0x001FFC00 else 0
  | 9 => if 50 ≤ j ∧ j < 60 then (if mode = 1 then 0x0000FF00 else 0x0000FFFF) else 0
  | 10 => if j < 40 then 0xFFFF0000 else 0
  | _ => 0

/-- The bits of a lane that a step commits: what it measures, with the delays, margins and Vref codes of the centering
steps (R223, R228). -/
def commitMask (step mode j : Nat) : Word :=
  match step with
  | 6 => if j < 40 then 0xFF00FF00 else if 50 ≤ j ∧ j < 60 then 0x7F000000 else 0
  | 8 => if j < 40 then 0x00FF00FF else if 50 ≤ j ∧ j < 60 then 0x007F0000 else 0
  | _ => stepMask step mode j

/-- The result of a step for one lane, in the probe copy. -/
def takeLane (n step mode p : Nat) (e : Engine) (v : LaneVal) : Engine :=
  if v.prank.val = p then
    let m := stepMask step mode v.lane
    if m = 0 then e
    else setProbe e n p v.sc v.lane ((probeLane e n p v.sc v.lane &&& ~~~m) ||| (v.value &&& m))
  else e

/-- A lane's passing range and its width. -/
abbrev Range := Fin 256 × Fin 256

def rangePass (r : Range) : Bool := decide (r.1 ≤ r.2)
def rangeWidth (r : Range) : Nat := r.2.val - r.1.val

/-- The narrowest passing range at a Vref code; none where a lane does not pass. -/
def codeWidth (rs : List Range) : Option Nat :=
  if rs.all rangePass then (rs.map rangeWidth).min? else none

/-- R228: the widest narrowest range; on a tie the code nearest the middle of the passing codes, then the
lower one. -/
def chooseCode (codes : List (Fin 128 × List Range)) : Option (Fin 128 × List Range) :=
  let ok := codes.filter fun c => (codeWidth c.2).isSome
  let vs := ok.map fun c => c.1.val
  let mid := (vs.min?.getD 0) + (vs.max?.getD 0)
  let far := fun (v : Nat) => (2 * v - mid) + (mid - 2 * v)
  let better := fun (a b : Fin 128 × List Range) =>
    let wa := (codeWidth a.2).getD 0
    let wb := (codeWidth b.2).getD 0
    decide (wa > wb) || (wa == wb && (decide (far a.1.val < far b.1.val) ||
      (far a.1.val == far b.1.val && decide (a.1 < b.1))))
  ok.foldl (fun (o : Option (Fin 128 × List Range)) c => match o with
    | none => some c
    | some b => if better c b then some c else some b) none

/-- R228: the results of a centering step for one strobe: delays, margins and the Vref code. A strobe without a passing code
is a failure of its first lane. A midpoint between two steps is rounded down, and a margin is the last less the first
passing step (DESIGN CHOICE: neither is stated). -/
def takeSweep (n step p : Nat) (a : Engine × Option LaneFail) (w : Sweep) : Engine × Option LaneFail :=
  if w.prank.val = p ∧ (step = 6 ∨ step = 8) then
    match chooseCode w.codes with
    | none =>
      (a.1, a.2.orElse fun _ => some ⟨w.prank, w.sc, ⟨4 * w.strobe.val, by have := w.strobe.isLt; omega⟩⟩)
    | some (code, rs) =>
      let s := w.sc.val
      let e := (List.range 4).foldl (fun e k =>
        let j := 4 * w.strobe.val + k
        let r := nth rs k (0, 0)
        let mid := (r.1.val + r.2.val) / 2
        let old := probeLane e n p s j
        let new := if step = 6
          then setWordField (setWordField old 31 24 (rangeWidth r)) 15 8 mid
          else setWordField (setWordField old 23 16 (rangeWidth r)) 7 0 mid
        setProbe e n p s j new) a.1
      let j := 50 + w.strobe.val
      let old := probeLane e n p s j
      (setProbe e n p s j
        (if step = 6 then setWordField old 30 24 code.val else setWordField old 22 16 code.val), a.2)
  else a

/-- An eye width of the lanes that a step has measured lies below MARGIN_MIN; step 10 checks every eye width,
that of CA and CS among them. -/
def lowMargin (e : Engine) (n step p : Nat) : Option LaneFail :=
  let min := rd e (CH_TRN_CFG_MARGIN_MIN n)
  let low := fun (w : Word) => match step with
    | 6 => decide (wordField w 31 24 < min)
    | 8 => decide (wordField w 23 16 < min)
    | 10 => decide (wordField w 31 24 < min) || decide (wordField w 23 16 < min)
    | _ => false
  let find := fun (s : Fin 2) => (List.finRange 69).find? fun (j : Fin 69) =>
    let w := probeLane e n p s.val j.val
    if j.val < 40 then
      (step == 10 || (tlookup (getChan e n).train.probe (laneKey p s.val j.val)).isSome) && low w
    else decide (60 ≤ j.val) && step == 10 && decide (wordField w 31 24 < min)
  match find 0, find 1 with
  | some j, _ => some ⟨Fin.ofNat 4 p, 0, j⟩
  | none, some j => some ⟨Fin.ofNat 4 p, 1, j⟩
  | none, none => none

/-- R223: time passes until no burst is on a DQ bus of the channel. -/
def dqIdle (e : Engine) (n : Nat) : Engine :=
  let t := (getChan e n).subs.foldl (fun m s => (s.log.filter fun d => isRdKind d.kind || isWrKind d.kind).foldl
    (fun m d => max m (d.t + casLat d.tim d.kind + 8)) m) 0
  toPhy e (t + 3)

/-- R234: the shifts that wait for a commit of a physical rank move WR_DLY of their lanes. -/
def commitShift (e : Engine) (n p : Nat) : Engine :=
  let mine := (getChan e n).train.shift.filter fun kv => kv.1 / 256 == p
  let e := mine.foldl (fun e kv => wr e (CH_LANE_DQ_WR_DLY n p (kv.1 / 128 % 2) (kv.1 % 128)) kv.2) e
  mapTrain e n fun t => { t with shift := t.shift.filter fun kv => kv.1 / 256 != p }

/-- R223: the step's results for a physical rank, and no other bits of its lanes, enter the service copy while the DQ buses
are idle; step 8 records WR_DLY as it committed it. -/
def commitStep (e : Engine) (n step p : Nat) : Engine :=
  let e := dqIdle e n
  let t := (getChan e n).train
  let mine := t.probe.filter fun kv => kv.1 / 256 == p
  let mode := rd e (CH_TRN_STATE_RUN_MODE n)
  let e := mine.foldl (fun e kv =>
    let a := laneReg n p (kv.1 / 128 % 2) (kv.1 % 128)
    let m := commitMask step mode (kv.1 % 128)
    setReg e a ((reg e a &&& ~~~m) ||| (kv.2 &&& m))) e
  let e := commitShift e n p
  mapTrain e n fun t => { t with
    probe := t.probe.filter fun kv => kv.1 / 256 != p,
    trained := if step = 8 then
        (mine.filter fun kv => decide (kv.1 % 128 < 40)).foldl (fun a kv => tinsert kv.1 (kv.2.toNat % 256) a) t.trained
      else t.trained }

/-! ## The oscillator (R234) -/

def devKey (p s d : Nat) : Nat := (p * 2 + s) * 10 + d

/-- The count of a device in a reading of all of them, 10 bits each. -/
def oscOf (counts : BitVec 800) (p s d : Nat) : Nat := counts.toNat / 2 ^ (10 * devKey p s d) % 1024

/-- Every subchannel and device of a physical rank. -/
def rankDevs : List (Nat × Nat) := [0, 1].flatMap fun s => (List.range 10).map fun d => (s, d)

/-- R234: a quotient rounded to the nearest step, halves upward. -/
def roundStep (x : Rat) : Int := (x + 1 / 2).floor

/-- R234: the drift of a device, in steps. A count of zero gives none. -/
def driftOf (base now : Nat) : Int :=
  if base = 0 ∨ now = 0 then 0 else roundStep ((65536 : Rat) / now - (65536 : Rat) / base)

/-- R234: one device: its shift is taken over when it reaches DRIFT_TH, for the next commit, and large shifts set
WR_DRIFT. -/
def driftDev (n p : Nat) (counts : BitVec 800) (e : Engine) (x : Nat × Nat) : Engine :=
  let (s, d) := x
  let k := devKey p s d
  let drift := driftOf (rd e (CH_LANE_DQS_OSC_BASE n p s d)) (oscOf counts p s d)
  let t := (getChan e n).train
  let acc := tget 0 t.acc k
  let move := decide ((drift - acc).natAbs ≥ rd e (CH_TRN_CFG_DRIFT_TH n))
  let acc := if move then drift else acc
  let e := mapTrain e n fun t => { t with acc := tput 0 t.acc k acc }
  let e := wr e (CH_PHY_OSC_LAST_MAX n) (max (rd e (CH_PHY_OSC_LAST_MAX n)) (min 255 drift.natAbs))
  let lanes := (List.range 4).map fun i => 4 * d + i
  let want := fun j => ((tget 0 t.trained (laneKey p s j) : Nat) : Int) + acc
  let e := if move then
      mapTrain e n fun t => { t with shift := lanes.foldl (fun a j => tinsert (laneKey p s j) (min 255 (want j).toNat) a) t.shift }
    else e
  let bad := (move && lanes.any fun j => decide (want j < 0) || decide (want j > 255)) ||
    lanes.any fun j => decide (2 * acc.natAbs > rd e (CH_LANE_DQ_WR_MARGIN n p s j))
  if bad then sqSet e (CH_TRN_STATUS n) [(CH_TRN_STATUS_WR_DRIFT n, 1)] else e

/-- ACC_MAX follows the accumulated shifts. -/
def accMax (e : Engine) (n : Nat) : Engine :=
  wr e (CH_PHY_OSC_ACC_MAX n)
    ((getChan e n).train.acc.foldl (fun m kv => max m (min 255 kv.2.natAbs)) 0)

/-- Step 10 records the oscillator baseline of a physical rank; the accumulated shifts start from it. -/
def setOscBase (e : Engine) (n p : Nat) (counts : BitVec 800) : Engine :=
  rankDevs.foldl (fun e x =>
    let e := wr e (CH_LANE_DQS_OSC_BASE n p x.1 x.2) (oscOf counts p x.1 x.2)
    mapTrain e n fun t => { t with acc := tput 0 t.acc (devKey p x.1 x.2) 0 }) e |> fun e => accMax e n

/-- R234: the counts of one physical rank have been read. `first` says that a new measurement begins with it. -/
def driftRank (e : Engine) (n p : Nat) (first : Bool) (counts : BitVec 800) : Engine :=
  let e := if first then wr e (CH_PHY_OSC_LAST_MAX n) 0 else e
  accMax (rankDevs.foldl (driftDev n p counts) e) n

/-! ## Saved lines (R236, R237) -/

/-- R237: the saved training lines of a channel go back to DRAM with the service copy under TSn's grant, in recovery, and
their rows close. -/
def restoreLines (e : Engine) (n : Nat) : Engine :=
  match (getChan e n).train.save with
  | [] => e
  | save =>
    let e := save.foldl (fun e (x : Loc × Slot) => blockWrite e n .ts x.1 x.2 (Config.trainPattern (locKey x.1))) e
    let e := save.foldl (fun e (x : Loc × Slot) => closeRow e n x.1) e
    mapTrain e n fun t => { t with save := [] }

/-! ## Triggers (R233) -/

/-- R233: a change of temperature since the last completed run. -/
def tempTrigger (e : Engine) (n : Nat) : Engine :=
  let t := (getChan e n).train.temp
  let now := chanTemp e n
  if on e (CH_TRN_CTRL_TRN_EN n) && decide ((t - now) + (now - t) ≥ rd e (CH_TRN_CTRL_TEMP_DELTA n))
  then trigger e n onlineSteps else e

/-- TEMP_POLL: the poll that POLL_MS makes due begins, or goes on with the reads of MR4 under MEn's grant (R201). -/
def tempPoll (e : Engine) (n temps mr4 : Nat) : Engine :=
  if chanLive e n then
    if (getChan e n).mrrWant then readMr4 e n mr4 else startPoll e n temps
  else e

/-- The reading of hub `h` of a bus, slot `h % 2` of channel 2k + h / 2, reaches the MEn of its channel (R246). -/
def hubIbi (k : Nat) (e : Engine) (x : Nat × Nat) : Engine :=
  let n := 2 * k + x.1 / 2
  if chanLive e n then tempTrigger (tempIbi e n (x.1 % 2) x.2) n else e

/-- TEMP_IBI: an in-band interrupt is delivered at once where no transaction waits or runs on its bus, else between two
transactions (R245). -/
def tempIbiBus (e : Engine) (k h temp : Nat) : Engine :=
  let c := getChan e (2 * k)
  if c.i3c.queue.isEmpty then hubIbi k e (h, temp)
  else putChan e (2 * k) { c with i3c := { c.i3c with ibis := c.i3c.ibis ++ [(h, temp)] } }

/-- RETRAIN_PERIOD: PERIOD after the end of the last completed run (R233). -/
def retrainPeriod (e : Engine) (n : Nat) : Engine :=
  if chanLive e n && on e (CH_TRN_CTRL_TRN_EN n) && !isSafe e then
    let e := tickTo e ((getChan e n).train.ended + msUnits (10 * rd e (CH_TRN_CTRL_PERIOD n)))
    trigger e n onlineSteps
  else e

/-! ## Units (R231, R236) -/

/-- What a unit of step 8 does for its logical rank: saves a column, writes or reads a probe column, restores a
column, or closes the row (R236). -/
inductive LineUnit where
  | save (col : Nat) | write (col : Nat) | read (col : Nat) | restore (col : Nat) | close
  deriving DecidableEq, Repr

/-- The work of unit `u` of a logical rank in step 8. -/
def lineUnit (e : Engine) (u : Nat) : LineUnit :=
  let per := probeUnits e
  if u < 16 then .save u
  else if u < 16 + per then (if u % 2 = 0 then .write ((u - 16) / 2 % 16) else .read ((u - 16) / 2 % 16))
  else if u < 32 + per then .restore (u - 16 - per)
  else .close

/-- The logical rank of unit `u` of step 8, and the unit's place in it. -/
def unitRank (e : Engine) (p u : Nat) : Nat × Nat := (p * 2 ^ cidBits e + u / lineUnits e, u % lineUnits e)

/-- R229: a training line of a logical rank. -/
def trainLine (n rank s col : Nat) : Loc := ⟨n, s, rank, 0, 0, 0, col⟩

/-- Both subchannels in turn. -/
def onBoth (f : Engine → Nat → Engine) (e : Engine) : Engine := f (f e 0) 1

/-- A line of the save buffer. -/
def keepLine (e : Engine) (n : Nat) (l : Loc) (s : Slot) : Engine :=
  mapTrain e n fun t => { t with save := t.save.filter (fun y => y.1 != l) ++ [(l, s)] }

/-- A RD of TSn to an open row, kept raw where it is to be saved. Whether its burst has a preamble is a free value; one
that has none waits to be issued again (R224). -/
def lineRead (d : Dram) (n : Nat) (keep : Bool) (e : Engine) (l : Loc) : Engine :=
  let e := issueAt e n l.sc .rd l
  let k := Config.burstMiss e.free
  let e := drawFree e
  if k = 1 ∨ k = 2 then
    park e n [(l, e.clk.cyc)] (if k = 1 then 1 else 0x11) fun _ => (0, .line keep)
  else if keep then keepLine e n l (dramAt d e l) else e

/-- A read of TSn is issued again; a training line that has no preamble twice is saved as poisoned (DESIGN CHOICE: R224 calls
it uncorrectable, and what a raw save then holds is not stated). -/
def lineAgain (d : Dram) (e : Engine) (n : Nat) (m : Missed) : Engine :=
  missAgain e n m fun e lost =>
    if m.use = .line true then keepLine e n m.loc (if lost then poisonSlot else dramAt d e m.loc) else e

/-- The commands of a unit of step 8, with the row of the training lines open. -/
def lineCmds (d : Dram) (e : Engine) (n rank : Nat) : LineUnit → Engine
  | .close => onBoth (fun e s =>
      let l := trainLine n rank s 0
      if (bankAt (getChan e n) l).row.isSome then issueAt e n s .pre l else e) (mapTrain e n fun t => { t with save := [] })
  | u =>
    let e := onBoth (fun e s => (meOpen e n (trainLine n rank s 0)).1) e
    match u with
    | .save col => onBoth (fun e s => lineRead d n true e (trainLine n rank s col)) e
    | .write col => onBoth (fun e s =>
        let l := trainLine n rank s col
        issueWr e n l (Config.trainPattern (locKey l)) (dramAt d e l)) e
    | .read col => onBoth (fun e s => lineRead d n false e (trainLine n rank s col)) e
    | .restore col => onBoth (fun e s =>
        let l := trainLine n rank s col
        match (getChan e n).train.save.find? fun x => x.1 == l with
        | some x => issueWr e n l x.2 (dramAt d e l)
        | none => e) e
    | .close => e

/-- A burst for a lane check: a RD of an open row of the rank, else an MRR of mode register 31 (R230). -/
def checkRead (d : Dram) (n p : Nat) (e : Engine) (s : Nat) : Engine :=
  match (rankBanks e n s p).find? fun l => (bankAt (getChan e n) l).row.isSome with
  | some l => lineRead d n false e { l with row := (bankAt (getChan e n) l).row.getD 0 }
  | none => issueAt e n s .mrr (rankLoc e n p 0)

/-- The commands of unit `u` of a step for a physical rank: the training lines in step 8; in step 10 the margin checks,
then the start of the oscillators and the read of their counts; nothing for the host taps of an online run; else MRR of
mode register 31 (R230). -/
def unitCmds (d : Dram) (e : Engine) (n mode step p u : Nat) : Engine :=
  match step with
  | 8 => let r := unitRank e p u
         lineCmds d e n r.1 (lineUnit e r.2)
  | 9 => if mode = 1 then e else issueBoth e n .mrr (rankLoc e n p 0)
  | 10 =>
    if u < 8 then onBoth (checkRead d n p) e
    else if u = 8 then issueBoth e n .mpc (rankLoc e n p 0)
    else issueBoth e n .mrr (rankLoc e n p 0)
  | _ => issueBoth e n .mrr (rankLoc e n p 0)

/-- The first command of a unit, on its first subchannel. -/
def unitFirst (e : Engine) (n mode step p u : Nat) : Option (DKind × Loc) :=
  match step with
  | 8 =>
    let r := unitRank e p u
    let l := trainLine n r.1 0 0
    let row := (bankAt (getChan e n) l).row
    match lineUnit e r.2 with
    | .close => if row.isSome then some (.pre, l) else none
    | x =>
      if row.isNone then some (.act, l) else if row != some 0 then some (.pre, l)
      else match x with
        | .write _ | .restore _ => some (.wr, l)
        | _ => some (.rd, l)
  | 9 => if mode = 1 then none else some (.mrr, rankLoc e n p 0)
  | 10 => some (if u = 8 then .mpc else .mrr, rankLoc e n p 0)
  | _ => some (.mrr, rankLoc e n p 0)

/-- The PHY cycle in which the first command of a unit is legal. -/
def firstSlot (e : Engine) (n : Nat) (x : Option (DKind × Loc)) : Nat :=
  match x with
  | some x => earliest (cidBits e) (getSub (getChan e n) x.2.sc).log (mkCmd e n x.1 x.2 0) (nowPhy e)
  | none => nowPhy e

/-- Time passes to the CTL cycle in which the unit can begin: its first command is legal, and the oscillators that it
reads have run for 2,048 tCK. -/
def toUnit (e : Engine) (n mode step p u : Nat) : Engine :=
  let t := firstSlot e n (unitFirst e n mode step p u)
  toPhy e (if step = 10 ∧ u = 9 then max t (oscStart e n p + 2048) else t)

/-- The saved lines that the next unit takes back: those of one column of a logical rank, where the run stops or a step has
still to begin (R236). -/
def backLines (e : Engine) (n : Nat) : List (Loc × Slot) :=
  let t := (getChan e n).train
  match t.save with
  | [] => []
  | x :: _ => if t.stop.isSome || t.units == 0 then t.save.filter fun y => y.1.rank == x.1.rank && y.1.col == x.1.col else []

/-- The training lines whose row a unit needs open. -/
def unitLocs (e : Engine) (n step p u : Nat) : List Loc :=
  match backLines e n with
  | [] =>
    let r := unitRank e p u
    if step = 8 ∧ lineUnit e r.2 ≠ .close then [0, 1].map fun s => trainLine n r.1 s 0 else []
  | xs => xs.map (·.1)

/-- The open banks of the training lines of a channel: before an offline run that stops gives the channel up, its rows close
(R168). -/
def trainOpen (e : Engine) (n : Nat) : List Loc :=
  if rd e (CH_TRN_STATE_RUN_MODE n) = 2 then
    (((List.range (2 ^ (gcfg e).k)).flatMap fun r => [trainLine n r 0 0, trainLine n r 1 0]).filter fun l =>
      (bankAt (getChan e n) l).row.isSome)
  else []

/-- What goes before a unit, as a unit of its own that does not count: the rank leaves power-down (R464), a read is issued
again (R224), banks close, or saved lines go back. -/
inductive Prep where
  | wake (i : Nat) | again (m : Missed) | close (ls : List Loc) | back (xs : List (Loc × Slot))
  deriving DecidableEq, Repr

/-- The unit that goes before a unit of a run, where one does. -/
def unitPrep (e : Engine) (n step p u : Nat) : Option Prep :=
  let c := getChan e n
  let xs := backLines e n
  let stop := c.train.stop.isSome
  let i := match xs with
    | x :: _ => prankIx e x.1.rank
    | [] => p
  let stray := (unitLocs e n step p u).filter fun l => (bankAt c l).row.any (· != l.row)
  if (getPRank c i).pd then some (.wake i)
  else match missDue e n 4 with
    | some m => some (.again m)
    | none =>
      if !stray.isEmpty then some (.close stray)
      else if !xs.isEmpty then some (.back xs)
      else if stop && !(trainOpen e n).isEmpty then some (.close ((trainOpen e n).take 2)) else none

/-- The first command of such a unit. -/
def prepFirst (e : Engine) (n : Nat) : Prep → DKind × Loc
  | .wake i => (.pdx, rankLoc e n i 0)
  | .again m => (nextKind (getChan e n) m.loc .rd, m.loc)
  | .close ls => (.pre, ls.headD (rankLoc e n 0 0))
  | .back xs =>
    let l := (xs.map (·.1)).headD (rankLoc e n 0 0)
    (nextKind (getChan e n) l .wr, l)

/-- Such a unit. -/
def prepRun (d : Dram) (e : Engine) (n : Nat) : Prep → Engine
  | .wake i => wakeRank e n i
  | .again m => lineAgain d e n m
  | .close ls => ls.foldl (fun e l => closeRow e n l) e
  | .back xs =>
    let e := xs.foldl (fun e x => (meOpen e n x.1).1) e
    let e := xs.foldl (fun e x => issueWr e n x.1 x.2 (dramAt d e x.1)) e
    mapTrain e n fun t => { t with save := t.save.filter fun y => !xs.contains y }

/-- A unit of a physical rank cannot begin: an ACT that it needs is refused (R157, R209, R213, R214), a repair keeps the
rank (R272), or a read that is to be issued again waits for PAR_WIN (R224). -/
def unitRefused (e : Engine) (n step p u : Nat) : Bool :=
  let c := getChan e n
  c.repair.any (fun x => x.phase == 2 && prankIx e x.loc.rank == p) ||
    (missAny e n 4 && (missDue e n 4).isNone) ||
    (unitLocs e n step p u).any fun l => (bankAt c l).row != some l.row && actRefused e n .ts c l (nowPhy e)

/-- A unit that begins now ends within the slice (R231). -/
def unitFits (e : Engine) (n : Nat) : Bool :=
  match (getChan e n).train.slice with
  | none => false
  | some t => decide ((tick e 32).clk.nominal ≤ t + nsUnit * rd e (CH_TRN_CFG_SLICE_NS n))

/-- A step has completed for a physical rank: commit, the low-margin rerun, and the next step. Answers
whether the run goes on. -/
def stepDone (e : Engine) (n step p : Nat) (fail : Option LaneFail) (counts : BitVec 800) : Engine × Bool :=
  let mode := rd e (CH_TRN_STATE_RUN_MODE n)
  let low := if fail.isSome then none else lowMargin e n step p
  let e := if low.isSome then sqSet e (CH_TRN_STATUS n) [(CH_TRN_STATUS_MARGIN_LOW n, 1)] else e
  let e := match fail with
    | some f => mapTrain e n fun t => { t with
        failed := t.failed ++ [(step, f)], probe := [] }
    | none => commitStep e n step p
  let e := if step = 10 ∧ fail.isNone then
      (if (getChan e n).train.steps / 2 ^ 8 % 2 = 1 ∧ mode = 2 then setOscBase e n p counts
       else if mode = 1 then commitShift (driftRank e n p ((runRanks (getChan e n).train.pranks).head? == some p) counts) n p
       else e)
    else e
  if low.isSome ∧ mode = 1 ∧ (getChan e n).train.rerun = false then
    (mapTrain e n fun t => { t with units := 0, rerun := true }, true)
  else
    match nextPos e n (some (step, p)) with
    | some x => (atPos e n x, true)
    | none => (e, false)

/-- One unit under the grant. -/
def runUnit (d : Dram) (e : Engine) (n : Nat) (sweeps : List Sweep) (vals : List LaneVal)
    (fail : Option LaneFail) (counts : BitVec 800) : Engine × Bool :=
  let step := rd e (CH_TRN_STATE_STEP n)
  let p := rd e (CH_TRN_STATE_PRANK n)
  let mode := rd e (CH_TRN_STATE_RUN_MODE n)
  let start := e.clk.cyc
  let u := (getChan e n).train.units
  let e := unitCmds d e n mode step p u
  let e := tick e (start + 32 - e.clk.cyc)
  let e := vals.foldl (takeLane n step mode p) e
  let (e, f) := sweeps.foldl (takeSweep n step p) (e, fail)
  let e := mapTrain e n fun t => { t with units := t.units + 1 }
  let e := mapArb e n fun a => { a with wd := e.clk.nominal }
  let e := match (getChan e n).train.ticket with
    | some i => addProgress e i 1
    | none => e
  let f := f.filter fun g => g.prank.val == p
  if f.isSome ∨ (getChan e n).train.units ≥ stepUnits e mode step then stepDone e n step p f counts
  else (e, true)

/-- The count of completed units is saved at a preemption (R177). -/
def saveProg (e : Engine) (n : Nat) : Engine :=
  if (getChan e n).arb.pend.isSome then wr e (CH_ARB_PROGRESS_TS_PROG n) (getChan e n).train.units else e

/-- After a unit: a release under preemption, which ends no slice, or the end of the slice (R231, R177). The slice ends
too where the oscillators of step 10 run. -/
def afterUnit (e : Engine) (n : Nat) : Engine :=
  let osc := decide (rd e (CH_TRN_STATE_STEP n) = 10) && decide ((getChan e n).train.units = 9)
  if (getChan e n).arb.pend.isSome then tsRelease (saveProg e n) n
  else if unitFits e n && !osc then e else sliceEnd e n

/-- TSn lets the channel go before its next unit: with preemption pending as a preemption, else as the end of the slice
(R177, R231). -/
def endSlice (e : Engine) (n : Nat) : Engine :=
  if (getChan e n).arb.pend.isSome then tsRelease (saveProg e n) n else sliceEnd (saveProg e n) n

/-- TIMEOUT and FAIL of a run that takes too long, with the location of its first failure (R227, R236, R249). -/
def timeoutFlags (e : Engine) (n : Nat) : List (Fld × Nat) :=
  let f := (getChan e n).train.failed.head?
  (CH_TRN_STATUS_TIMEOUT n, 1) :: failFlags e n (f.elim (rd e (CH_TRN_STATE_STEP n)) (·.1)) (f.map (·.2))

/-- The run ends as it was to end, once its lines are back (R236). -/
def endStop (e : Engine) (n : Nat) (how : TrnEnd) : Engine :=
  if (getChan e n).train.save.isEmpty ∧ (how = .completed ∨ (trainOpen e n).isEmpty) then
    match how with
    | .completed => endRun e n
    | .stopped => closeRun e n []
    | .aborted => startPending (closeRun e n []) n
    | .timeout => startPending (closeRun e n (timeoutFlags e n)) n
  else syncLines (mapTrain e n fun t => { t with stop := some how }) n

/-- After a unit that does not count: the end of a run that waits for it, or what follows any unit. -/
def afterPrep (e : Engine) (n : Nat) : Engine :=
  match (getChan e n).train.stop with
  | some how =>
    let x := endStop e n how
    if on x (CH_TRN_STATE_BUSY n) && holder x n == 3 then afterUnit x n else x
  | none => afterUnit e n

/-- TRAINING_UNIT. -/
def trainingUnit (d : Dram) (e : Engine) (n : Nat) (sweeps : List Sweep) (vals : List LaneVal)
    (fail : Option LaneFail) (counts : BitVec 800) : Engine :=
  let mode := rd e (CH_TRN_STATE_RUN_MODE n)
  let p := rd e (CH_TRN_STATE_PRANK n)
  if chanLive e n && on e (CH_TRN_STATE_BUSY n) && mode != 0 &&
      holder e n == 3 && !isSafe e && rankFree e n p then
    let step := rd e (CH_TRN_STATE_STEP n)
    let u := (getChan e n).train.units
    let e := toGrant e n
    match unitPrep e n step p u with
    | some x =>
      let e := toPhy e (firstSlot e n (some (prepFirst e n x)))
      if unitFits e n && !unitRefused e n step p u then
        let start := e.clk.cyc
        let e := prepRun d e n x
        let e := tick e (start + 32 - e.clk.cyc)
        afterPrep (mapArb e n fun a => { a with wd := e.clk.nominal }) n
      else endSlice e n
    | none =>
      let e := toUnit e n mode step p u
      if unitFits e n && !unitRefused e n step p u then
        let (e, more) := runUnit d e n sweeps vals fail counts
        if more then afterUnit e n else endStop e n .completed
      else endSlice e n
  else e

/-! ## Drift tracking (R234) -/

/-- TSn has done a unit of a drift measurement. A preemption that is pending takes the channel (R178), and so do others
while oscillators run (R234); else a slice of a run goes on as long as units fit. -/
def driftDone (e : Engine) (n : Nat) (x : Option (Nat × Option Nat)) : Engine :=
  let e := mapTrain e n fun t => { t with track := x }
  if on e (CH_TRN_STATE_BUSY n) then
    let osc := x.any fun y => y.2.isSome
    if (getChan e n).arb.pend.isSome then endSlice e n
    else if osc || !unitFits e n then sliceEnd e n else syncLines e n
  else tsRelease (mapTrain e n fun t => { t with slice := none }) n

/-- One unit of a drift measurement under TSn's grant: it starts the oscillators of a physical rank, or reads their
counts 2,048 tCK later and commits the shifts (DEDUCED: the measurement's own end is the next commit). -/
def driftUnit (e : Engine) (n p : Nat) (started : Option Nat) (counts : BitVec 800) : Engine :=
  let e := wakeRank (toGrant e n) n p
  match started with
  | none =>
    let e := issueBoth e n .mpc (rankLoc e n p 0)
    driftDone e n (some (p, some (oscStart e n p)))
  | some _ =>
    let e := issueBoth e n .mrr (rankLoc e n p 0)
    let e := commitShift (dqIdle (driftRank e n p (p == 0) counts) n) n p
    driftDone e n (if p + 1 < pranks e then some (p + 1, none) else none)

/-- DRIFT_MEASURE: every TRK_MS while TRN_EN is 1 a measurement becomes due, and goes on by one unit whenever TSn holds
the channel; the counts are read once the oscillators have run for 2,048 tCK. -/
def driftMeasure (e : Engine) (n : Nat) (counts : BitVec 800) : Engine :=
  if chanLive e n && on e (CH_TRN_CTRL_TRN_EN n) && !isSafe e then
    match (getChan e n).train.track with
    | none =>
      let e := tickTo e ((getChan e n).train.drift + msUnits (rd e (CH_TRN_CTRL_TRK_MS n)))
      syncLines (mapTrain e n fun t => { t with drift := e.clk.nominal, track := some (0, none) }) n
    | some (p, started) =>
      if holder e n = 3 ∧ steepRuns e n = false ∧ rankFree e n p ∧
          (getChan e n).repair.all (fun x => x.phase != 2 || prankIx e x.loc.rank != p) ∧
          started.all (fun t => decide (t + 2048 ≤ nowPhy (toGrant e n))) then
        (if on e (CH_TRN_STATE_BUSY n) && !unitFits (toGrant e n) n then endSlice (toGrant e n) n
         else driftUnit e n p started counts)
      else e
  else e

/-- SLICE_GAP_EXPIRY: TSn raises its line again. -/
def sliceGap (e : Engine) (n : Nat) : Engine :=
  if clocked e && on e (CH_TRN_STATE_BUSY n) && !isSafe e then
    syncLines (tickTo e (getChan e n).train.gapUntil) n
  else e

/-- A run stops at a unit boundary without a commit, as a power entry or an abort asks (R244, R513), behind its saved
lines; so does a drift measurement. -/
def stopRun (e : Engine) (n : Nat) (how : TrnEnd) : Engine :=
  let e := mapTrain e n fun t => { t with track := none }
  if on e (CH_TRN_STATE_BUSY n) && (getChan e n).train.stop.isNone then
    endStop (mapTrain e n fun t => { t with probe := [] }) n how
  else e

/-- R28, R237, R611: the safe state stops a run; recovery reruns the incomplete step. The saved lines stay in the buffer,
and the grant is revoked with TSn's (R185). -/
def safeStopRun (e : Engine) (n : Nat) : Engine :=
  let e := mapTrain e n fun t => { t with track := none }
  if on e (CH_TRN_STATE_BUSY n) then
    let x := (rd e (CH_TRN_STATE_STEP n), rd e (CH_TRN_STATE_PRANK n))
    let t := (getChan e n).train
    let e := wr e (CH_TRN_STATE_BUSY n) 0
    let e := mapTrain e n fun t => { t with
      slice := none, units := 0, probe := [], ticket := none, stop := none, redo := if t.stop.isNone then some x else none }
    let e := putChan e n { getChan e n with missed := (getChan e n).missed.filter fun m => m.use.kind != 4 }
    finishOpt e t.ticket stAborted (rd e (CH_TRN_STATE_SLICES n)) [reg e (CH_TRN_STATUS n)]
  else e

/-! ## Steps outside a run (R28, R243, R611) -/

/-- Units of the run's position, unsliced, at most `k` of them: to the end of its steps, or of the step and physical rank
`one`. What a unit finds is a free value. A unit whose ACT stays refused (a capped bank, an alert), ends them there. -/
def freeUnits (d : Dram) (n : Nat) (one : Option (Nat × Nat)) : Nat → Engine → Engine
  | 0, e => e
  | k + 1, e =>
    let step := rd e (CH_TRN_STATE_STEP n)
    let p := rd e (CH_TRN_STATE_PRANK n)
    let f := e.free
    let u := (getChan e n).train.units
    let e := (unitLocs (drawFree e) n step p u).foldl (fun e l =>
      if (bankAt (getChan e n) l).row = some l.row then e else liftRefusal n .ts l 256 e) e
    match (getChan e n).missed.find? fun m => m.use.kind == 4 with
    | some m => freeUnits d n one k (lineAgain d (tick e (m.cyc + rd e (CH_TRN_CFG_PAR_WIN n) - e.clk.cyc)) n m)
    | none =>
      if unitRefused e n step p u || !rankFree e n p then e
      else match unitPrep e n step p u with
        | some x => freeUnits d n one k (prepRun d e n x)
        | none =>
          let e := toUnit e n (rd e (CH_TRN_STATE_RUN_MODE n)) step p u
          let r := runUnit d e n (Config.unitSweeps f) (Config.unitLanes f) (Config.unitFail f) (Config.unitCounts f)
          let here := (rd r.1 (CH_TRN_STATE_STEP n), rd r.1 (CH_TRN_STATE_PRANK n))
          if r.2 && (one.isNone || one == some here) then freeUnits d n one k r.1 else r.1

/-- No lines: the online steps read none. -/
def noDram : Dram := ⟨[], []⟩

/-- R243: the online steps on every physical rank, unsliced, as a run of its own (R466): it sets DONE and is the base of
the triggers. -/
def onlineRun (e : Engine) (n : Nat) : Engine :=
  let e := seize e n 3
  let e := setReg e (CH_TRN_STATE n) (setFields (reg e (CH_TRN_STATE n))
    [(CH_TRN_STATE_BUSY n, 1), (CH_TRN_STATE_RUN_MODE n, 1), (CH_TRN_STATE_SLICES n, 0)])
  let e := mapTrain e n fun t => { t with
    steps := onlineSteps, pranks := 2 ^ pranks e - 1, slice := none, began := e.clk.nominal, failed := [], stop := none
    retries := [], ticket := none, redo := none, offline := false }
  let e := match nextPos e n none with
    | some x => freeUnits noDram n none (320 * pranks e) (atPos e n x)
    | none => e
  closeRun (runEnds e n) n [(CH_TRN_STATUS_DONE n, 1)]

/-- R28, R611: the incomplete step of a run that the safe state has stopped runs again for its physical rank. -/
def redoStep (d : Dram) (e : Engine) (n : Nat) : Engine :=
  match (getChan e n).train.redo with
  | none => e
  | some x =>
    let e := atPos (mapTrain (seize e n 3) n fun t => { t with redo := none, failed := [] }) n x
    let e := freeUnits d n (some x) (4 * stepUnits e (rd e (CH_TRN_STATE_RUN_MODE n)) x.1) e
    let e := restoreLines e n
    tsRelease (mapTrain e n fun t => { t with units := 0, probe := [], slice := none }) n

/-- OFFLINE_TIMEOUT: 10 ms after its start an offline run stops, after the restore (R236). -/
def offlineTimeout (e : Engine) (n : Nat) : Engine :=
  if clocked e && on e (CH_TRN_STATE_BUSY n) && rd e (CH_TRN_STATE_RUN_MODE n) == 2 && !isSafe e &&
      (getChan e n).train.stop.isNone then
    let e := tickTo e ((getChan e n).train.began + msUnits 10)
    endStop (mapTrain e n fun t => { t with probe := [] }) n .timeout
  else e

/-! ## Starting a run by register (R225, R230, R233, R235, R248) -/

/-- The checks of a GO: the write is refused when it answers false. -/
def goAllowed (e : Engine) (n mode steps : Nat) : Bool :=
  let en := fun f => on e f
  !on e (CH_TRN_STATE_BUSY n) && match mode with
    | 0 => !en (CH_SCHED_CTRL_SCHED_EN n) && !en (CH_REF_CTRL_REF_EN n) && !en (CH_RG_CTRL_RG_EN n)
    | 1 => steps &&& onlineSteps == steps
    | 2 => !en (CH_SCHED_CTRL_SCHED_EN n) && en (CH_REF_CTRL_REF_EN n) && en (CH_RG_CTRL_RG_EN n)
    | _ => false

/-! ## Steep (R225–R229) -/

/-- Steep stops on its channel; a pending trigger's run follows (R233). -/
def steepStop (e : Engine) (n : Nat) (flags : List (Fld × Nat)) : Engine :=
  startPending (closeRun e n flags) n

/-- Step 1: the devices leave reset in normal operation; their RCDs check parity in blocking mode (R239), the mode
registers are written, which sets automatic error check and scrub (R269), and ZQ is calibrated. The banks stand as after reset, with empty Row Guard
tables, N and RAA 0 (DESIGN CHOICE: R208 names the end of an epoch and the resets, and the devices here come out of reset). -/
def steepInit (e : Engine) (n : Nat) : Engine :=
  let e := driveReset e n true
  let c := getChan e n
  let e := putChan e n { c with
    banks := [], rcd := c.rcd.map fun r => { r with blocking := true }
    pranks := c.pranks.map fun (p : PRank) =>
      { p with mode := 0, pd := false, sr := false, deferred := none, ecsAuto := true } }
  let all := fun (k : DKind) (e : Engine) => (List.range (pranks e)).foldl (fun e i => issueBoth e n k (rankLoc e n i 0)) e
  let e := all .zqlat (all .zqcal (all .mrw e))
  restartTicks (tick e (rd e (CH_TIM8_TZQLAT n))) n

/-- Step 3: PAR_WIN follows the alert latency, and the RCDs' parity alert is shorter than half of PW_MIN × 4 CTL cycles
(R225); its width is a free value below that. -/
def steepAlert (e : Engine) (n l : Nat) : Engine :=
  let e := wr e (CH_TRN_CFG_PAR_WIN n) (min 255 (l + 16))
  let w := Config.choice e.free % max 1 (2 * rd e (CH_RG_ABO_PW_MIN n))
  let c := getChan e n
  putChan (drawFree e) n { c with rcd := c.rcd.map fun r => { r with pulse := w } }

/-- The results of a completed Steep step for a physical rank. -/
def steepRank (n step : Nat) (counts : BitVec 800) (e : Engine) (p : Nat) : Engine :=
  let e := commitStep e n step p
  if step = 10 then setOscBase e n p counts else e

/-- The training lines of a logical rank are written and read back in step 8 of Steep, and their row closes. -/
def steepLines (d : Dram) (n : Nat) (e : Engine) (rank : Nat) : Engine :=
  let e := onBoth (fun e s => (meOpen e n (trainLine n rank s 0)).1) e
  let e := (List.range 16).foldl (fun e col => onBoth (fun e s =>
    let l := trainLine n rank s col
    issueWr e n l (Config.trainPattern (locKey l)) (dramAt d e l)) e) e
  let e := (List.range 16).foldl (fun e col => onBoth (fun e s => issueAt e n s .rd (trainLine n rank s col)) e) e
  onBoth (fun e s => closeRow e n (trainLine n rank s 0)) e

/-- The commands of an attempt of a Steep step on a physical rank, once each: the step's mode is entered and left by MRW, its
patterns are read by MRR, and its oscillators started by MPC (R225; DESIGN CHOICE: how often a sweep repeats them is not
stated). Step 1 has its own. -/
def steepCmds (d : Dram) (n step : Nat) (e : Engine) (p : Nat) : Engine :=
  let l := rankLoc e n p 0
  let both := fun (e : Engine) (ks : List DKind) => ks.foldl (fun e k => issueBoth e n k l) e
  match step with
  | 2 | 3 | 4 | 7 => both e [.mrw, .mrw]
  | 5 => both e [.mrw, .mrr, .mrw]
  | 6 => both e [.mrr]
  | 8 => (List.range (2 ^ cidBits e)).foldl (fun e c => steepLines d n e (p * 2 ^ cidBits e + c)) e
  | 9 => both e [.mrr, .mrw]
  | 10 =>
    let e := both e [.mrr, .mpc]
    both (toPhy e (oscStart e n p + 2048)) [.mrr]
  | _ => e

/-- What an attempt of the current step has measured on the ranks `ps`, in the probe copy, and its first failure. -/
def steepMeasured (e : Engine) (n step : Nat) (ps : List Nat) (sweeps : List Sweep) (vals : List LaneVal)
    (fail : Option LaneFail) : Engine × Option LaneFail :=
  let e := mapArb e n fun a => { a with wd := e.clk.nominal }
  let e := mapTrain e n fun t => { t with probe := [] }
  let e := ps.foldl (fun e p => vals.foldl (takeLane n step 0 p) e) e
  let (e, f) := ps.foldl (fun a p => sweeps.foldl (takeSweep n step p) a) (e, fail)
  (e, ps.foldl (fun (o : Option LaneFail) p => o.orElse fun _ => lowMargin e n step p) f)

/-- A failed attempt: a retry of its physical rank, at most two, or the end of Steep (R227). -/
def steepFailed (e : Engine) (n step : Nat) (g : LaneFail) : Engine :=
  let t := (getChan e n).train
  let k := tget 0 t.retries g.prank.val
  if k ≥ 2 then steepStop (trainFail e n step (some g)) n []
  else mapTrain e n fun t => { t with probe := [], retries := tput 0 t.retries g.prank.val (k + 1) }

/-- A completed step: its results are committed and the next step follows, or Steep ends. -/
def steepPassed (e : Engine) (n step : Nat) (ps : List Nat) (counts : BitVec 800) (spd : Word) (l : Nat) : Engine :=
  let e := if step = 0 then
      putChan (setReg e (CH_PHY_SPD n) (spd &&& 0xFF80FFFF)) n { getChan e n with spdProt := [true, true] }
    else e
  if step = 0 ∧ rd e (CH_PHY_SPD_TYPE n) = 3 then
    steepStop (trainFail (sqSet e (CH_TRN_STATUS n) [(CH_TRN_STATUS_UNSUP_MOD n, 1)]) n 0 none) n []
  else
    let e := if step = 1 then steepInit e n else e
    let e := if step = 3 then steepAlert e n l else e
    let e := ps.foldl (steepRank n step counts) e
    match nextPos e n (some (step, ps.getLast?.getD 0)) with
    | some x => mapTrain (atPos e n x) n fun t => { t with retries := [] }
    | none => endRun e n

/-- A read of an SPD hub that step 0 needs waits on the sideband (R225, R245). -/
def spdWaits (e : Engine) (n : Nat) : Bool :=
  (getChan e (n / 2 * 2)).i3c.queue.any fun q => q.kind == .spd && q.who == n % 2

/-- STEEP_STEP_COMPLETE: while TSn holds the channel, an attempt of the current step on every selected rank: it completes, is retried, or
stops Steep (R227). `spd` is what step 0 read and `l` the alert latency of step 3. -/
def steepStep (d : Dram) (e : Engine) (n : Nat) (sweeps : List Sweep) (vals : List LaneVal)
    (fail : Option LaneFail) (counts : BitVec 800) (spd : Word) (l : Nat) : Engine :=
  if clocked e && steepRuns e n && holder e n == 3 && !(rd e (CH_TRN_STATE_STEP n) == 0 && spdWaits e n) then
    let step := rd e (CH_TRN_STATE_STEP n)
    let ps := runRanks (getChan e n).train.pranks
    let e := ps.foldl (steepCmds d n step) (toGrant e n)
    let (e, f) := steepMeasured e n step ps sweeps vals fail
    match f with
    | some g => steepFailed e n step g
    | none => steepPassed e n step ps counts spd l
  else e

/-- STEEP_TIMEOUT: 1 s after its start. -/
def steepTimeout (e : Engine) (n : Nat) : Engine :=
  if clocked e && on e (CH_TRN_STATE_BUSY n) && rd e (CH_TRN_STATE_RUN_MODE n) == 0 then
    let e := tickTo e ((getChan e n).train.began + msUnits 1000)
    steepStop e n ((CH_TRN_STATUS_TIMEOUT n, 1) :: failFlags e n (rd e (CH_TRN_STATE_STEP n)) none)
  else e

/-! ## Gate misses (R224) -/

/-- The oldest burst without a preamble of a subchannel. -/
def oldestMiss (c : Chan) (sc : Nat) : Option RqEntry :=
  (c.rq.filter fun (r : RqEntry) => r.loc.sc == sc && r.miss).foldl
    (fun (o : Option RqEntry) r => match o with
      | none => some r
      | some q => if r.issued.getD 0 < q.issued.getD 0 then some r else some q) none

/-- The second miss of a queued read. Its record in the error log names codeword 0 (DESIGN CHOICE: no codeword was read). -/
def secondMiss (e : Engine) (n : Nat) (r : RqEntry) : Engine :=
  let c := getChan e n
  let e := putChan e n { c with rq := c.rq.filter fun (q : RqEntry) => q.seq != r.seq }
  let origin := originOf r.uses
  let e := countUe (missTwice e n) n origin 1 15 0 r.loc (isMetaLa e r.la)
  let e := if origin = 0 then
      let c := getChan e n
      putChan e n { c with rereads := c.rereads ++ [⟨r.loc, 2, e.clk.nominal, r.newer⟩] }
    else e
  let e := r.uses.foldl (fun e u => deliver e u r.la .ue) e
  spargeLook (pumpMeta e) n

/-- PAR_WIN_EXPIRY: the oldest burst without a preamble of a subchannel whose window has passed without an
alert of its slot: a first miss is reissued, a second one is uncorrectable. -/
def parWinExpiry (e : Engine) (n sc : Nat) : Engine :=
  match oldestMiss (getChan e n) sc with
  | none => e
  | some r =>
    let e := toPhy e (r.issued.getD 0 + 4 * rd e (CH_TRN_CFG_PAR_WIN n))
    if (alertOf e (getChan e n) r.loc.rank).isSome then e
    else syncLines (if r.again then secondMiss e n r else gateMiss e n r) n

/-! ## Sideband (R245, R246, R251) -/

/-- The requester that is served next: round robin after the one served last. -/
def i3cNext (x : I3c) : Option I3cReq :=
  let who := (List.range 5).map fun i => (x.last + 1 + i) % 5
  who.findSome? fun r => x.queue.find? fun q => q.who == r

/-- The bytes that firmware's transaction moves, LEN + 1 of them; LEN 4 to 7 move four, and bytes beyond those that moved read
as 0 (DESIGN CHOICE: R251 gives LEN 0 to 3, and says nothing of the rest of CH_I3C_DATA). -/
def i3cData (e : Engine) (m : Nat) (data : Word) : Word :=
  let k := rd e (CH_I3C_CMD_LEN (m / 2)) + 1
  if k ≥ 4 then data else data &&& BitVec.ofNat 32 (2 ^ (8 * k) - 1)

/-- R246: firmware's write addresses a protected block of its hub's SPD memory. Which addresses of a hub are such blocks
is a free value. -/
def spdShut (e : Engine) (b : Nat) : Bool :=
  let h := rd e (CH_I3C_CMD_HUB b)
  !on e (CH_I3C_CMD_RNW b) && nth (getChan e (2 * b + h / 2)).spdProt (h % 2) false &&
    Config.spdBlock (rd e (CH_I3C_CMD_HUB_ADDR b))

/-- The end of firmware's transaction. -/
def i3cHost (e : Engine) (b : Nat) (ack : Bool) (data : Word) : Engine :=
  let e := if ack && on e (CH_I3C_CMD_RNW b) && clocked e
    then setReg e (CH_I3C_DATA b) (i3cData e (2 * b) data) else e
  let a := CH_I3C_CMD b
  setReg e a (setFields (reg e a)
    [(CH_I3C_CMD_BUSY b, 0), (CH_I3C_CMD_DONE b, 1), (CH_I3C_CMD_ERR b, bit (!ack))])

/-- What a transaction that has ended does for its requester. -/
def i3cServed (e : Engine) (b : Nat) (q : I3cReq) (ack bad : Bool) (data : Word) : Engine :=
  let n := 2 * b + (q.who - 2)
  match q.kind with
  | .host => i3cHost e b (ack && !spdShut e b) data
  | .log =>
    if ack && bad then
      let i := (slotRanks e q.slot).headD 0
      let e := sqSet e (CH_MNT_STATUS n) [(CH_MNT_STATUS_ALERT_UNID n, 1), (CH_MNT_STATUS_PRANK n, i)]
      meFault e n i (CH_MNT_STATUS_ALERT_UNID n)
    else e
  | .temp => if ack && chanLive e n then tempTrigger (hubRead e n q.slot q.value) n else e
  | .spd => e

/-- I3C_TRANSACTION on bus `b`: the next requester's transaction ends, and one pending in-band interrupt is served, or
all of them once nothing waits. `ack` is false where the hub does not acknowledge; `bad` says that an error log that MEn
reads contradicts the alert's width (R214). -/
def i3cTransaction (e : Engine) (b : Nat) (ack bad : Bool) (data : Word) : Engine :=
  let m := 2 * b
  let c := getChan e m
  match i3cNext c.i3c with
  | none => e
  | some q =>
    let left := c.i3c.queue.erase q
    let (now, later) := if left.isEmpty then (c.i3c.ibis, []) else (c.i3c.ibis.take 1, c.i3c.ibis.drop 1)
    let e := putChan e m { c with i3c := { queue := left, last := q.who, ibis := later } }
    now.foldl (hubIbi b) (i3cServed e b q ack bad data)

end Sys2Proof.Machine
end

