-- ==== Sys2Proof/Machine/Meta.lean ====
section
/-! DEFINITION. Metadata returns and losses, the rebuilds of size-class slots and counter lines (R290, R305,
R331–R337), writes of recovery that meet queues at rest, and placement pushes (R381, R382). -/

namespace Sys2Proof.Machine

/-! ## Direct writes -/

/-- A slot that recovery writes: MEn writes it, beside the scheduler that is at rest, and closes its row; where its rank does
not serve, the write waits in the write queue. A queued write of the slot is dropped, and a metadata read of the slot on its
way returns what was written. -/
def directWrite (d : Dram) (e : Engine) (la : Nat) (s : Slot) : Engine :=
  let l := lineLoc e la
  let e := metaRewritten e la s
  let c := getChan e l.ch
  let e := if c.wq.isEmpty && c.replay.isEmpty && c.rereads.isEmpty && c.rq.isEmpty then e
    else putChan e l.ch { c with
      wq := c.wq.filter (fun (w : WqEntry) => !sameSlot w.loc l),
      replay := c.replay.filter (fun (w : WqEntry) => !sameSlot w.loc l),
      rereads := c.rereads.map (fun (r : Reread) => if sameSlot r.loc l then { r with cancelled := true } else r),
      rq := c.rq.map (fun (r : RqEntry) => if r.issued.isSome ∧ sameSlot r.loc l then { r with newer := true } else r) }
  if chanLive e l.ch && rankServes e l.ch (prankIx e l.rank) then
    holding e l.ch 2 fun e => closeRow (blockWrite e l.ch .me l s (dramAt d e l)) l.ch l
  else putChan e l.ch (pushWrite e (getChan e l.ch) none none false la l s e.clk.tb)

/-- A line that the Cask holds takes new contents there. -/
def caskUpdate (e : Engine) (la kind level : Nat) (x : Line) : Engine :=
  if (caskFind e la).isSome then caskPut e la kind level x else e

/-- A metadata line rewritten directly, in the Cask too where that holds it. -/
def directMeta (d : Dram) (e : Engine) (la kind level pv : Nat) (x : Line) : Engine :=
  directWrite d (caskUpdate e la kind level x) la (encodeSlot (sealMeta e la kind pv x))

/-- The same through the write queue. -/
def queueMeta (e : Engine) (la kind level pv : Nat) (x : Line) : Engine :=
  let s := encodeSlot (sealMeta e la kind pv x)
  queueSlot (metaRewritten (caskUpdate e la kind level x) la s) la s e.clk.tb

/-- R141, R142: what keeps a metadata line out of its channel's write queue: no free entry or a write that waits at
intake, or BANK_MAX. -/
def metaFit (e : Engine) (la : Nat) : Fit := fitsQueues e (queueSlot e la 0 e.clk.tb) none

/-! ## Counter lines without the Cask -/

/-- A counter line as it stands, decrypted down from the root over at most `k` levels (R331). -/
def nodeNow (d : Dram) (e : Engine) : Nat → Nat → Nat → Line
  | 0, _, _ => 0
  | k + 1, l, n =>
    let la := nodeLa e l n
    match caskData e la with
    | some x => x
    | none =>
      let pv := if l = topLevel e then rootOf e n % 2 ^ 63 else verOf (nodeNow d e k (l + 1) (n / 64)) (n % 64)
      metaNow d e la 3 pv

/-- The parent version of a node, wherever its parent stands. -/
def parentNow (d : Dram) (e : Engine) (l n : Nat) : Nat :=
  if l = topLevel e then rootOf e n % 2 ^ 63 else verOf (nodeNow d e 7 (l + 1) (n / 64)) (n % 64)

/-- What firmware writes to a slot on its own enters its queue: it waits while Grist holds the line or the queue is full, and
at intake where BANK_MAX says so (R112, R142). -/
def whenFits (e : Engine) (la : Nat) (f : Engine → Engine) : Engine :=
  let fit := metaFit e la
  if fit.full.isSome || lineHeld e la then e
  else match fit.cap with
    | some p => capWait e p.1 p.2 none
    | none => f (endCapWait e none)

/-- The version under which a line is verified. -/
def versionNow (d : Dram) (e : Engine) (r : Region) (la : Nat) : Nat :=
  if r.mode = 3 then verOf (nodeNow d e 7 1 (freshIx r la / 64)) (freshIx r la % 64) else 0

/-- R331: a slot verified and decrypted with the metadata as it stands. -/
def openNow (d : Dram) (e : Engine) (r : Region) (la : Nat) (g : Got) : Opened :=
  match g with
  | .poison | .ue => .poison
  | .data c =>
    if r.mode < 2 then .line (openData e r.mode r.ctx la c)
    else if pathLost e r la then .poison
    else
      let j := macIx r la
      let m := macAt (metaNow d e (macLa e j) 2 0) (j % 9)
      if m = 0 then .poison
      else if m = macOf (keysOf e r.ctx) la r.ctx (r.mode == 3) (versionNow d e r la) c
      then .line (openData e r.mode r.ctx la c) else .bad

/-! ## Losses (R332–R334) -/

/-- R333: a lost MAC line is rewritten with zero MACs, as soon as its write queue takes it; none before. -/
def loseMac (e : Engine) (la : Nat) : Option Engine :=
  if metaFit e la = ⟨none, none⟩ ∧ lineHeld e la = false then
    some (endCapWait (putMeta (lossFlag e CRY_STATUS_MAC_LOST) la 2 0 0 0) none)
  else none

/-- R305: a size-class slot is to be rebuilt. -/
def loseSc (e : Engine) (ix : Nat) : Engine :=
  mapPack e fun p => if p.rebuilds.contains ix then p else { p with rebuilds := p.rebuilds ++ [ix] }

/-- The kind of a metadata slot by its line address: 1 size-class, 2 MAC, 3 counter. -/
def metaKind (e : Engine) (la : Nat) : Nat :=
  if la < macArea e then 1 else if la < ctrArea e then 2 else 3

/-- A metadata slot is lost (R332); none where its rewrite must wait. -/
def loseMeta (e : Engine) (la : Nat) : Option Engine :=
  match metaKind e la with
  | 1 => some (loseSc e (la - dataTop (gcfg e)))
  | 2 => loseMac e la
  | _ => some (loseCtr e la)

/-! ## METADATA_READ_RETURN (R331, R336, R337) -/

/-- A returned metadata slot; none where its parent must be read first, or its rewrite waits for the write queue. -/
def metaTake (e : Engine) (la : Nat) (g : Got) : Option Engine :=
  match g with
  | .poison | .ue => loseMeta e la
  | .data c =>
    match metaKind e la with
    | 1 =>
      let x := openMeta e la 1 0 c
      some (bitsArrived (caskPut e la 1 0 x) la x)
    | 2 =>
      let x := openMeta e la 2 0 c
      if checkByte x = 0 then some (caskPut e la 2 0 x) else loseMac e la
    | _ =>
      match nodeOf e la with
      | none => some e
      | some p =>
        match parentVer e p.1 p.2 with
        | none => none
        | some pv =>
          let e := if p.1 = topLevel e then e else caskTouch e (nodeLa e (p.1 + 1) (p.2 / 64))
          let x := openMeta e la 3 pv c
          if checkByte x = 0 then some (caskPut e la 3 p.1 x)
          else some (loseCtr (ctrCheckFail e la) la)

/-- The parent line of a counter line. -/
def parentLa (e : Engine) (la : Nat) : Option Nat :=
  (nodeOf e la).map fun p => nodeLa e (p.1 + 1) (p.2 / 64)

/-- What a returned slot waits for: a counter line for its parent's read, a MAC line for its write queue (R142). -/
def metaBlocked (e : Engine) (la : Nat) : Engine :=
  match parentLa e la with
  | some p => requestMeta e p
  | none => match (metaFit e la).cap with
    | some p => capWait e p.1 p.2 none
    | none => e

/-- The first returned metadata slot that can be taken. -/
def metaReturns (e : Engine) : List Ret → Engine
  | [] => e
  | r :: rs =>
    match metaTake (takeRet e r) r.la r.got with
    | some e => retryWaits (pumpMeta e)
    | none => metaReturns (metaBlocked e r.la) rs

def metadataReturn (e : Engine) : Engine :=
  metaReturns e (e.pack.rets.filter fun r => r.use == .metaRead)

/-! ## SIZE_CLASS_REBUILD (R305) -/

/-- What slot 2k opened to gives its pair's bits: whether the pair fell in the poisoned row. Nothing while metadata is
missing. -/
def rebuiltBits : Opened → Option (Nat × Bool)
  | .wait _ => none
  | .poison | .bad => some (3, true)
  | .line y => some (if (unpackPair y).isSome then 3 else 0, false)

/-- The region of a line in the current table. -/
def regionNow (e : Engine) (la : Nat) : Region := (regionOf e (curVer e) la).getD unassigned

/-- A size-class slot has been rebuilt: what waits for it goes on. -/
def rebuilt (e : Engine) (ix : Nat) (x : Line) (bad : Bool) : Engine :=
  let e := mapPack e fun p => { p with rebuilds := p.rebuilds.filter (· != ix), rebuild := none }
  let fl := (GC_PACK_STATUS_REBUILD, 1) :: (if bad then [(GC_PACK_STATUS_REBUILD_POISON, 1)] else [])
  let e := inc (wr (sqSet e GC_PACK_STATUS fl) GC_PACK_LAST_SC_SLOT ix) GC_CNT_PK_REBUILD
  retryWaits (bitsArrived e (dataTop (gcfg e) + ix) x)

/-- The first size-class slot that waits is taken up. -/
def rebuildStart (e : Engine) : Engine :=
  match e.pack.rebuild, e.pack.rebuilds with
  | none, ix :: _ => mapPack e fun p => { p with rebuild := some ⟨ix, 0, List.range 256, 0, false⟩ }
  | _, _ => e

/-- A read of the rebuild that has returned: it gives its pair's bits, or waits for metadata. -/
def rebuildTake (e : Engine) (r : Ret) : Engine :=
  match r.use, e.pack.rebuild with
  | .rebuild i, some b =>
    let g := regionNow e r.la
    let o := openSlot e g r.la none r.got
    match rebuiltBits o with
    | none => requestAll e (verifyMissing e g r.la)
    | some (x, bad) =>
      let e := if o = .bad then integrityFail e g else e
      mapPack (takeRet e r) fun p => { p with
        rebuild := some { b with left := b.left.filter (· != i), bits := setScBits b.bits r.la x, bad := b.bad || bad } }
  | _, _ => e

def rebuildTakes (e : Engine) : Engine := e.pack.rets.foldl rebuildTake e

/-- The reads of the pairs that are next, as promoted engine reads as far as entries are free; at most `k`. -/
def rebuildAsk : Nat → Engine → Engine
  | 0, e => e
  | k + 1, e =>
    match e.pack.rebuild with
    | none => e
    | some b =>
      let la := b.slot * 512 + 2 * b.asked
      if b.asked ≥ 256 then e
      else match engineRead e none (.rebuild b.asked) la e.clk.tb with
        | none => e
        | some e =>
          let e := mapPack e fun p => { p with rebuild := some { b with asked := b.asked + 1 } }
          rebuildAsk k (requestAll e (verifyMissing e (regionNow e la) la))

/-- R289: the rebuilt slot is written once every pair is known and the write queue takes it. -/
def rebuildEnd (e : Engine) : Engine :=
  match e.pack.rebuild with
  | none => e
  | some b =>
    let sla := dataTop (gcfg e) + b.slot
    let fit := metaFit e sla
    if !b.left.isEmpty || fit.full.isSome || lineHeld e sla then e
    else if fit.cap.isSome then metaBlocked e sla
    else rebuilt (endCapWait (putMeta e sla 1 0 0 b.bits) none) b.slot b.bits b.bad

/-- The rebuild of the first size-class slot that waits goes on: reads that have returned are taken, at most `k` further
ones are asked for, and after the last the slot is written. -/
def sizeClassRebuild (e : Engine) (k : Nat) : Engine :=
  rebuildEnd (rebuildTakes (rebuildAsk k (rebuildTakes (rebuildStart e))))

/-- One pair of a rebuild that recovery makes with the queues at rest. -/
def rebuildPair (d : Dram) (base : Nat) (a : Engine × Line × Bool) (i : Nat) : Engine × Line × Bool :=
  let (e, x, bad) := a
  let la := base + 2 * i
  let l := lineLoc e la
  let g := regionNow e la
  let e := if chanLive e l.ch && meMay e l.ch (prankIx e l.rank) && canReach e l.ch .me l
    then holding e l.ch 2 fun e => (meReads e l.ch [l] 0 fun _ => (0, .copy)).1 else e
  let (e, y) := eccRead e l.ch 2 l (newestAt d e l) false
  let e := demandBack e l.ch l y false
  let o := openNow d e g la y.got
  let e := if o = .bad then integrityFail e g else e
  match rebuiltBits o with
  | some (b, p) => (e, setScBits x la b, bad || p)
  | none => (e, x, bad)

/-- R552 step 3: a size-class slot rebuilt before the engine re-enters RUN. -/
def rebuildNow (d : Dram) (e : Engine) (ix : Nat) : Engine :=
  let (e, x, bad) := (List.range 256).foldl (rebuildPair d (ix * 512)) (e, 0, false)
  rebuilt (directMeta d e (dataTop (gcfg e) + ix) 1 0 0 x) ix x bad

/-! ## COUNTER_REBUILD (R334) -/

/-- The line address of a Fresh index. -/
def laOfFresh (e : Engine) (f : Nat) : Option Nat :=
  (regionOfFresh e f).map fun r => r.base * 64 + (f - r.freshBase * 64)

/-- The version that a new counter line gives its children: the rebuilt major with minors 0. -/
def rebuiltLine (e : Engine) : Line := BitVec.ofNat 512 ((2 ^ 55 + e.sec.rebuild) % 2 ^ 56 * 2 ^ 448)

/-- R334: one line, encrypted under its parent's version, and everything beneath it. -/
def rebuildNode (d : Dram) : Nat → Nat → Nat → Engine → Nat → Engine
  | 0, _, _, e, _ => e
  | k + 1, l, n, e, pv =>
    let x := rebuiltLine e
    let e := { e with sec := { e.sec with rebuild := e.sec.rebuild + 1 } }
    let e := directMeta d e (nodeLa e l n) 3 l pv x
    if l ≤ 1 then
      (List.range 64).foldl (fun e i => match laOfFresh e (n * 64 + i) with
        | some la => directWrite d e la poisonSlot
        | none => e) e
    else
      (List.range 64).foldl (fun e i =>
        if n * 64 + i < 2 ^ levelLog e (l - 1) then rebuildNode d k (l - 1) (n * 64 + i) e (verOf x i) else e) e

/-- The lost line whose rebuild comes first: no ancestor of it is lost, and its Fresh index is the lowest. -/
def nextLost (e : Engine) : Option (Nat × Nat) :=
  let nodes := e.sec.lostCtr.filterMap (nodeOf e)
  let top := nodes.filter fun p => !(nodes.any fun q => decide (q.1 > p.1) && p.2 / 64 ^ (q.1 - p.1) == q.2)
  top.foldl (fun (o : Option (Nat × Nat)) p => match o with
    | none => some p
    | some q => if p.2 * 64 ^ p.1 < q.2 * 64 ^ q.1 then some p else some q) none

/-- The lost lines that do not lie at or beneath a node. -/
def lostBeyond (e : Engine) (l n : Nat) : List Nat :=
  e.sec.lostCtr.filter fun la => match nodeOf e la with
    | some q => !(decide (q.1 ≤ l) && q.2 / 64 ^ (l - q.1) == n)
    | none => false

/-- The rebuild of the first lost line starts, unless Crypto has agreed to a power-state entry (R459). -/
def ctrStart (d : Dram) (e : Engine) : Engine :=
  match e.sec.ctrTasks, nextLost e with
  | [], some (l, n) => if hasAgreed e 8 then e else { e with sec := { e.sec with
      ctrTasks := [.node l n (parentNow d e l n)]
      lostCtr := lostBeyond e l n } }
  | _, _ => e

/-- What lies beneath a rebuilt line, in ascending Fresh index. -/
def ctrChildren (e : Engine) (l n : Nat) (x : Line) : List CtrTask :=
  (List.range 64).filterMap fun i =>
    if l ≤ 1 then (laOfFresh e (n * 64 + i)).map .slot
    else if n * 64 + i < 2 ^ levelLog e (l - 1) then some (.node (l - 1) (n * 64 + i) (verOf x i)) else none

/-- A rebuild has written its last line. -/
def ctrEnd (e : Engine) : Engine :=
  if e.sec.ctrTasks.isEmpty then retryWaits (sqSet e CRY_STATUS [(CRY_STATUS_REBUILD, 1)]) else e

/-- R334: the next line of the rebuild enters its write queue. -/
def ctrWrite (e : Engine) : Engine :=
  match e.sec.ctrTasks with
  | [] => e
  | .node l n pv :: ts =>
    let la := nodeLa e l n
    whenFits e la fun e =>
      let x := rebuiltLine e
      let e := { e with sec := { e.sec with rebuild := e.sec.rebuild + 1, ctrTasks := ctrChildren e l n x ++ ts } }
      ctrEnd (queueMeta e la 3 l pv x)
  | .slot la :: ts => whenFits e la fun e =>
      ctrEnd (queueSlot { e with sec := { e.sec with ctrTasks := ts } } la poisonSlot e.clk.tb)

/-- COUNTER_REBUILD: the next line of the rebuild in progress, or the first one of the next. -/
def counterRebuild (d : Dram) (e : Engine) : Engine := ctrWrite (ctrStart d e)

/-- R552 step 3: the rebuild in progress and the next one to their ends, before the engine re-enters RUN. -/
def counterRebuildNow (d : Dram) (e : Engine) : Engine :=
  let ts := (ctrStart d e).sec.ctrTasks
  let e := ts.foldl (fun e t => match t with
    | .node l n pv => rebuildNode d 7 l n e pv
    | .slot la => directWrite d e la poisonSlot) (ctrStart d e)
  if ts.isEmpty then e else ctrEnd { e with sec := { e.sec with ctrTasks := [] } }

/-! ## PLACEMENT_PUSH (R381, R382) -/

/-- The push of a line: MemData with GRANT S to the TARGET. -/
def sendPush (e : Engine) (t : Txn) (x : Option Line) : Engine :=
  let e := putTxn e { t with stage := .formed }
  sendPkt e (getEnroll e t.req.target).port
    { cls := 0, op := 0x43, agent := t.req.target, tag := 0xFFFF, bitag := 0, la := t.req.la,
      devload := devload e t.req.qc (some t.ch), err := none, poison := x.isNone, grant := 1,
      data := x.getD 0, txn := some t.id, qc := t.req.qc }

/-- The push's read has returned: the line is opened and sent, or waits for metadata. -/
def pushReturn (e : Engine) (t : Txn) (ret : Ret) : Engine :=
  let r := txnRegion e t
  let hit := takeRet (verifyHits e r ret.la t.snap) ret
  match openSlot e r ret.la t.snap ret.got with
  | .wait m => requestAll e m
  | .poison => sendPush hit t none
  | .bad => sendPush (integrityFail hit r) t none
  | .line x =>
    let e := hit
    if t.packed = some true then
      match unpackPair x with
      | some p => sendPush e t (some (if t.req.la % 2 = 0 then p.1 else p.2))
      | none => sendPush (packCheckFail e t.ch) t none
    else sendPush e t (some x)

/-- The push's read is made: a promoted engine read against the class of the PlaceWr. -/
def placeRead (e : Engine) (t : Txn) : Engine :=
  let r := txnRegion e t
  let go := fun (packed : Bool) =>
    let la := readSlot t packed
    let u := { t with packed := some packed, snap := none, ch := targetCh e la }
    match engineRead (putTxn (chargeRead e t.ch t) u) (clsOf t) (.push t.id) la t.commit with
    | some e => requestAll e (verifyMissing e r la)
    | none => e
  if rebuilding e t.req.la then e
  else if r.pairsSeen = false then go false
  else match caskData e (scLa e t.req.la) with
    | none => requestMeta e (scLa e t.req.la)
    | some x =>
      let e := caskTouch e (scLa e t.req.la)
      let b := scBits x t.req.la
      if badBits b then scInvalid e t.req.la else go (b == 3)

/-- The push's read waits in a read queue. -/
def pushFlies (e : Engine) (id : Nat) : Bool :=
  e.chans.any fun p => p.2.rq.any fun r => r.uses.contains (.push id)

/-- The first push with something to do. -/
def placementPush (e : Engine) : Engine :=
  let ts := e.txns.filter fun t => t.stage == .push && !pushFlies e t.id
  match ts with
  | [] => e
  | t :: _ =>
    match e.pack.rets.find? fun r => r.use == .push t.id with
    | some r => pushReturn e t r
    | none => placeRead e t

end Sys2Proof.Machine
end

