-- ==== Sys2Proof/Machine/Security.lean ====
section
/-! DEFINITION. The security firmware and its hardware: entropy and the DRBG (R53, R320), contexts and keys
(R319–R321), the protection table (R314–R317), zeroization (R311) and image verification (R339). -/

namespace Sys2Proof.Machine

def mapSec (e : Engine) (f : Sec → Sec) : Engine := { e with sec := f e.sec }

/-! ## Entropy (R53, R320) -/

/-- ENT_READY: the DRBG needs input. -/
def entReady (e : Engine) : Bool := clocked e && decide (e.sec.cond.length < 3)

/-- Cut-offs of the repetition-count and adaptive-proportion tests for 8 bits of entropy a sample, and the
window of the latter. -/
def rctCut : Nat := 4
def aptCut : Nat := 13
def aptWindow : Nat := 512

/-- R320: a conditioned block of 32 raw samples. -/
def conditionBlock (raw : List (BitVec 16)) : BitVec 128 :=
  let bytes := raw.flatMap fun s => toLE 2 s.toNat
  BitVec.ofNat 128 (ofBE (cbcMac (keyBytes Config.condKey) (piecesOf 16 4 bytes) (List.replicate 16 0)))

/-- A failed health test over the last `n` samples: they are discarded, with every conditioned block that holds one of
them. -/
def healthFail (e : Engine) (test n : Nat) : Engine :=
  raise (mapSec e fun s => { s with
    raw := [], cond := s.cond.take (s.cond.length - (n - 1 - s.raw.length + 31) / 32)
    rct := none, apt := none, healthy := false }) 0x06 .contained (synOf 0xFF test)

/-- ENTROPY_SAMPLE. -/
def entropySample (e : Engine) (x : BitVec 16) : Engine :=
  if entReady e then
    let s := e.sec
    let rep := match s.rct with
      | some (v, n) => if v = x then n + 1 else 1
      | none => 1
    let (v, n, h) := match s.apt with
      | some (v, n, h) => (v, n + 1, if v = x then h + 1 else h)
      | none => (x, 1, 1)
    if rep ≥ rctCut then healthFail e 0 rep
    else if h ≥ aptCut then healthFail e 1 n
    else
      let raw := s.raw ++ [x]
      let full := decide (raw.length ≥ 32)
      mapSec e fun s => { s with
        rct := some (x, rep)
        apt := if n ≥ aptWindow then none else some (v, n, h)
        raw := if full then [] else raw
        cond := if full then s.cond ++ [conditionBlock raw] else s.cond
        healthy := s.healthy || full }
  else e

/-! ## The DRBG (R320) -/

/-- Three conditioned blocks are in hand. -/
def seedReady (e : Engine) : Bool := decide (e.sec.cond.length ≥ 3)

/-- The DRBG is seeded, or reseeded, from 384 conditioned bits. -/
def drbgReseed (e : Engine) : Engine :=
  mapSec e fun s =>
    let seed := (s.cond.take 3).flatMap fun b => toBE 16 b.toNat
    let (k, v) := if s.drbg.seeded then drbgUpdate (keyBytes s.drbg.key) s.drbg.v.toNat seed
      else drbgUpdate (List.replicate 32 0) 0 seed
    { s with
      cond := s.cond.drop 3
      drbg := ⟨BitVec.ofNat 256 (ofLE k), BitVec.ofNat 128 v, 0, true⟩ }

/-- One request of the DRBG for `n` bytes. -/
def drbgBytes (e : Engine) (n : Nat) : List Nat × Engine :=
  let g := e.sec.drbg
  let k := keyBytes g.key
  let (out, v) := ctrBlocks k ((n + 15) / 16) g.v.toNat
  let (k', v') := drbgUpdate k v (List.replicate 48 0)
  (out.take n, mapSec e fun s => { s with
    drbg := ⟨BitVec.ofNat 256 (ofLE k'), BitVec.ofNat 128 v', g.count + 1, g.seeded⟩ })

/-- A request other than a key generation: after 65,536 of them the DRBG reseeds first, and the request waits for it; none
while it waits. -/
def drbgRequest (e : Engine) (n : Nat) : Option (List Nat × Engine) :=
  let g := e.sec.drbg
  if !g.seeded then none
  else if g.count < 65536 then some (drbgBytes e n)
  else if seedReady e then some (drbgBytes (drbgReseed e) n)
  else none

/-- R417, R320: the sampler's seed, as soon as the DRBG can serve. -/
def telSeed (e : Engine) : Engine :=
  if e.tel.seedWait = false then e
  else match drbgRequest e 32 with
    | some (b, e) => { e with tel := { e.tel with seed := BitVec.ofNat 256 (ofLE b), seedWait := false } }
    | none => e

/-- The four keys of a context are generated after a reseed (R320, R321); the count is of the other requests. -/
def genKeys (e : Engine) (ctx : Nat) : Engine :=
  let (b, e) := drbgBytes (drbgReseed e) 112
  let part := fun i n => ofLE ((b.drop i).take n)
  mapSec e fun s => { s with
    drbg := { s.drbg with count := 0 }
    keys := tput noKeys s.keys ctx
      ⟨BitVec.ofNat 256 (part 0 32), BitVec.ofNat 256 (part 32 32), BitVec.ofNat 256 (part 64 32),
       BitVec.ofNat 128 (part 96 16)⟩ }

def activate (e : Engine) (ctx : Nat) : Engine :=
  mapSec e fun s => { s with active := if s.active.contains ctx then s.active else s.active ++ [ctx] }

/-- Work whose key generation waits, or has its turn, before a further one. -/
def keyWork (e : Engine) : Bool :=
  match e.sec.work with
  | some (.sanitize _ ctx _) => ctx != 0
  | some (.zeroize _) => true
  | _ => e.sec.zeroized

/-- A context's keys are generated, or the request waits for entropy and for the earlier ones (R320). Ticket 0 is
CTX 0's. -/
def ctxGenerate (e : Engine) (ticket ctx : Nat) : Engine :=
  if seedReady e && e.sec.waitKey.isEmpty && !keyWork e then finish (activate (genKeys e ctx) ctx) ticket stOk 0 []
  else
    let e := mapSec e fun s => { s with waitKey := s.waitKey ++ [(ticket, ctx, e.clk.nominal)] }
    if seedReady e then e else sqSet e CRY_STATUS [(CRY_STATUS_ENT_WAIT, 1)]

/-! ## The protection table (R314–R318) -/

/-- The other bank takes a new table and becomes current. -/
def commitTable (e : Engine) (b : ProtBank) : Engine :=
  let v := (curVer e + 1) % 65536
  let e := mapSec e fun s => { s with banks := setNth s.banks (v % 2) b }
  let e := setReg e CRY_PT_VER (setFields (reg e CRY_PT_VER)
    [(CRY_PT_VER_VER, v), (CRY_PT_VER_BANK, v % 2), (CRY_PT_VER_DRAINING, 1)])
  e

/-- Every request that is not bound to the current version has completed (R317). -/
def drained (e : Engine) : Bool := e.txns.all fun t => t.eng || t.ver == curVer e

/-- A region record of PROT_SET: index, validity and the region as asked for. -/
structure RegRec where
  idx : Nat
  valid : Bool
  reg : Region
  deriving DecidableEq, Repr

/-- R314: the record of six words. -/
def regRec (ws : List Word) : RegRec :=
  let w := fun i => nth ws i (0 : Word)
  { idx := wordField (w 0) 9 0
    valid := (w 3).getLsbD 14
    reg := { base := (w 1).toNat, limit := (w 2).toNat, ctx := wordField (w 3) 31 20
             mode := wordField (w 3) 19 18, hdmDb := (w 3).getLsbD 17, pack := (w 3).getLsbD 16
             pairsSeen := false, agset := wordField (w 3) 7 0, macBase := 0, freshBase := 0 } }

/-- The record names the same memory, context and mode as an entry. -/
def sameRegion (a b : Region) : Bool :=
  a.base == b.base && a.limit == b.limit && a.ctx == b.ctx && a.mode == b.mode

def regPages (r : Region) : Nat := r.limit + 1 - r.base

/-- Two regions overlap. -/
def overlaps (a b : Region) : Bool := decide (a.base ≤ b.limit) && decide (b.base ≤ a.limit)

/-- The first page of a free range of `size` pages below `cap`, beside the used ranges. Which one firmware
assigns is not stated (R315): it is the free choice `pick` where that one is free. -/
def freeRange (used : List (Nat × Nat)) (size cap pick : Nat) : Option Nat :=
  (pick :: 0 :: used.map fun u => u.1 + u.2).find? fun c =>
    decide (c + size ≤ cap) && used.all fun u => decide (c + size ≤ u.1) || decide (u.1 + u.2 ≤ c)

/-- Pages of the MAC index space: nine lines for each line of its area (R107). -/
def macPages (e : Engine) : Nat := let g := gcfg e; 9 * g.macRows * sliceLines g / 64

/-- Pages of the Fresh index space: at most S lines, 63 lines for each line of the counter area, and 1 TiB (R107,
R327). -/
def freshPages (e : Engine) : Nat :=
  let g := gcfg e
  if freshLog e = 0 then 0 else min (2 ^ 28) (min (2 ^ freshLog e / 64) (63 * g.ctrRows * sliceLines g / 64))

/-- A table with one more region, at the index bases that firmware gives it (R315). -/
def placeRegion (e : Engine) (t : Tbl Region) (k : Nat) (r : Region) : Option (Tbl Region) :=
  let used := fun (f : Region → Nat) (m : Nat) =>
    (t.filter fun p => decide (p.2.mode ≥ m)).map fun p => (f p.2, regPages p.2)
  let mac := if r.mode ≥ 2 then freeRange (used (·.macBase) 2) (regPages r) (macPages e) (Config.choice (e.free + 2 * k)) else some 0
  let fr := if r.mode = 3 then
      freeRange (used (·.freshBase) 3) (regPages r) (freshPages e) (Config.choice (e.free + 2 * k + 1)) else some 0
  match mac, fr with
  | some m, some f => some (tinsert k { r with macBase := m, freshBase := f } t)
  | _, _ => none

/-- What a PROT_SET would make: the final table, and the entries that it creates. -/
structure NewTable where
  regions : Tbl Region
  created : List Nat
  deriving DecidableEq, Repr

/-- R315: the records applied in order; an entry that keeps its memory, mode and context keeps its
bases and pairs. -/
def applyRecs (e : Engine) (cur : Tbl Region) : List RegRec → NewTable → Option NewTable
  | [], t => some t
  | r :: rs, t =>
    match tlookup cur r.idx with
    | some o =>
      if r.valid && sameRegion o r.reg then
        let n := { o with hdmDb := r.reg.hdmDb, pack := r.reg.pack, agset := r.reg.agset }
        applyRecs e cur rs { t with regions := tinsert r.idx n t.regions }
      else if r.valid then
        match placeRegion e t.regions r.idx r.reg with
        | some g => applyRecs e cur rs ⟨g, t.created ++ [r.idx]⟩
        | none => none
      else applyRecs e cur rs t
    | none =>
      if r.valid then
        match placeRegion e t.regions r.idx r.reg with
        | some g => applyRecs e cur rs ⟨g, t.created ++ [r.idx]⟩
        | none => none
      else applyRecs e cur rs t

/-- R315: no two valid regions overlap. -/
def noOverlap : List Region → Bool
  | [] => true
  | r :: rs => (rs.all fun q => !overlaps r q) && noOverlap rs

/-- The regions of a table that another table does not keep. -/
def dropped (a b : Tbl Region) : List Region :=
  (a.filter fun p => match tlookup b p.1 with
    | some q => !sameRegion p.2 q
    | none => true).map (·.2)

/-- An update of an agent set: rights of COUNT agents from FIRST on. -/
def setRights (t : Tbl Nat) (set first count rights : Nat) : Tbl Nat :=
  (List.range count).foldl (fun t i => tput 0 t (set * 4096 + first + i) rights) t

/-! ## Zeroization (R311) -/

/-- R311, R312: the first debug access to MC2/MC3 of an unlocked part. The DRAM dump can no longer be read. -/
def zeroize (e : Engine) : Engine :=
  if e.sec.zeroized then e
  else
    let e := { e with flt := { e.flt with dram := none } }
    mapSec e fun s => { s with keys := [], root := [], rebuild := 0, zeroized := true }

/-! ## Images (R339) -/

/-- The fields of a verified image. -/
structure Image where
  kind : Nat
  svn : Nat
  payload : List Byte
  deriving DecidableEq, Repr

/-- R339: verification of an image under the fused hashes and minimum SVN. -/
def verifyImage (b : List Byte) : Option Image :=
  let n := b.map (·.toNat)
  let at_ := fun i k => (n.drop i).take k
  let len := ofLE (at_ 12 4)
  let payload := (n.drop 260).take len
  let key := at_ 64 97
  let svn := ofLE (at_ 8 4)
  let ok := decide (b.length ≥ 260) && decide (b.length = 260 + len) &&
    ofLE (at_ 0 4) == 0x4D554C4D && ofLE (at_ 6 2) == 1 && at_ 161 3 == [0, 0, 0] &&
    Config.keyHashes.contains (ofBE (sha384 key)) && key.headD 0 == 4 &&
    ecdsaVerify (ofBE (at_ 65 48)) (ofBE (at_ 113 48)) (ofBE (at_ 164 48)) (ofBE (at_ 212 48))
      (sha384 (n.take 164)) &&
    sha384 payload == at_ 16 48 && decide (svn ≤ 65535) && decide (Config.minSvn.toNat ≤ svn)
  if ok then some ⟨ofLE (at_ 4 2), svn, (b.drop 260).take len⟩ else none

end Sys2Proof.Machine
end

