-- ==== Sys2Proof/Machine/Ingress.lean ====
section
/-! DEFINITION. Ingress and the path to the QoS stage and back (R66–R93, R314–R317, R399): credits, the protection check,
malformed packets, dead agents, the directory, the release of held reads, and the outbound arbiter. -/

namespace Sys2Proof.Machine

/-! ## Packets and credits (R86–R90) -/

/-- Ingress takes the inputs of a port. -/
def portTakes (e : Engine) (p : Nat) : Bool :=
  clocked e && on e GC_ING_CTRL_ING_EN && portEnabled e p

/-- A packet of a class arrives: it uses one of the sender's credits; without one it is an overrun (R89). -/
def arrive (e : Engine) (p c : Nat) (f : Engine → Engine) : Engine :=
  if portTakes e p then
    let v := getPort e p
    let h := nth v.held c 0
    if h = 0 then ingressFault e p GC_ING_STATUS_OVERRUN
    else f (putPort e p { v with held := setNth v.held c (h - 1) })
  else e

/-- R79, R87: ingress discards a packet that begins with `h`: its credit returns, where it uses one. A bad packet for which
the sender holds no credit is an overrun (R89) and no rewind (DESIGN CHOICE: the spec puts neither rule first). -/
def discard (e : Engine) (p : Nat) (h : Flit) (f : Engine → Engine) : Engine :=
  if usesCredit h then arrive e p h.cls fun e => f (creditDue e p h.cls)
  else if portTakes e p then f e else e

/-- PACKET_REWIND (R79): the last of the flits is bad. -/
def packetRewind (e : Engine) (p : Nat) (fs : List Flit) : Engine :=
  match fs with
  | [] => e
  | h :: _ => if lastBad fs then discard e p h fun e => inc e GC_ING_REWIND_CNT else e

/-- FRAMING_ERROR (R70): the flits break the framing, and the last of them is not bad. Without a credit for it the packet is
an overrun alone, and its credit is that of the class that its first flit names, whatever a later one says (DESIGN CHOICE:
the spec is silent on both). -/
def framingError (e : Engine) (p : Nat) (fs : List Flit) : Engine :=
  match fs with
  | [] => e
  | h :: _ =>
    if lastBad fs ∨ (framed fs).isSome then e
    else discard e p h fun e => ingressFault e p GC_ING_STATUS_FRAMING

/-- R92: returns of a class are withheld on a port; in the safe state only a masked port withholds. -/
def withheld (e : Engine) (p c : Nat) : Bool :=
  !portEnabled e p ||
    (!isSafe e && ((getPort e p).stopped || (c == 3 &&
      (portBit e GC_PORT_THROTTLE_THROTTLE p || (decide (retryOcc e ≥ 256) &&
        e.txns.any fun t => t.req.port == p && match t.stage with | .retry _ => true | _ => false)))))

/-- INBOUND_CREDIT_RETURN (R87). -/
def creditReturn (e : Engine) (p c : Nat) : Engine :=
  let v := getPort e p
  if clocked e && decide (nth v.due c 0 > 0) && !withheld e p c then
    putPort e p { v with
      due := setNth v.due c (nth v.due c 0 - 1)
      held := setNth v.held c (nth v.held c 0 + 1)
      lastCred := setNth [0, 0, 0, 0] c 1 }
  else e

/-- OUTBOUND_CREDIT (R88). -/
def outboundCredit (e : Engine) (p c : Nat) : Engine :=
  if portTakes e p then
    let v := getPort e p
    if nth v.out c 0 ≥ 63 then ingressFault e p GC_ING_STATUS_CRED_OVERFLOW
    else putPort e p { v with out := setNth v.out c (nth v.out c 0 + 1) }
  else e

/-- CREDIT_YIELD (R90). -/
def creditYield (e : Engine) (p y0 y1 y3 : Nat) : Engine :=
  if portTakes e p then
    let v := getPort e p
    if v.recallAt.isNone then ingressFault e p GC_ING_STATUS_YIELD_MISMATCH
    else
      let bad := nth v.held 0 0 ≠ y0 ∨ nth v.held 1 0 ≠ y1 ∨ nth v.held 3 0 ≠ y3
      let e := putPort e p { v with held := [0, 0, 0, 0], recallAt := none }
      if bad then ingressFault e p GC_ING_STATUS_YIELD_MISMATCH else e
  else e

/-! ## The protection check (R314–R317) -/

/-- R316: the right that a request needs: read 1, read and write 3. The REQ_ST of a MemRdData is looked at under R76
only (R375). -/
def needRight (r : Req) : Nat :=
  if isClass3 r.op && (r.reqSt != 2 || r.op == .memRdData) then 1 else 3

/-- R316: the check denies the request. -/
def denied (e : Engine) (r : Req) : Bool :=
  match regionOf e (curVer e) r.la with
  | none => true
  | some g =>
    let b := bankOf e (curVer e)
    let has := fun (a need : Nat) => (rightOf b g.agset a) &&& need == need
    g.ctx != r.ctx || !has r.agent (needRight r) || (r.op == .placeWr && !has r.target 1)

/-- R76: a packet that the check passes is malformed. -/
def malformed (e : Engine) (r : Req) : Bool :=
  let inv := r.op == .memInv || r.op == .memInvNT || r.op == .memClnEvct
  (isClass3 r.op && r.reqSt == 3) ||
    (isClass3 r.op && (r.reqSt != 0 || inv) && !isHdmDb e r.la) ||
    (r.op == .placeWr && (let n := getEnroll e r.target; !(n.enrolled && n.place)))

/-- A transaction in its first stage, with its age stamp. -/
def newTxn (e : Engine) (r : Req) (commit : Nat) : Engine × Txn :=
  let t : Txn :=
    { id := e.nextId, req := r, commit := commit, ver := curVer e, stage := .formed
      ott := none, cacheless := false, grant := 0, deadline := none, onG := false, excess := false, ahead := false
      ch := 0, pri := 0, credited := false, done := false, eng := false, packed := none, snap := none }
  ({ e with txns := e.txns ++ [t], nextId := e.nextId + 1 }, t)

/-- A request that passed the check goes to the directory, or past it in an HDM-H region. -/
def toDirectory (e : Engine) (t : Txn) (w : WayErr) : Engine :=
  if isHdmDb e t.req.la then
    let e := wayError e t.req.la w
    if w = .ue then e
    else if isClass3 t.req.op then lookup3 e t
    else lookup0 e t
  else toQos e { t with cacheless := true }

/-- R74–R76, R80, R84, R316, R362, R417: a request that was committed at `commit` leaves its FIFO. -/
def passReq (e : Engine) (r : Req) (commit : Nat) (w : WayErr) : Engine :=
  let (e, t) := newTxn e r commit
  let no := fun (e : Engine) code => formResp e t (errResp e r code (some t.id))
  if isSafe e then no e 2
  else if denied e r then no (inc e CRY_CNT_DENY) 0
  else
    let e := telSample e r.op r.la
    if malformed e r then no (ingressFault e r.port GC_ING_STATUS_MALFORMED) 1
    else if (getEnroll e r.agent).dead && (isClass3 r.op || isHdmDb e r.la) then no e 0
    else if r.op = .memWrPtl ∧ r.mask = 0 then
      formResp e t (mkResp e r 0x40 none false 0 0 none (some t.id))
    else toDirectory e t w

/-- R359: the directory takes the request from the protection check only while the retry buffer is not full. -/
def stalls (e : Engine) (r : Req) : Bool :=
  !isSafe e && isClass3 r.op && decide (retryOcc e ≥ 256) && isHdmDb e r.la && !denied e r && !malformed e r &&
    !(getEnroll e r.agent).dead

/-- R67: a committed packet passes ingress. A class 3 packet waits in its port's FIFO behind another, and while the
directory takes none (R359); no other packet waits. -/
def takeReq (e : Engine) (r : Req) (w : WayErr) : Engine :=
  let v := getPort e r.port
  if isClass3 r.op ∧ (v.fifo3 ≠ [] ∨ stalls e r) then putPort e r.port { v with fifo3 := v.fifo3 ++ [⟨r, e.clk.tb, w⟩] }
  else passReq e r e.clk.tb w

/-- The heads of the class 3 FIFOs that can leave, with their ports. -/
def fifoHeads (e : Engine) : List FifoReq :=
  e.ports.filterMap fun p => match p.2.fifo3 with
    | [] => none
    | q :: _ => if stalls e q.req then none else some q

/-- R22: the head with the lowest age stamp, and the lowest port on a tie. -/
def firstHead : List FifoReq → Option FifoReq
  | [] => none
  | q :: qs => match firstHead qs with
    | none => some q
    | some u => if u.commit < q.commit ∨ (u.commit = q.commit ∧ u.req.port < q.req.port) then some u else some q

/-- Packets leave the class 3 FIFOs as the directory takes them again, at most `n` of them. -/
def drainFifos : Nat → Engine → Engine
  | 0, e => e
  | n + 1, e => match firstHead (fifoHeads e) with
    | none => e
    | some q =>
      let v := getPort e q.req.port
      drainFifos n (passReq (putPort e q.req.port { v with fifo3 := v.fifo3.drop 1 }) q.req q.commit q.way)

/-- The packets in the class 3 FIFOs. -/
def fifoCount (e : Engine) : Nat := (e.ports.map fun p => p.2.fifo3.length).sum

/-- Every packet that can leave its class 3 FIFO leaves it. -/
def fifoPump (e : Engine) : Engine := if clocked e then drainFifos (fifoCount e) e else e

/-- The request of a header. The valid-byte tag of a full-line write is all ones (R77). -/
def reqOf (op : ReqOp) (h : Hdr) (reqSt : Nat) (poison : Bool) (mask : BitVec 64) (target : Nat)
    (data : Line) : Req :=
  { op := op, port := h.port, agent := h.agent, ctx := h.ctx, tag := h.tag.toNat, la := h.addr.toNat
    qc := h.qc, dl := h.deadline.map (·.toNat), reqSt := reqSt, poison := poison, mask := mask
    target := target, data := data }

/-- A class 1 packet: it leaves its FIFO at once, and in the safe state it is discarded (R85, R87, R362). -/
def takeClass1 (e : Engine) (op : BiOp) (p a g : Nat) : Engine :=
  arrive e p 1 fun e =>
    let e := creditDue e p 1
    if isSafe e || (getEnroll e a).dead then e else takeBi e op p a g

/-! ## Retries (R357) -/

/-- The entries of the retry buffer of a set, oldest first. -/
def retryEntries (e : Engine) (s : Nat) : List Txn :=
  e.txns.filter fun t => setOf t.req.la == s && match t.stage with | .retry _ => true | _ => false

/-- The oldest VICTIM_FULL entry of the whole retry buffer. -/
def oldestFull (e : Engine) : Option Txn := e.txns.find? fun t => t.stage == .retry .victimFull

/-- The cause of an entry of the retry buffer is gone. -/
def causeGone (e : Engine) (t : Txn) : Bool :=
  let s := setOf t.req.la
  match t.stage with
  | .retry .setPinned => decide ((getSet e s).ways.length < slotCount e) || (pickVictim e s t.req.la).isSome
  | .retry .victimFull => decide (e.dir.victims.length < 128) && match oldestFull e with
      | some u => setOf u.req.la == s
      | none => false
  | .retry .lineBusy => !lineBusy e t
  | _ => false

/-- RETRY_RELEASE of a set: the oldest entry whose cause is gone repeats its lookup, and re-enters behind the entries of
its set where it meets a cause again. -/
def retryRelease (e : Engine) (s : Nat) : Engine :=
  if clocked e && !isSafe e then
    match (retryEntries e s).find? (causeGone e) with
    | some t =>
      let (e, ue) := wayMet e t.req.la
      if ue then e
      else
        let t := { t with stage := .formed }
        let e := delTxn e t.id
        lookup3 { e with txns := e.txns ++ [t] } t
    | none => e
  else e

/-! ## QOS_RELEASE (R399) -/

/-- R399: the head that a channel releases now. A read of a line that Grist holds leaves for the hold slot (R112). -/
def releaseHead (e : Engine) (n : Nat) : Option Head :=
  let hs := (holdHeads e n).filter fun h => !olderWrite e h.txn || lineHeld e h.txn.req.la
  match bestHead e (hs.filter fun h => h.cover == .g) with
  | some h => some h
  | none => bestHead e (hs.filter fun h => h.cover == .x)

/-- One release of a channel. -/
def releaseOne (e : Engine) (n : Nat) : Engine :=
  if rqOcc e n + 8 < 256 then
    match releaseHead e n with
    | none => e
    | some h =>
      let (e, cov) := chargeBucket e h.cls n (charge e h.txn false)
      let e := unhold e h.cls n h.txn.id
      let t := { h.txn with onG := cov == Cover.g, excess := cov == Cover.x }
      packRead e { t with pri := priOf e t }
  else sqSet e (CH_SCHED_STATUS n) [(CH_SCHED_STATUS_RQ_FULL n, 1)]

/-- A channel takes requests from the QoS stage (R166). -/
def intake (e : Engine) (n : Nat) : Bool :=
  clocked e && !isSafe e && on e (CH_SCHED_CTRL_SCHED_EN n)

/-- QOS_RELEASE: up to two reads. -/
def qosRelease (e : Engine) (n : Nat) : Engine :=
  if intake e n then
    let e := releaseOne (releaseOne e n) n
    syncLines (spargeLook e n) n
  else e

/-- WRITE_QUEUE_ENTRY of a channel. -/
def writeQueueEntry (d : Dram) (e : Engine) (n : Nat) : Engine :=
  if intake e n then syncLines (spargeLook (writeEntry d e n) n) n else e

/-- The first pair whose partner read has returned, with the read. -/
def returnedPair (e : Engine) : Option (PairEnt × Ret) :=
  e.pack.rets.findSome? fun r => match r.use with
    | .partner k => (e.pack.pairs.find? fun q => q.pair == k).map fun q => (q, r)
    | _ => none

/-- The first write whose merge read has returned, with the read. -/
def returnedMerge (e : Engine) : Option (Txn × Ret) :=
  e.pack.rets.findSome? fun r => match r.use with
    | .merge id => (getTxn e id).map fun t => (t, r)
    | _ => none

/-- MERGE_READ_RETURN: the first merge read that has returned. -/
def mergeReadReturn (d : Dram) (e : Engine) : Engine :=
  if clocked e && !isSafe e then
    match returnedMerge e with
    | some (t, r) =>
      let e := mergeReturn d e t r
      let n := t.ch
      syncLines (spargeLook (retryWaits e) n) n
    | none => e
  else e

/-- PARTNER_READ_RETURN: the first pair whose partner read has returned. -/
def partnerReadReturn (d : Dram) (e : Engine) : Engine :=
  if clocked e && !isSafe e then
    match returnedPair e with
    | some (q, r) =>
      let e := partnerReturn d e q r
      syncLines (spargeLook e q.ch) q.ch
    | none => e
  else e

/-! ## OUTBOUND_SEND (R91) -/

/-- The packet that the outbound arbiter of a port sends next. -/
def nextOut (e : Engine) (v : Port) : Option OutPkt :=
  let c0 := if nth v.out 0 0 > 0 then v.outq.find? fun k => k.cls == 0 else none
  let c2 := if nth v.out 2 0 > 0 ∧ isSafe e = false then v.outq.find? fun k => k.cls == 2 else none
  match c2 with
  | some k => if v.run0 ≥ 16 then some k else c0.orElse fun _ => some k
  | none => c0

/-- The transaction whose packet has left: credits, misses and its end (R87, R374, R381, R403). -/
def packetLeft (e : Engine) (p : Nat) (k : OutPkt) (t : Txn) : Engine :=
  let push := k.op == 0x43 && t.req.op == .placeWr
  let e := if push then telSent e k false none
    else telSent e k (!isClass3 t.req.op) (if isRead t.req.op then some t.commit else none)
  if push then lineReleased (delTxn (recordHolder (inc e DIR_CNT_PUSH) t.req.la t.req.target false) t.id) t.req.la
  else
    let e := if k.err.isNone then checkMiss e t else e
    let e := if isClass3 t.req.op then creditDue e p 3
      else if t.credited then e else creditDue e p 0
    if t.stage = .push ∨ (t.stage = .formed ∧ t.ott = some .wp) then putTxn e { t with credited := true }
    else lineReleased (delTxn e t.id) t.req.la

/-- OUTBOUND_SEND of a port. -/
def outboundSend (e : Engine) (p : Nat) : Engine :=
  let v := getPort e p
  if clocked e then
    match nextOut e v with
    | none => e
    | some k =>
      let wait2 := v.outq.any fun q => q.cls == 2
      let e := putPort e p { v with
        outq := v.outq.erase k
        out := setNth v.out k.cls (nth v.out k.cls 0 - 1)
        run0 := if k.cls = 0 ∧ wait2 then v.run0 + 1 else 0
        lastOut := some k }
      match k.txn.bind (getTxn e) with
      | some t => packetLeft e p k t
      | none => telSent e k false none
  else e

end Sys2Proof.Machine
end

