-- ==== Sys2Proof/Machine/Quiet.lean ====
section
/-! DEFINITION. Channels into self-refresh and out of it (R154, R185, R204, R211, R237, R243, R244, R273),
as the safe state, power entries and wakes need it. -/

namespace Sys2Proof.Machine

/-- Work on the sixteen channels in parallel: each starts at the same moment, and time passes to the end of
the longest. -/
def inParallel (e : Engine) (f : Engine → Nat → Engine) : Engine :=
  let c0 := e.clk
  (List.range 16).foldl (fun a n =>
    let x := f { a with clk := c0 } n
    { x with clk := if x.clk.cyc > a.clk.cyc then x.clk else a.clk }) e

/-! ## The write-out (R154) -/

/-- The kind of a candidate's command, its auto-precharge included. -/
def candKind (e : Engine) (n : Nat) (all : List Cand) (k : Cand) : DKind :=
  if kindRank k.kind = 0 then casKind e n (getChan e n) all k else k.kind

/-- The first slot in which the timing-rule engine allows a candidate's command. -/
def candSlot (e : Engine) (n : Nat) (all : List Cand) (k : Cand) : Option Nat :=
  let c := getChan e n
  let kind := candKind e n all k
  let t := earliest (cidBits e) (getSub c k.loc.sc).log (mkCmd e n kind k.loc 0) (nowPhy e)
  if !orderHolds c k && allowed e n k.loc.sc kind k.loc t then some t else none

/-- The earlier of two slots. -/
def sooner (a b : Option (Nat × Nat)) : Option (Nat × Nat) :=
  match a, b with
  | some x, some y => some (if y.1 < x.1 then y else x)
  | some x, none => some x
  | none, y => y

/-- The first slot of a subchannel in which the scheduler has a candidate (R147). -/
def outSlot (e : Engine) (n sc : Nat) : Option (Nat × Nat) :=
  let c := getChan e n
  let all := inDirection e c sc
  let ks := all.filter fun k => !(k.kind == .pre && match (bankAt c k.loc).row with
    | some r => rowHit all k.loc r k.seq
    | none => false)
  ks.foldl (fun m k => sooner m ((candSlot e n all k).map fun t => (t, sc))) none

/-- The write-out's next slot, with its subchannel. -/
def outNext (e : Engine) (n : Nat) : Option (Nat × Nat) := sooner (outSlot e n 0) (outSlot e n 1)

/-- An operation that MEn's line asks for with kind URGENT, where its bid preempts the scheduler's PRIO 7 (R176, R185). -/
def urgentOnce (e : Engine) (n : Nat) : Option Engine :=
  let c := getChan e n
  let me := fun (f : Engine → Engine) => some (underMe e n f)
  if mePrio e n 5 < 7 ∨ on e (CH_ARB_CTRL_PRE_DATA n) = false then none
  else match c.alerts.find? fun p => p.2.backoff && p.2.upto.isNone && backoffSoon e n (p.1 - 2) with
    | some p => me fun e => backoffRound e n (p.1 - 2) p.2
    | none =>
      match (List.range (pranks e)).find? fun i => refreshWanted e n i && on e (urgentF n i) && refreshSoon e n i with
      | some i => me fun e => refreshWork e n i
      | none =>
        if raaSoon e n (rd e (CH_RG_RFM_RAAMMT n)) then
          match c.banks.find? fun p => decide (p.2.raa ≥ rd e (CH_RG_RFM_RAAMMT n)) &&
              meMay e n (prankIx e (bankLoc n p.1).rank) with
          | some p => me fun e => rfmIssue e n (bankLoc n p.1)
          | none => none
        else none

/-- What lifts the refusal of a queued write's command, the first that something lifts. -/
def outLift (e : Engine) (n : Nat) : Option Engine :=
  let c := getChan e n
  (inDirection e c 0 ++ inDirection e c 1).findSome? fun k =>
    if deferredHolds e c k.loc.rank || (k.kind == .act && actRefused e n .sched c k.loc (nowPhy e))
    then liftOnce e n .sched k.loc else none

/-- A powered-down rank that a queued write addresses and that takes PDX now. -/
def outWake (e : Engine) (n : Nat) : Option Nat :=
  let c := getChan e n
  ((inDirection e c 0 ++ inDirection e c 1).find? fun k =>
    (getPRank c (prankIx e k.loc.rank)).pd && rankFree e n (prankIx e k.loc.rank)).map fun k => prankIx e k.loc.rank

/-- The queued writes of a channel are written, in at most `k` steps: MEn's urgent operations first, then the command that
R147 chooses in the next slot of either subchannel, behind the deferred commands whose slots come no later; what refuses an
ACT is lifted where no command can go. Writes to a rank that an alert holds, and to a bank that is capped, wait. -/
def writeOut (d : Dram) (n : Nat) : Nat → Engine → Engine
  | 0, e => e
  | k + 1, e =>
    let c := getChan e n
    if c.wq.isEmpty && c.replay.isEmpty then e
    else match urgentOnce e n, outWake e n, outNext e n with
      | some x, _, _ => writeOut d n k x
      | none, some i, _ => writeOut d n k (wakeRank e n i)
      | none, none, some (t, sc) =>
        match firstDeferred e n t, chooseCmd e n sc t with
        | some i, _ => writeOut d n k (placeOne e n t i)
        | none, some x => writeOut d n k (issueCand d (toPhy e t) n sc t x)
        | none, none => e
      | none, none, none =>
        match outLift e n with
        | some x => writeOut d n k x
        | none => e

/-- Steps that a write-out needs at most: three commands for each entry, and what lifts refusals. -/
def writeOutFuel (e : Engine) (n : Nat) : Nat :=
  3 * ((getChan e n).wq.length + (getChan e n).replay.length) + 4096

/-! ## Lost lines (R29, R303, R549) -/

/-- The records of a write that a faulted channel does not write out. -/
def lostOf (e : Engine) (n : Nat) (w : WqEntry) : List LostLine :=
  if w.la ≥ metaTop e then []
  else if isMetaLa e w.la then [⟨w.la, n, metaKind e w.la, 0⟩]
  else if w.pair then
    [⟨w.la / 2 * 2, n, 4, 0⟩, ⟨w.la / 2 * 2 + 1, n, 4, 0⟩]
  else [⟨w.la, n, 0, 0⟩]

/-- R29: the channel's own data path holds the fault: its writes are listed and not written. -/
def loseWrites (e : Engine) (n : Nat) : Engine :=
  let c := getChan e n
  let ls := (c.replay ++ c.wq).flatMap (lostOf e n)
  let ls := ls.foldl (fun (a : List LostLine) l => if l ∈ a ∨ l ∈ e.flt.lost then a else a ++ [l]) []
  let e := putChan e n { c with wq := [], replay := [], ownFault := true }
  { e with flt := { e.flt with lost := e.flt.lost ++ ls } }

/-! ## Into self-refresh -/

/-- The banks of a channel with a pending mitigation. -/
def pendingBanks (e : Engine) (n : Nat) : List Loc :=
  if (getChan e n).banks.any fun p => bankPending p.2 then
    ((List.range (pranks e)).flatMap fun i => rankBanks e n 0 i ++ rankBanks e n 1 i).filter fun l =>
      bankPending (bankAt (getChan e n) l)
  else []

/-- The mitigations of a bank, to the end; what stands before a re-activation is done first. -/
def mitigateAll (n : Nat) (l : Loc) : Nat → Engine → Engine
  | 0, e => e
  | k + 1, e =>
    let c := getChan e n
    let b := bankAt c l
    let acts := match pendingRow b with
      | some r => !r.sampled && b.row != some r.row
      | none => false
    if bankPending b = false ∨ heldAt e c l.rank (nowPhy e) then e
    else if deferredHolds e c l.rank || (acts && (abRefused e c l.rank (nowPhy e) || (bankShut e n b).2)) then
      match liftOnce e n .me l with
      | some e => mitigateAll n l k e
      | none => e
    else mitigateAll n l k (mitigate e n l)

/-- R211: the pending mitigations of a channel are completed. -/
def finishMitigations (e : Engine) (n : Nat) : Engine :=
  (pendingBanks e n).foldl (fun e l => mitigateAll n l 256 (wakeRank e n (prankIx e l.rank))) e

/-- Whoever holds the channel lets it go, which is no preemption (R185). -/
def letGo (e : Engine) (n : Nat) : Engine :=
  if holder e n = 0 then e else freeChan (offBus (mapArb e n fun a => { a with pend := none }) n) n

/-- R273: a repair past its declared point completes the program time and the exit, in at most `k` operations of MEn; an
alert that holds its rank holds it (R240). -/
def finishProgram (n : Nat) : Nat → Engine → Engine
  | 0, e => e
  | k + 1, e =>
    match (getChan e n).repair with
    | none => e
    | some r =>
      if r.phase = 2 ∧ rankFree e n (prankIx e r.loc.rank) then
        let e := liftRefusal n .me r.loc 8 e
        finishProgram n k (programStep (tickTo e (r.prog.getD 0)) n r)
      else e

/-- R273: a repair as a fatal fault finds it: abandoned before its declared point, and completed up to the restore past
it. -/
def safeRepair (e : Engine) (n : Nat) : Engine :=
  match (getChan e n).repair with
  | none => e
  | some r =>
    if r.phase < 2 then wr (putRepair e n none) (CH_PPR_STATE_BUSY n) 0
    else if r.phase = 2 then holding e n 2 (finishProgram n 8)
    else e

/-- No alert of a rank that serves waits for its classification or its recovery (R240). -/
def alertsClear (e : Engine) (n : Nat) : Bool :=
  (awakeRanks e n).all fun i => (alertOf e (getChan e n) (i * 2 ^ cidBits e)).isNone

/-- The back-offs of a channel run to the end of their RFMab commands. -/
def finishBackoffs (e : Engine) (n : Nat) : Engine :=
  [0, 1].foldl (fun e s => (List.range 4).foldl (fun e _ =>
    match tlookup (getChan e n).alerts (s + 2) with
    | some a => if a.upto.isNone then backoffRound e n s a else e
    | none => e) e) e

/-- The entry of a channel into self-refresh can go on: a queued write can be written, or none is left and no alert holds a
rank (R154, R185, R240). -/
def canGoOn (e : Engine) (n : Nat) : Bool :=
  let c := getChan e n
  c.arb.fatal && c.arb.sre && chanLive e n &&
    if c.wq.isEmpty && c.replay.isEmpty then alertsClear e n
    else (outNext e n).isSome || (outWake e n).isSome || (outLift e n).isSome

/-- The writes are out: MEn takes the channel into self-refresh, in a planned entry behind the mitigations (R211). -/
def sleepNow (e : Engine) (n : Nat) : Engine :=
  let e := finishBackoffs (finishProgram n 8 e) n
  let e := enterAllSR (if isSafe e then e else finishMitigations e n) n
  mapArb e n fun a => { a with sre := false }

/-- R154, R185: the write-out under the scheduler's grant, and the entry into self-refresh under MEn's, as far as alerts
and caps let them go now. -/
def goOn (d : Dram) (e : Engine) (n : Nat) : Engine :=
  if canGoOn e n then
    let e := if (getChan e n).wq.isEmpty && (getChan e n).replay.isEmpty then e
      else holding e n 1 (writeOut d n (writeOutFuel e n))
    let c := getChan e n
    let e := if isSafe e || !(c.wq.isEmpty && c.replay.isEmpty) then e else wr e (CH_SCHED_CTRL_SCHED_EN n) 0
    let e := if c.wq.isEmpty && c.replay.isEmpty && alertsClear e n then holding e n 2 (sleepNow · n) else e
    syncLines e n
  else e

/-- R28, R185, R211, R273: a channel reacts to a fatal fault. `own` says that its own data path holds it. -/
def safeChannel (d : Dram) (own : Bool) (e : Engine) (n : Nat) : Engine :=
  let e := mapArb (letGo (safeStopRun e n) n) n fun a => { a with fatal := true, sre := chanLive e n }
  let c := getChan e n
  let e := putChan e n { c with rq := [], capWait := none }
  if chanLive e n then
    let e := safeRepair e n
    let c := getChan e n
    let e := if own then loseWrites e n
      else if c.wq.isEmpty && c.replay.isEmpty then e
      else sqSet e (CH_MNT_STATUS n) [(CH_MNT_STATUS_EXEMPT n, 1)]
    goOn d e n
  else e

/-- R154, R204, R211, R244: a channel enters self-refresh for SLEEP or DEEP, or goes on with its entry; it begins once
the training run has stopped and the scheduler has served the queued reads (R244, R453). -/
def sleepChannel (d : Dram) (e : Engine) (n : Nat) : Engine :=
  if chanLive e n then
    let c := getChan e n
    if c.arb.fatal then goOn d e n
    else
      let e := stopRun e n .stopped
      if on e (CH_TRN_STATE_BUSY n) || (!c.rq.isEmpty && on e (CH_SCHED_CTRL_SCHED_EN n)) then
        mapArb e n fun a => { a with sre := true }
      else goOn d (mapArb (letGo e n) n fun a => { a with fatal := true, sre := true }) n
  else e

/-- No channel has still to enter self-refresh. -/
def allAsleep (e : Engine) : Bool := (List.range 16).all fun n => !((getChan e n).arb.sre && chanLive e n)

/-! ## Out of self-refresh -/

/-- The channel is in service. -/
def inService (e : Engine) (n : Nat) : Bool := (reg e QOS_SERVICE).getLsbD n

/-- The bids of R185 end, and firmware sets SCHED_EN of a channel in service. -/
def resumeChannel (e : Engine) (n : Nat) : Engine :=
  let e := mapArb e n fun a => { a with fatal := false, sre := false }
  let e := if inService e n then firmSched e n else e
  startPending (syncLines e n) n

/-- R461, R465: a channel leaves the self-refresh of SLEEP, DEEP or a reversed entry. -/
def wakeChannel (e : Engine) (n : Nat) : Engine :=
  if chanLive e n then
    let e := holding e n 2 (exitAllSR · n)
    resumeChannel (if inService e n then onlineRun e n else e) n
  else e

/-- R273: the rest of a repair's slots, as far as MEn can reach their row; a row of a capped bank is left to the steps of
the repair in RUN (DEDUCED: R209 refuses its ACT). -/
def restoreRepair (d : Dram) (e : Engine) (n : Nat) : Engine :=
  let e := (List.range 64).foldl (fun e _ => match (getChan e n).repair with
    | some r =>
      let e := liftRefusal n .me r.loc 8 e
      if r.phase = 3 ∧ r.restored < 128 ∧ meReach e n [r.loc] then restoreTwo d e n r else e
    | none => e) e
  match (getChan e n).repair with
  | some r => if r.phase = 3 ∧ r.restored ≥ 128 then closeRepair e n r else e
  | none => e

/-- R552 step 2, R28, R237, R273: a channel's restore before the engine re-enters RUN. -/
def restoreChannel (d : Dram) (e : Engine) (n : Nat) : Engine :=
  if chanLive e n then
    let e := holding e n 2 fun e => finishMitigations (exitAllSR e n) n
    let e := redoStep d (holding e n 3 (restoreLines · n)) n
    holding e n 2 fun e => restoreRepair d (finishProgram n 8 e) n
  else e

end Sys2Proof.Machine
end

