-- ==== Sys2Proof/Machine/Clocks.lean ====
section
/-! DEFINITION. The timebase beside its running (R440): estimates and slews (R443, R444), Kiln and its
calibration (R445), and time across SLEEP and DEEP (R446). -/

namespace Sys2Proof.Machine

def mapClk (e : Engine) (f : Clk → Clk) : Engine := { e with clk := f e.clk }

/-- R444: an estimate `est` of TB, in time units, with an uncertainty of `u` ns. -/
def applyEstimate (e : Engine) (est u : Nat) : Engine :=
  let d : Int := (est : Int) - e.clk.tb
  let jump := decide (d > (rd e PWR_TB_CFG_STEP_TH * nsUnit : Nat)) || (e.clk.epochInvalid && decide (d > 0))
  let e := if jump then
      sqSet (mapClk e fun c => { c with tb := est % 2 ^ 88, slew := 0, winDirty := true })
        PWR_TB_STATE [(PWR_TB_STATE_STEPPED, 1)]
    else mapClk e fun c => { c with slew := d, winDirty := c.winDirty || decide (d ≠ 0) }
  mapClk e fun c => { c with uncert := u, epochInvalid := false }

/-- TB_UNCERT in ns: the stored bound and the remaining slew, saturating (R444); a part of a nanosecond
counts as one (DESIGN CHOICE). -/
def tbUncert (e : Engine) : Nat :=
  min (e.clk.uncert + (e.clk.slew.natAbs + nsUnit - 1) / nsUnit) (2 ^ 32 - 1)

/-- `n` REG periods in time units, rounded down (R433; DESIGN CHOICE). -/
def regPeriods (e : Engine) (n : Nat) : Nat := n * 64000 * nsUnit / binRate e.clk.bin

/-- REG periods in whole nanoseconds, rounded up. -/
def regPeriodsNs (e : Engine) (n : Nat) : Nat :=
  (n * 64000 + binRate e.clk.bin - 1) / binRate e.clk.bin

/-- CTL cycles in a REG cycle (R433). -/
abbrev regCycle : Nat := 8

/-- R434: the dividers start together on one root edge, each with its first cycle. -/
def startDividers (c : Clk) : Clk := { c with root := .locked, cyc := (c.cyc + 15) / 16 * 16 }

/-- R445: the Kiln ticks since the count was last brought up to date, while the root ran: how many of them fall into the time
that has passed at 1 MHz within 20 %, short of the window's end, is a free value. -/
def kilnPassed (e : Engine) : Nat :=
  let dt := (e.clk.nominal - e.clk.kilnAt) / nsUnit
  let lo := dt * 8 / 10000
  let hi := dt * 12 / 10000 + 1
  min (lo + Config.choice e.free % (hi - lo + 1)) (16383 - e.clk.kiln % 16384)

/-- The Kiln count is brought up to date. -/
def kilnSync (e : Engine) : Engine :=
  if e.clk.root = .locked then
    let k := kilnPassed e
    mapClk (drawFree e) fun c => { c with kiln := (c.kiln + k) % 2 ^ 48, kilnAt := c.nominal }
  else e

/-- R445: a window of 16,384 Kiln ticks ends, `n` CTL cycles after the last event. -/
def kilnWindow (e : Engine) (n : Nat) : Engine :=
  let run := e.clk.root == .locked
  let e := tick e n
  let per := (e.clk.tb - e.clk.winTb) / 2 ^ 22
  let good := run && !e.clk.winDirty
  let e := if good then
      if 800 * 65536 ≤ per ∧ per ≤ 1250 * 65536 then
        mapClk (wr e PWR_KILN_PER_PERIOD per) fun c => { c with calValid := true }
      else
        raise (sqSet e PWR_CLK_STATUS [(PWR_CLK_STATUS_KILN_BAD, 1)]) 0x0B .contained
          (synOf PWR_CLK_STATUS_KILN_BAD.lo 0)
    else e
  mapClk e fun c => { c with
    kiln := (c.kiln / 16384 + 1) * 16384 % 2 ^ 48, kilnAt := c.nominal, winTb := c.tb, winDirty := !run }

/-- The Kiln calibration stands: the handshake of an entry to SLEEP or DEEP may be answered (R445). -/
def kilnGood (e : Engine) : Bool := e.clk.calValid && !on e PWR_CLK_STATUS_KILN_BAD

/-- R446: the root stops on a Kiln edge with TB and the count latched. -/
def stopRoot (e : Engine) : Engine :=
  mapClk (kilnSync e) fun c => { c with root := .stopped, tbStop := c.tb, kilnStop := c.kiln, winDirty := true }

/-- `n` Kiln ticks pass. -/
def kilnTicks (e : Engine) (n : Nat) : Engine :=
  mapClk e fun c => { c with kiln := (c.kiln + n) % 2 ^ 48 }

/-- Kiln ran on while the core domain was held in reset: for how many ticks is a free value. -/
def kilnInReset (e : Engine) : Engine := kilnTicks (drawFree e) (Config.choice e.free)

/-- R446: TBS restarts, and TB advances by the Kiln ticks since the root stopped. -/
def sleepAdvance (e : Engine) : Engine :=
  let count := (e.clk.kiln + 2 ^ 48 - e.clk.kilnStop) % 2 ^ 48
  let adv := count * rd e PWR_KILN_PER_PERIOD
  let u := (adv * rd e PWR_TB_CFG_UNC_PPM + 65536 * 1000000 - 1) / (65536 * 1000000)
  let e := mapClk e fun c => { startDividers c with
    tb := (c.tbStop + adv * 256) % 2 ^ 88, nominal := c.nominal + adv * 256, kilnAt := c.nominal + adv * 256
    uncert := c.uncert + u + 64, lastSleep := count }
  sqSet e PWR_TB_STATE [(PWR_TB_STATE_WOKE, 1)]

end Sys2Proof.Machine
end

