-- ==== Sys2Proof/Machine/Ring.lean ====
section
/-! DEFINITION. The management ring (R117–R135): message format, forwarding, management messages with
acknowledgement, timebase synchronisation, fault broadcasts and presence. -/

namespace Sys2Proof.Machine

def mapRing (e : Engine) (f : Ring → Ring) : Engine := { e with ring := f e.ring }

/-! ## Message format (R119, R120) -/

abbrev tyMgmt : Nat := 0
abbrev tyAck : Nat := 1
abbrev tySync : Nat := 2
abbrev tyFault : Nat := 3
abbrev tyPresence : Nat := 4

/-- One bit of the CRC: polynomial 0x1021, most significant bit first. -/
def crcBit (c : Nat) (b : Bool) : Nat :=
  let x := c * 2 % 65536
  if (c ≥ 32768) != b then x ^^^ 0x1021 else x

/-- The CRC over a word (R120; the bit order within a word is the polynomial's, DEDUCED). -/
def crcWord (c : Nat) (w : BitVec 16) : Nat :=
  (List.range 16).foldl (fun c i => crcBit c (w.getLsbD (15 - i))) c

/-- CRC-16 over header words and payload. -/
def ringCrc (ws : List (BitVec 16)) : BitVec 16 := BitVec.ofNat 16 (ws.foldl crcWord 0xFFFF)

/-- The burst of a message: two header words, the payload and the CRC. -/
def ringBurst (m : RingMsg) : List (BitVec 16) :=
  let h0 := m.typ * 8192 + m.src * 1024 + m.dst * 128 + (if m.bcast then 64 else 0) + m.payload.length
  let h1 := m.seq * 256 + m.hops * 32
  let ws := BitVec.ofNat 16 h0 :: BitVec.ofNat 16 h1 :: m.payload
  ws ++ [ringCrc ws]

/-- A field of a header word. -/
def hfield (w : BitVec 16) (hi lo : Nat) : Nat := w.toNat / 2 ^ lo % 2 ^ (hi + 1 - lo)

/-- The message of a complete burst. -/
def ringMsgOf (ws : List (BitVec 16)) : RingMsg :=
  let h0 := ws.headD 0
  let h1 := nth ws 1 0
  { typ := hfield h0 15 13, src := hfield h0 12 10, dst := hfield h0 9 7, bcast := hfield h0 6 6 == 1
    seq := hfield h1 15 8, hops := hfield h1 7 5, payload := (ws.drop 2).take (hfield h0 5 0) }

/-- R119: BCAST and LEN of a type. A LEN that the table does not give its type is taken as a wrong type
(DESIGN CHOICE). -/
def typeGood (m : RingMsg) : Bool :=
  let n := m.payload.length
  match m.typ with
  | 0 => !m.bcast && decide (1 ≤ n)
  | 1 => !m.bcast && n == 0
  | 2 => m.bcast && n == 7
  | 3 => m.bcast && n == 1
  | 4 => m.bcast && n == 2
  | _ => false

/-! ## Sending -/

def ownIdx (e : Engine) : Nat := rd e RING_CTRL_ENG_IDX

/-- The ring interface consumes and inserts. -/
def ringActive (e : Engine) : Bool :=
  on e RING_CTRL_RING_EN && !e.pins.relayClosed && clocked e

/-! ## The transit buffer and the order of sending (R122) -/

/-- The REG cycle of the root that the engine is in (R433). -/
def regNow (e : Engine) : Nat := e.clk.cyc / regCycle

/-- Words of a message on the ring. -/
def burstLen (m : RingMsg) : Nat := m.payload.length + 3

/-- Words that the transit buffer holds at a REG cycle: waiting messages, and what is left of the message in
progress where it comes from the buffer. -/
def transitWords (r : Ring) (t : Nat) : Nat :=
  (r.transit.map fun x => burstLen x.msg).sum + (if r.outBuf then r.outFree - t else 0)

/-- The place of a message in the order of R122. -/
def ringGroup (typ : Nat) (own : Bool) : Nat :=
  match typ, own with
  | 3, false => 1
  | 3, true => 2
  | 2, false => 3
  | 2, true => 4
  | _, false => 5
  | _, true => 6

/-- A message that can be sent next: the first REG cycle in which it may start, and where it waits. -/
inductive NextMsg where
  | transit (t : Nat) (x : Transit)
  | own (t : Nat) (x : OwnMsg)
  deriving DecidableEq, Repr

def NextMsg.start : NextMsg → Nat
  | .transit t _ => t
  | .own t _ => t

def NextMsg.group : NextMsg → Nat
  | .transit _ x => ringGroup x.msg.typ false
  | .own _ x => ringGroup x.msg.typ true

/-- The REG cycle in which the transit buffer holds 35 words or fewer, once RING_OUT is free. -/
def insertOk (r : Ring) : Bool := decide (transitWords r r.outFree ≤ 35)

/-- The messages that wait, each with the first REG cycle in which it may start: transit words 4 REG cycles after
retiming, an own message of the last group 320 REG cycles after the one before. -/
def ringWaiting (r : Ring) : List NextMsg :=
  (r.transit.map fun x => .transit (max r.outFree (x.at_ + 4)) x) ++
    (if insertOk r then r.own.map fun (x : OwnMsg) =>
        .own (max (max r.outFree x.at_) (if ringGroup x.msg.typ true = 6 then (r.ownAt.map (· + 320)).getD 0 else 0)) x
      else [])

/-- R122: the next message: of those that can start first, the first of the first group. -/
def ringNext (r : Ring) : Option NextMsg :=
  (ringWaiting r).foldl (fun b x => match b with
    | none => some x
    | some y => if x.start < y.start ∨ (x.start = y.start ∧ x.group < y.group) then some x else b) none

/-- The words of a number's halves, least significant first. -/
def toHalves : Nat → Nat → List (BitVec 16)
  | 0, _ => []
  | n + 1, v => BitVec.ofNat 16 v :: toHalves n (v / 65536)

/-! ## Presence and links (R126, R130) -/

def presentBit (e : Engine) (i : Nat) : Bool := (reg e RING_PRESENT).getLsbD i

def setPresent (e : Engine) (i : Nat) (b : Bool) : Engine :=
  let v := rd e RING_PRESENT_PRESENT
  wr e RING_PRESENT_PRESENT
    (v - (if presentBit e i then 2 ^ i else 0) + (if b then 2 ^ i else 0))

/-- R126: bypassed positions between the upstream active engine and this one. -/
def bypassed (e : Engine) : Nat :=
  ((List.range 7).takeWhile fun k => !presentBit e ((ownIdx e + 7 - k) % 8)).length

/-- R126: the link delay in REG cycles. -/
def linkDelay (e : Engine) : Nat := 3 + 2 * bypassed e

/-- R125: a forwarding engine adds its link delay and its own forwarding latency of `k` REG cycles to ACC. -/
def forwardAcc (e : Engine) (m : RingMsg) (k : Nat) : RingMsg :=
  if m.typ = tySync then
    let acc := (nth m.payload 6 0).toNat + linkDelay e + k
    { m with payload := setNth m.payload 6 (BitVec.ofNat 16 acc) }
  else m

/-! ## Sending -/

/-- A burst stands on RING_OUT from REG cycle `t`; `buf` tells that it comes from the transit buffer. -/
def drive (e : Engine) (m : RingMsg) (t : Nat) (buf : Bool) : Engine :=
  mapRing e fun r => { r with sent := r.sent ++ [ringBurst m], outFree := t + burstLen m, outBuf := buf }

/-- What goes with the sending of an own message: a PRESENCE is on its lap, an MGMT waits for its acknowledgement
from then on (R124, R132). -/
def ownSent (e : Engine) (m : RingMsg) : Engine :=
  if m.typ = tyPresence then
    mapRing e fun r => { r with
      laps := r.laps ++ [⟨m.seq, (nth m.payload 1 0).getLsbD 0, e.clk.nominal, false⟩] }
  else if m.typ = tyMgmt then
    mapRing e fun r => { r with unacked := r.unacked.map fun (u : Unacked) =>
      if u.msg = m then { u with at_ := e.clk.nominal } else u }
  else e

/-- R125: an own TB_SYNC holds TB at the moment at which its H0 leaves. -/
def stampSync (e : Engine) (m : RingMsg) : RingMsg :=
  if m.typ = tySync then
    { m with payload := toHalves 4 (e.clk.tb / nsUnit) ++ toHalves 2 (e.clk.tb % nsUnit) ++ [0] }
  else m

/-- The next message starts. A transit message that waited for more than the 4 REG cycles of cut-through comes
from the transit buffer. -/
def ringStart (e : Engine) : NextMsg → Engine
  | .transit t x =>
    let e := mapRing e fun r => { r with transit := r.transit.erase x }
    drive e (forwardAcc e x.msg (t - x.at_)) t (decide (t > x.at_ + 4))
  | .own t x =>
    let e := mapRing e fun r => { r with
      own := r.own.erase x, ownAt := if ringGroup x.msg.typ true = 6 then some t else r.ownAt }
    ownSent (drive e (stampSync e x.msg) t false) (stampSync e x.msg)

/-- The next message may start by now; a transit message passes cut-through within the REG cycles that follow. -/
def startsNow (e : Engine) : NextMsg → Bool
  | .transit t x => decide (t ≤ max (regNow e) (x.at_ + 4))
  | .own t _ => decide (t ≤ regNow e) && ringActive e

/-- Up to `n` messages start, as R122 orders them. -/
def ringSendN : Nat → Engine → Engine
  | 0, e => e
  | n + 1, e =>
    match ringNext e.ring with
    | none => e
    | some x => if startsNow e x then ringSendN n (ringStart e x) else e

/-- R122: every message whose time has come is sent, while the ring interface drives RING_OUT. -/
def ringPump (e : Engine) : Engine :=
  if !e.pins.relayClosed && clocked e then ringSendN (e.ring.transit.length + e.ring.own.length) e else e

/-- An own message waits to be inserted. -/
def queueOwn (e : Engine) (m : RingMsg) : Engine :=
  mapRing e fun r => { r with own := r.own ++ [⟨regNow e, m⟩] }

/-- The message that an own sending makes, under the sender's next SEQ. -/
def ownMsg (e : Engine) (typ dst : Nat) (bcast : Bool) (payload : List (BitVec 16)) : RingMsg × Engine :=
  (⟨typ, ownIdx e, dst, bcast, e.ring.seq, 0, payload⟩,
   mapRing e fun r => { r with seq := (r.seq + 1) % 256 })

/-- R124: an MGMT message is sent, or waits until the last one to its destination is acknowledged. -/
def sendMgmt (e : Engine) (dst : Nat) (payload : List (BitVec 16)) : Engine :=
  if e.ring.unacked.any (fun (u : Unacked) => u.msg.dst == dst) then
    mapRing e fun r => { r with waiting := r.waiting ++ [⟨tyMgmt, ownIdx e, dst, false, 0, 0, payload⟩] }
  else
    let (m, e) := ownMsg e tyMgmt dst false payload
    mapRing (queueOwn e m) fun r => { r with unacked := r.unacked ++ [⟨m, e.clk.nominal, 0⟩] }

/-- R124: the first waiting message to a destination is sent. -/
def sendWaiting (e : Engine) (dst : Nat) : Engine :=
  match e.ring.waiting.find? fun (m : RingMsg) => m.dst == dst with
  | none => e
  | some m => sendMgmt (mapRing e fun r => { r with waiting := r.waiting.erase m }) dst m.payload

/-- The 16-bit words of an MCI message, low half first (R7). -/
def halves (ws : List Word) : List (BitVec 16) :=
  ws.flatMap fun w => [BitVec.ofNat 16 w.toNat, BitVec.ofNat 16 (w.toNat / 65536)]

/-- R510: the fragments of an MCI message, each with its header word. -/
def fragments (ident : Nat) : Nat → Nat → List (BitVec 16) → List (List (BitVec 16))
  | 0, _, _ => []
  | fuel + 1, k, ws =>
    let last := decide (ws.length ≤ 31)
    let h := BitVec.ofNat 16 (k * 8192 + (if last then 4096 else 0) + ident)
    (h :: ws.take 31) :: if last then [] else fragments ident fuel (k + 1) (ws.drop 31)

/-- An MCI message is sent to the firmware of another engine (R510). -/
def ringSendMci (e : Engine) (dst : Nat) (ws : List Word) : Engine :=
  let id := e.ring.ident
  let e := mapRing e fun r => { r with ident := (r.ident + 1) % 256 }
  (fragments id 5 0 (halves ws)).foldl (fun e p => sendMgmt e dst p) e

/-- R128: a FAULT broadcast, of which a second copy is due 1 µs later. -/
def faultBroadcast (e : Engine) (src event : Nat) : Engine :=
  if ringActive e then
    let (m, e) := ownMsg e tyFault 0 true [BitVec.ofNat 16 (src * 256 + event)]
    mapRing (queueOwn e m) fun r => { r with copies := r.copies ++ [(e.clk.nominal + usUnits 1, m)] }
  else e

/-- R130, R131: an own PRESENCE; none goes out before the nonce has been drawn (R119). -/
def broadcastPresence (e : Engine) (leaving reply : Bool) : Engine :=
  if e.ring.noNonce then e
  else
    let w := (if leaving then 1 else 0) + (if reply then 2 else 0)
    let (m, e) := ownMsg e tyPresence 0 true [BitVec.ofNat 16 e.ring.nonce, BitVec.ofNat 16 w]
    queueOwn e m

/-- A flag of RING_STATUS. -/
def ringFlag (e : Engine) (f : Fld) : Engine := sqSet e RING_STATUS [(f, 1)]

def ringFlagPeer (e : Engine) (f : Fld) (peer : Nat) : Engine :=
  sqSet e RING_STATUS [(f, 1), (RING_STATUS_PEER, peer)]

/-! ## Presence (R130–R132) -/

/-- PRESENCE from another engine. -/
def takePresence (e : Engine) (m : RingMsg) : Engine :=
  let w := nth m.payload 1 0
  if w.getLsbD 0 then setPresent e m.src false
  else
    let was := presentBit e m.src
    let e := mapRing (setPresent e m.src true) fun r => { r with beats := tput 0 r.beats m.src e.clk.nominal }
    if was then e else broadcastPresence e false true

/-- R118: the interface inserts nothing while RING_EN is 0: own messages that wait, and the laps of those that have
left, end with it (DESIGN CHOICE). -/
def ringDisabled (e : Engine) : Engine := mapRing e fun r => { r with own := [], laps := [], noNonce := false }

/-- R132: RING_EN clears, after which the interface forwards only. -/
def dupIdx (e : Engine) : Engine :=
  let e := raise (ringFlag e RING_STATUS_DUP_IDX) 0x0A .contained (synOf 5 (ownIdx e))
  ringDisabled (wr e RING_CTRL_RING_EN 0)

/-- An own PRESENCE returns and ends its own lap, or one of an engine with the same index comes. The own bit of
RING_PRESENT stays as it is (DESIGN CHOICE: R130 names the messages of other engines). -/
def ownPresence (e : Engine) (m : RingMsg) : Engine :=
  if e.ring.noNonce ∨ (nth m.payload 0 0).toNat ≠ e.ring.nonce then dupIdx e
  else
    let back := fun (l : Lap) => l.seq == m.seq
    mapRing e fun r => { r with
      laps := r.laps.filter fun l => !back l, left := r.left || r.laps.any fun l => back l && l.leave }

/-! ## Timebase synchronisation (R125–R127) -/

/-- A number from 16-bit words, least significant first. -/
def ofHalves (ws : List (BitVec 16)) : Nat :=
  match ws with
  | [] => 0
  | w :: t => w.toNat + 65536 * ofHalves t

/-- R126: the estimate that a TB_SYNC yields. -/
def takeSync (e : Engine) (m : RingMsg) : Engine :=
  let t := ofHalves (m.payload.take 4) * nsUnit + ofHalves ((m.payload.drop 4).take 2) % nsUnit
  let acc := (nth m.payload 6 0).toNat + linkDelay e
  let e := mapRing e fun r => { r with syncAt := e.clk.nominal }
  applyEstimate e (t + regPeriods e acc) (regPeriodsNs e (m.hops + 1))

/-- Time passes until the next message of RING_OUT starts, at most `n` times, while an own TB_SYNC waits. -/
def untilSync : Nat → Engine → Engine
  | 0, e => e
  | n + 1, e =>
    if e.ring.own.any fun x => x.msg.typ == tySync then
      match ringNext e.ring with
      | some x => untilSync n (ringPump (tick e (x.start * regCycle - e.clk.cyc)))
      | none => e
    else e

/-- R125, R122: TB_SYNC is sent, after the messages that go before it. -/
def sendSync (e : Engine) : Engine :=
  let (m, e) := ownMsg e tySync 0 true (List.replicate 7 0)
  let e := mapRing e fun r => { r with sentAt := e.clk.nominal, syncAt := e.clk.nominal }
  untilSync (e.ring.transit.length + e.ring.own.length + 1) (ringPump (queueOwn e m))

/-! ## Fault broadcasts (R128) -/

/-- The time after its first copy within which the second copy of a FAULT is taken as one: 1 µs, and what each copy may
wait on its way (R128, R129; DESIGN CHOICE). -/
def copyTime : Nat := usUnits 20

/-- A FAULT from another engine: recorded once for both copies, and acted on. Its contained fault is not counted
towards promotion, since a FAULT never puts the receiver into the safe state (R128; DESIGN CHOICE). -/
def takeFault (e : Engine) (m : RingMsg) : Engine :=
  let open_ := e.ring.lastFault.filter fun (p : Nat × Nat × Nat) => decide (e.clk.nominal ≤ p.2.2 + copyTime)
  let first := fun (p : Nat × Nat × Nat) => p.1 == m.src && p.2.1 == m.seq
  if open_.any first then mapRing e fun r => { r with lastFault := open_.filter fun p => !first p }
  else
    let e := mapRing e fun r => { r with lastFault := open_ ++ [(m.src, m.seq, e.clk.nominal)] }
    let w := nth m.payload 0 0
    let code := hfield w 15 8
    let e := sqSet e RING_FAULT_LOG
      [(RING_FAULT_LOG_SOURCE, code), (RING_FAULT_LOG_SRC, m.src), (RING_FAULT_LOG_EVENT, hfield w 1 0),
       (RING_FAULT_LOG_COUNT, min (rd e RING_FAULT_LOG_COUNT + 1) 3)]
    if rd e RING_CTRL_FAULT_ACT = 2 then raiseUncounted e 0x0A .contained (synOf 0xFF m.src) else e

/-! ## Management messages (R124, R510) -/

/-- 32-bit words of 16-bit ones, low half first; an odd half at the end is filled with zero. -/
def joinHalves : List (BitVec 16) → List Word
  | [] => []
  | [a] => [BitVec.ofNat 32 a.toNat]
  | a :: b :: t => BitVec.ofNat 32 (a.toNat + 65536 * b.toNat) :: joinHalves t

/-- R510: a fragment joins its message; a fragment out of order discards the partial one. -/
def takeFragment (e : Engine) (src : Nat) (p : List (BitVec 16)) : Engine :=
  let h := p.headD 0
  let k := hfield h 15 13
  let id := hfield h 7 0
  let old := e.ring.frags.find? fun (f : Frag) => f.src == src
  let e := mapRing e fun r => { r with frags := r.frags.filter fun (f : Frag) => f.src != src }
  let got : Option (List (BitVec 16)) :=
    if k = 0 then some (p.drop 1)
    else match old with
      | some f => if f.ident = id ∧ f.next = k ∧ k ≤ 4 then some (f.words ++ p.drop 1) else none
      | none => none
  match got with
  | none => e
  | some ws =>
    if hfield h 12 12 = 1 then mapRing e fun r => { r with inbox := r.inbox ++ [(src, joinHalves ws)] }
    else mapRing e fun r => { r with frags := r.frags ++ [⟨src, id, k + 1, ws⟩] }

/-- R124: an MGMT message for this engine is acknowledged, and delivered unless its SEQ repeats. -/
def takeMgmt (e : Engine) (m : RingMsg) : Engine :=
  let e := queueOwn e ⟨tyAck, ownIdx e, m.src, false, m.seq, 0, []⟩
  if e.ring.lastSeq.contains (m.src, m.seq) then e
  else
    let e := mapRing e fun r => { r with
      lastSeq := (m.src, m.seq) :: r.lastSeq.filter fun (p : Nat × Nat) => p.1 != m.src }
    takeFragment e m.src m.payload

/-- R124: an acknowledgement ends the unacknowledged MGMT to its sender, and the next one goes out. -/
def takeAck (e : Engine) (m : RingMsg) : Engine :=
  let hit := fun (u : Unacked) => u.msg.dst == m.src && u.msg.seq == m.seq
  if e.ring.unacked.any hit then
    sendWaiting (mapRing e fun r => { r with unacked := r.unacked.filter fun u => !hit u }) m.src
  else e

/-! ## Reception (R120–R122) -/

/-- R121, R122: a transit message, retimed now, joins the transit buffer of 70 words, or is dropped whole when it
would overflow it: when its length at its first word, beside the words held then, passes 70 (DESIGN CHOICE: words that leave
while it arrives are not counted). -/
def forward (e : Engine) (m : RingMsg) : Engine :=
  if transitWords e.ring (regNow e) + burstLen m > 70 then inc (ringFlag e RING_STATUS_DROP) RING_DROP_CNT
  else mapRing e fun r => { r with transit := r.transit ++ [⟨regNow e, { m with hops := m.hops + 1 }⟩] }

/-- The copy of a broadcast that an engine consumes. -/
def consumeBroadcast (e : Engine) (m : RingMsg) : Engine :=
  match m.typ with
  | 2 => takeSync e m
  | 3 => takeFault e m
  | _ => takePresence e m

/-- R121: a correct message. -/
def takeMsg (e : Engine) (m : RingMsg) : Engine :=
  if !m.bcast && m.dst == ownIdx e then
    if m.typ = tyMgmt then takeMgmt e m else takeAck e m
  else if m.src = ownIdx e then
    if m.typ = tyPresence then ownPresence e m else e
  else if m.hops = 7 then ringFlag e RING_STATUS_ORPHAN
  else if m.bcast then consumeBroadcast (forward e m) m
  else forward e m

/-- R120: consecutive valid words arrive on RING_IN. Words behind the one that LEN says is last are dropped (DESIGN
CHOICE: no rule names them). -/
def takeBurst (e : Engine) (ws : List (BitVec 16)) : Engine :=
  let len := hfield (ws.headD 0) 5 0
  if len > 32 ∨ ws.length < len + 3 then ringFlag e RING_STATUS_TRUNC
  else if nth ws (len + 2) 0 ≠ ringCrc (ws.take (len + 2)) then ringFlag e RING_STATUS_CRC
  else if typeGood (ringMsgOf ws) then takeMsg e (ringMsgOf ws)
  else ringFlag e RING_STATUS_BAD_TYPE

/-- `n` REG cycles pass, to a REG cycle's start, with what RING_OUT sends in them. -/
def regCycles (e : Engine) (n : Nat) : Engine :=
  if n = 0 then ringPump e else ringPump (tick e (n * regCycle - e.clk.cyc % regCycle))

/-- Words arrive on RING_IN, the first `wait` REG cycles on: through the closed relay, or through an interface that
is not enabled, they pass unchanged (R57, R118). `ty` tells whether TYPE belongs to the event. -/
def ringIn (e : Engine) (ty : Nat → Bool) (ws : List (BitVec 16)) (wait : Nat) : Engine :=
  if ws = [] ∨ ty (hfield (ws.headD 0) 15 13) = false then e
  else
    let e := regCycles e wait
    if ringActive e then takeBurst e ws
    else mapRing e fun r => { r with sent := r.sent ++ [ws] }

/-! ## The ring's own events -/

/-- R125, R127: this engine sends TB_SYNC. -/
def isSyncSender (e : Engine) : Bool :=
  ringActive e && !e.clk.epochInvalid && (rd e RING_CTRL_TB_MASTER == ownIdx e || e.ring.sender)

/-- R125: the period of TB_SYNC passes. -/
def syncPeriod (e : Engine) : Engine :=
  if isSyncSender e then sendSync (tickTo e (e.ring.sentAt + usUnits (rd e RING_TB_CFG_PERIOD_US)))
  else e

/-- R127: four periods pass without a TB_SYNC. `lower` says that a present engine of a lower index has a
valid epoch. -/
def syncLost (e : Engine) (lower : Bool) : Engine :=
  if ringActive e then
    let e := tickTo e (e.ring.syncAt + 4 * usUnits (rd e RING_TB_CFG_PERIOD_US))
    let e := ringFlag e RING_STATUS_TB_LOST
    let e := mapRing e fun r => { r with syncAt := e.clk.nominal }
    if !lower && !e.clk.epochInvalid then sendSync (mapRing e fun r => { r with sender := true }) else e
  else e

/-- R124: 20 µs pass without an acknowledgement from `dst`. -/
def mgmtResend (e : Engine) (dst : Nat) : Engine :=
  match e.ring.unacked.find? fun (u : Unacked) => u.msg.dst == dst with
  | none => e
  | some u =>
    if ringActive e then
      let e := tickTo e (u.at_ + usUnits 20)
      let rest := e.ring.unacked.filter fun (v : Unacked) => v.msg.dst != dst
      if u.resends < 3 then
        mapRing (queueOwn e u.msg) fun r => { r with
          unacked := rest ++ [⟨u.msg, e.clk.nominal, u.resends + 1⟩] }
      else
        mapRing (ringFlagPeer e RING_STATUS_UNREACH dst) fun r => { r with
          unacked := rest, waiting := r.waiting.filter fun (m : RingMsg) => m.dst != dst
          failed := r.failed ++ [dst] }
    else e

/-- R128: the second copy of the oldest FAULT is sent. -/
def faultRepeat (e : Engine) : Engine :=
  match e.ring.copies with
  | [] => e
  | (t, m) :: rest =>
    if ringActive e then
      mapRing (queueOwn (tickTo e t) m) fun r => { r with copies := rest }
    else e

/-- R130: the heartbeat period passes. -/
def heartbeat (e : Engine) : Engine :=
  if ringActive e then
    let e := tickTo e (e.ring.beatAt + msUnits (rd e RING_CTRL_HB_MS))
    broadcastPresence (mapRing e fun r => { r with beatAt := e.clk.nominal }) false false
  else e

/-- R131: three heartbeats of a present engine are missed. -/
def heartbeatMiss (e : Engine) (i : Nat) : Engine :=
  if ringActive e && presentBit e i then
    let e := tickTo e (tget 0 e.ring.beats i + 3 * msUnits (rd e RING_CTRL_HB_MS))
    ringFlagPeer (setPresent e i false) RING_STATUS_LEFT i
  else e

/-- R132: the oldest own PRESENCE on its lap has not returned within 100 µs. A LEAVING stays awaited (R131). -/
def presenceTimeout (e : Engine) : Engine :=
  match e.ring.laps.find? fun l => !l.late with
  | none => e
  | some l =>
    if ringActive e then
      let rest := e.ring.laps.erase l
      let e := mapRing (tickTo e (l.at_ + usUnits 100)) fun r => { r with
        laps := if l.leave then { l with late := true } :: rest else rest }
      raise (ringFlag e RING_STATUS_BROKEN) 0x0A .contained (synOf 4 (ownIdx e))
    else e

/-- The nonce is drawn as soon as the DRBG can serve, and PRESENCE goes out (R119, R320). -/
def ringNonce (e : Engine) : Engine :=
  if e.ring.noNonce = false then e
  else match drbgRequest e 2 with
    | some (b, e) => broadcastPresence (mapRing e fun r => { r with nonce := ofLE b % 65536, noNonce := false }) false false
    | none => e

/-- R130, R119: RING_EN sets: a nonce is drawn from the DRBG and PRESENCE goes out. -/
def ringEnabled (e : Engine) : Engine :=
  ringNonce (mapRing e fun r => { r with
    laps := [], noNonce := true, beatAt := e.clk.nominal, syncAt := e.clk.nominal, sentAt := e.clk.nominal })

end Sys2Proof.Machine
end

