-- ==== Sys2Proof/Machine/SecWork.lean ====
section
/-! DEFINITION. The work of firmware on the protected memory, one line after the other (R292, R312, R317, R318,
R322, R323, R595). -/

namespace Sys2Proof.Machine

/-! ## Lines that are still to be written -/

/-- The run after its first line. -/
def MemRun.rest : MemRun → Option MemRun
  | .lines next la n => if n ≤ 1 then none else some (.lines next (la + 1) (n - 1))
  | .band kind la n => if n ≤ 1 then none else some (.band kind (la + 1) (n - 1))
  | .bits first last sla n => if n ≤ 1 then none else some (.bits first last (sla + 1) (n - 1))

/-- A run of size-class lines: it writes no line of data. -/
def MemRun.isBits : MemRun → Bool
  | .bits _ _ _ _ => true
  | _ => false

/-- R292: the size-class bits of the lines from `first` to before `last` are to be cleared. -/
def bitsRun (e : Engine) (first last : Nat) : MemRun :=
  .bits first last (dataTop (gcfg e) + first / 512) ((last + 511) / 512 - first / 512)

def regionBits (e : Engine) (r : Region) : MemRun := bitsRun e (r.base * 64) ((r.limit + 1) * 64)

/-- The lines of a region, with separate pairs, as zeros. -/
def regionRuns (e : Engine) (next : Bool) (r : Region) : List MemRun :=
  [regionBits e r, .lines next (r.base * 64) (regPages r * 64)]

/-- R595: every metadata band with the contents of the boot fill. -/
def bandRuns (e : Engine) : List MemRun :=
  let g := gcfg e
  [(1, dataTop g, scRows g), (2, macArea e, g.macRows), (3, ctrArea e, g.ctrRows)].filterMap fun x =>
    if x.2.2 = 0 then none else some (.band x.1 x.2.1 (x.2.2 * sliceLines g))

/-- R595: every slot of every row below the dump band. -/
def fillRuns (e : Engine) : List MemRun :=
  let g := gcfg e
  bandRuns e ++ [(0, dataTop g), (spareBase g * sliceLines g, g.spareRows * sliceLines g)].filterMap fun x =>
    if x.2 = 0 then none else some (.lines false x.1 x.2)

def putRuns (e : Engine) (rs : List MemRun) : Engine := mapSec e fun s => { s with memRuns := s.memRuns ++ rs }

/-- The ticket of the work in hand. -/
def workTicket (e : Engine) : Option Nat :=
  match e.sec.work with
  | some (.protFirst t _ _ _ _ _) | some (.protInit t _ _) | some (.ending t _) | some (.destroy t _ _)
  | some (.sanitize t _ _) | some (.sanitizing t) => some t
  | some (.zeroize _) | some .zeroizing | some .fill | none => none

/-- The first line of the runs has entered its queue: a line of data counts as progress (R516). -/
def lineDone (e : Engine) : Engine :=
  match e.sec.memRuns with
  | [] => e
  | r :: rs =>
    let e := match r, workTicket e with
      | .lines _ _ _, some t => addProgress e t 1
      | _, _ => e
    mapSec e fun s => { s with line := none, memRuns := r.rest.toList ++ rs }

/-- The bits of some lines cleared in their size-class line. -/
def clearedBits (x : Line) (ix first last : Nat) : Line :=
  (List.range 512).foldl (fun (y : Line) i =>
    if first ≤ ix * 512 + i ∧ ix * 512 + i < last then y &&& ~~~(BitVec.ofNat 512 (2 ^ i)) else y) x

/-- The request of an engine write of zeros. -/
def zeroReq (la : Nat) : Req := { poisonReq la with poison := false }

/-- The next line is taken up: a line of data joins the write queues of the QoS stage as an engine write, and a metadata line
enters its channel's write queue as soon as it fits. -/
def lineStart (e : Engine) : MemRun → Engine
  | .lines next la _ =>
    let id := e.nextId
    mapSec (engineWrite e (curVer e + (if next then 1 else 0)) (zeroReq la)) fun s => { s with line := some id }
  | .band kind la _ => whenFits e la fun e => lineDone (queueMeta e la kind 0 0 0)
  | .bits first last sla _ =>
    let ix := sla - dataTop (gcfg e)
    if e.pack.rebuilds.contains ix then e
    else if first ≤ ix * 512 ∧ (ix + 1) * 512 ≤ last then
      if caskData e sla = some 0 then lineDone e else whenFits e sla fun e => lineDone (queueMeta e sla 1 0 0 0)
    else match caskData e sla with
      | none => requestMeta e sla
      | some x =>
        let y := clearedBits x ix first last
        if x = y then lineDone e else whenFits e sla fun e => lineDone (queueMeta e sla 1 0 0 y)

/-- One line goes on: the one on its way has entered its queue, or the next one is taken up. -/
def memRunStep (e : Engine) : Engine :=
  match e.sec.line with
  | some id => if (getTxn e id).isSome then e else lineDone e
  | none => match e.sec.memRuns with
    | [] => e
    | r :: _ => lineStart e r

/-! ## PROT_SET (R314–R318) -/

/-- The region records of a PROT_SET. -/
def protRecs (ws : List Word) : List RegRec :=
  (List.range (wordField (nth ws 1 0) 3 1)).map fun i => regRec ((ws.drop (2 + 6 * i)).take 6)

/-- The first word of the agent-set updates. -/
def updAt (ws : List Word) (j : Nat) : Nat := 2 + 6 * wordField (nth ws 1 0) 3 1 + 2 * j

/-- The agent-set updates of a PROT_SET, applied to a table of rights. -/
def protRights (ws : List Word) (t : Tbl Nat) : Tbl Nat :=
  (List.range (wordField (nth ws 1 0) 8 4)).foldl (fun t j =>
    let k := updAt ws j
    let f := wordField (nth ws k 0)
    setRights t (f 7 0) (f 27 16) (wordField (nth ws (k + 1) 0) 12 0) (f 9 8)) t

/-- R315: a record that is refused with BAD_ARG. -/
def badRec (e : Engine) (r : RegRec) : Bool :=
  r.valid && (decide (r.reg.base > r.reg.limit) || decide ((r.reg.limit + 1) * 64 > dataTop (gcfg e)) ||
    !e.sec.active.contains r.reg.ctx)

/-- The record keeps the entry: memory, mode and context. -/
def keepsEntry (recs : List RegRec) (p : Nat × Region) : Bool :=
  recs.all fun r => r.idx != p.1 || (r.valid && sameRegion p.2 r.reg)

/-- MAC_BASE and FRESH_BASE of each record's region, as the response has them. -/
def baseWords (t : Tbl Region) (recs : List RegRec) : List Word :=
  recs.flatMap fun r => match tlookup t r.idx with
    | some q => [word q.macBase, word q.freshBase]
    | none => [0, 0]

/-- A table with PAIRS_SEEN as the current table has it for the regions that both hold, and with its PACK for the entries
that no record names (R291, R293). -/
def keepSeen (e : Engine) (named : List Nat) (b : ProtBank) : ProtBank :=
  let cur := (bankOf e (curVer e)).regions
  { b with regions := b.regions.map fun (p : Nat × Region) => match tlookup cur p.1 with
      | some q => if sameRegion p.2 q then
          (p.1, { p.2 with pairsSeen := q.pairsSeen, pack := if named.contains p.1 then p.2.pack else q.pack }) else p
      | none => p }

/-- The final table stands in the other bank, and the lines of the new regions are to be written; memory that a change of
the mapping has left uninitialised is sanitized first (R104). -/
def protWrites (e : Engine) (id : Nat) (b : ProtBank) (named : List Nat) (init gone : List Region) : Engine :=
  let clean := e.sec.dirty && !(dropped b.regions (bankOf e (curVer e)).regions).isEmpty
  let e := if clean then
      putRuns (mapPack (mapSec e fun s => { s with root := [], rebuild := 0, lostCtr := [], ctrTasks := [] })
        fun p => { p with cask := [] }) (fillRuns e)
    else e
  let e := mapSec e fun s => { s with
    banks := setNth s.banks ((curVer e + 1) % 2) (keepSeen e named b)
    work := some (.protInit id gone clean) }
  putRuns e (init.flatMap (regionRuns e true))

/-- The commit of a PROT_SET (R318): in two steps where memory that it releases is to be written before a new region covers
it, with zeros or in its size-class bits (R292). -/
def protCommit (e : Engine) (id : Nat) (cur : ProtBank) (t : NewTable) (rights : Tbl Nat) (named : List Nat)
    (init : Bool) : Engine :=
  let gone := dropped cur.regions t.regions
  let made := t.created.filterMap (tlookup t.regions)
  let first := gone.filter fun r => made.any (overlaps r) && (init || r.pairsSeen)
  let later := gone.filter fun r => !made.any (overlaps r)
  let zero := if init then made else []
  let b : ProtBank := ⟨t.regions, rights⟩
  if first.isEmpty then protWrites e id b named zero later
  else
    let e := commitTable e { cur with regions := cur.regions.filter fun (p : Nat × Region) => !first.contains p.2 }
    mapSec e fun s => { s with work := some (.protFirst id b named zero first later) }

/-- A PROT_SET has its turn (R315). -/
def protStart (e : Engine) (id : Nat) (ws : List Word) : Engine :=
  let recs := protRecs ws
  let init := (nth ws 1 0).getLsbD 0
  let cur := bankOf e (curVer e)
  let kept := cur.regions.filter (keepsEntry recs)
  let rest := cur.regions.filter fun p => recs.all fun r => r.idx != p.1
  let want := rest.map (·.2) ++ (recs.filter (·.valid)).map (·.reg)
  if recs.any (badRec e) ∨ !noOverlap want then finish e id stBadArg 0 []
  else match applyRecs e cur.regions recs ⟨kept, []⟩ with
    | none => finish e id stOver 0 []
    | some t =>
      if !init ∧ (t.created.filterMap (tlookup t.regions)).any fun r => decide (r.mode ≥ 2) then
        finish e id stBadArg 0 []
      else
        let e := mapTicket { e with free := e.free + 2048 } id fun k => { k with body := baseWords t.regions recs }
        protCommit e id cur t (protRights ws cur.rights) (recs.map (·.idx)) init

/-- The last commit of a PROT_SET, once its lines are written. -/
def protLast (e : Engine) (id : Nat) (gone : List Region) (clean : Bool) : Engine :=
  let e := declare (commitTable e (bankOf e (curVer e + 1))) id
  mapSec e fun s => { s with work := some (.ending id gone), dirty := s.dirty && !clean }

/-! ## CTX_DESTROY and SANITIZE (R322, R323) -/

def destroyStart (e : Engine) (id ctx : Nat) : Engine :=
  if !e.sec.active.contains ctx then finish e id stBadArg 0 []
  else
    let b := bankOf e (curVer e)
    let gone := b.regions.filter fun p => p.2.ctx == ctx
    let e := commitTable e { b with regions := b.regions.filter fun (p : Nat × Region) => p.2.ctx != ctx }
    mapSec (declare e id) fun s => { s with work := some (.destroy id ctx (gone.map (·.2))) }

/-- An engine-local byte address, as the line that holds it; one beyond the address space has no line. -/
def lineArg (a : Nat) : Option Nat := if a < 2 ^ 44 then some (a / 64) else none

/-- BASE and LIMIT of a range that starts at word `i` of a message, as lines below `top`. -/
def rangeOf (ws : List Word) (i top : Nat) : Option (Nat × Nat) :=
  let at_ := fun j => lineArg ((nth ws j 0).toNat + (nth ws (j + 1) 0).toNat * 2 ^ 32)
  match at_ i, at_ (i + 2) with
  | some a, some b => if a ≤ b ∧ b < top then some (a, b) else none
  | _, _ => none

/-- A region covers a line of the range. -/
def rangeAssigned (e : Engine) (a b : Nat) : Bool :=
  (bankOf e (curVer e)).regions.any fun p => decide (p.2.base ≤ b / 64) && decide (a / 64 ≤ p.2.limit)

def sanitizeStart (e : Engine) (id : Nat) (ws : List Word) : Engine :=
  let w := wordField (nth ws 1 0)
  if w 16 16 = 1 then
    match rangeOf ws 2 (dataTop (gcfg e)) with
    | none => finish e id stBadArg 0 []
    | some (a, b) =>
      if rangeAssigned e a b then finish e id stBadArg 0 []
      else putRuns (mapSec e fun s => { s with work := some (.sanitizing id) }) [bitsRun e a (b + 1), .lines false a (b + 1 - a)]
  else if !e.sec.active.contains (w 11 0) then finish e id stBadArg 0 []
  else mapSec e fun s => { s with work := some (.sanitize id (w 11 0) false) }

/-- R323: the key switch, and the lines of the context's regions. CTX 0 keeps its keys. -/
def sanitizeCtx (e : Engine) (ticket ctx : Nat) : Engine :=
  let e := if ctx = 0 then e else genKeys e ctx
  let rs := ((bankOf e (curVer e)).regions.filter fun p => p.2.ctx == ctx).map (·.2)
  putRuns (mapSec (declare e ticket) fun s => { s with work := some (.sanitizing ticket) }) (rs.flatMap (regionRuns e false))

/-! ## Commands in turn -/

/-- Nothing is in hand, and no request of an old version is awaited. -/
def secFree (e : Engine) : Bool := e.sec.work.isNone && e.sec.memRuns.isEmpty && !on e CRY_PT_VER_DRAINING

/-- A command has its turn. -/
def startWork (e : Engine) (id : Nat) (ws : List Word) : Engine :=
  match (findTicket e id).map (·.op) with
  | some 0x0301 => destroyStart e id (wordField (nth ws 1 0) 11 0)
  | some 0x0302 => protStart e id ws
  | some 0x0701 => sanitizeStart e id ws
  | _ => e

/-- The next command that waits has its turn. -/
def startNext (e : Engine) : Engine :=
  match e.sec.waiting with
  | [] => e
  | (id, ws) :: rest => if secFree e then startWork (mapSec e fun s => { s with waiting := rest }) id ws else e

/-- R317: a command on the table or its memory is answered with BUSY while DRAINING is 1, else it has its turn after those
before it. -/
def secCommand (e : Engine) (id : Nat) (ws : List Word) : Engine :=
  if on e CRY_PT_VER_DRAINING then finish e id stBusy 0 []
  else startNext (mapSec e fun s => { s with waiting := s.waiting ++ [(id, ws)] })

/-! ## Zeroization (R312) -/

/-- Metadata reads on their way are forgotten. -/
def dropMetaReads (e : Engine) : Engine :=
  let e := mapPack e fun p => { p with
    want := [], rets := p.rets.filter (fun (r : Ret) => r.use != .metaRead), rebuilds := [], rebuild := none }
  e.chans.foldl (fun e p =>
    let c := getChan e p.1
    if c.rq.any fun r => r.uses.contains .metaRead then
      putChan e p.1 { c with rq := c.rq.map fun (r : RqEntry) => { r with uses := r.uses.filter (· != .metaRead) } }
    else e) e

/-- R312 steps 2 and 3: the new CTX 0, an empty Cask, and the bands to be written. -/
def zeroizeKeys (e : Engine) : Engine :=
  let e := dropMetaReads (mapPack (activate (genKeys e 0) 0) fun p => { p with cask := [] })
  putRuns (mapSec e fun s => { s with
    root := [], rebuild := 0, lostCtr := [], ctrTasks := [], work := some .zeroizing }) (bandRuns e)

/-- R312 step 4. -/
def zeroizeEnd (e : Engine) : Engine :=
  let e := sqSet (mapSec e fun s => { s with zeroized := false, work := none }) CRY_STATUS [(CRY_STATUS_ZEROIZED, 1)]
  raise e 0x0C .contained (synOf CRY_STATUS_ZEROIZED.lo 0)

/-! ## The work goes on -/

/-- The firmware of the work in hand runs: the boot's and SANITIZE's is Mulum (R484, R593), and a key switch needs both. -/
def workRuns (e : Engine) : Bool :=
  match e.sec.work with
  | some .fill | some (.sanitizing _) => pairRuns e 0
  | some (.sanitize _ _ _) => pairRuns e 0 && pairRuns e 1
  | _ => pairRuns e 1

/-- A SANITIZE past its key switch writes its lines in hardware (R480). -/
def runsInHardware (e : Engine) : Bool :=
  match e.sec.work with
  | some (.sanitizing t) => (findTicket e t).any (·.declared)
  | _ => false

/-- The ticket of the work in hand is to stop at its next line. -/
def workAborts (e : Engine) : Bool :=
  match e.sec.work with
  | some (.protFirst t _ _ _ _ _) | some (.protInit t _ _) | some (.sanitize t _ _) | some (.sanitizing t) => isAborting e t
  | _ => false

/-- The work ends without its further lines; the size-class bits of released memory are cleared all the same (R292). -/
def dropWork (e : Engine) : Engine :=
  let late := match e.sec.work with
    | some (.protFirst _ _ _ _ gone _) => gone.map (regionBits e)
    | _ => []
  mapSec e fun s => { s with work := none, memRuns := s.memRuns.filter (·.isBits) ++ late }

/-- R320: a key generation of the work waits for entropy, flagged once. -/
def workWaits (e : Engine) (w : SecWork) : Engine :=
  sqSet (mapSec e fun s => { s with work := some w }) CRY_STATUS [(CRY_STATUS_ENT_WAIT, 1)]

/-- What follows once the lines of the work are written. -/
def workStep (e : Engine) : Engine :=
  match e.sec.work with
  | none => startNext e
  | some (.protFirst t b named init gone later) => protWrites (putRuns e (gone.map (regionBits e))) t b named init later
  | some (.protInit t gone clean) => protLast e t gone clean
  | some (.ending t (r :: rs)) => putRuns (mapSec e fun s => { s with work := some (.ending t []) }) ((r :: rs).map (regionBits e))
  | some (.ending t []) =>
    let body := match findTicket e t with | some k => k.body | none => []
    finish (mapSec e fun s => { s with work := none }) t stOk (curVer e) body
  | some (.destroy t ctx rs) => mapSec e fun s => { s with
      work := some (.ending t rs), active := s.active.filter (· != ctx), keys := tput noKeys s.keys ctx noKeys }
  | some (.sanitize t ctx waited) =>
    if seedReady e || ctx == 0 then sanitizeCtx e t ctx
    else if waited then e else workWaits e (.sanitize t ctx true)
  | some (.sanitizing t) => finish (mapSec e fun s => { s with work := none }) t stOk 0 []
  | some (.zeroize waited) =>
    let e := mapSec e fun s => { s with active := [] }
    if seedReady e then zeroizeKeys e else if waited then e else workWaits e (.zeroize true)
  | some .zeroizing => zeroizeEnd e
  | some .fill => { mapSec e (fun s => { s with work := none }) with boot := { e.boot with stage := 11 } }

/-- Firmware goes on with its work: one line, or what follows the last one; nothing while the requests of an old version are
awaited (R317). -/
def secContinue (e : Engine) : Engine :=
  let e := if on e CRY_PT_VER_DRAINING && drained e && pairRuns e 1 then wr e CRY_PT_VER_DRAINING 0 else e
  if on e CRY_PT_VER_DRAINING || isSafe e || !(workRuns e || runsInHardware e) then e
  else
    let e := if (e.sec.line.bind (getTxn e)).isNone && e.sec.line.isSome then lineDone e else e
    if e.sec.line.isSome then e
    else if workAborts e then
      let t := (workTicket e).getD 0
      finish (dropWork e) t stAborted 0 []
    else if !e.sec.memRuns.isEmpty then memRunStep e
    else if workRuns e then workStep e
    else e

/-- R320: a context creation that waits has its turn. -/
def waitingKey (e : Engine) : Engine :=
  match e.sec.waitKey with
  | [] => e
  | (tk, ctx, _) :: rest => finish (activate (genKeys (mapSec e fun s => { s with waitKey := rest }) ctx) ctx) tk stOk 0 []

/-- DRBG_RESEED: the DRBG takes its first seed, its periodic reseed, or the reseed of a waiting key generation, which then
completes (R320). -/
def drbgReseedCmd (e : Engine) : Engine :=
  if clocked e && seedReady e then
    if keyWork e then secContinue e
    else if !e.sec.waitKey.isEmpty then (if pairRuns e 1 then waitingKey e else e)
    else if !e.sec.drbg.seeded || decide (e.sec.drbg.count ≥ 65536) then drbgReseed e
    else e
  else e

/-- R480, R538: the work of a pair that lost it: what is past its commit or its key switch, the recovery from a zeroization
and the boot's fill go on. -/
def cutWork (e : Engine) (p : Nat) : Engine :=
  let e := mapSec e fun s => { s with waiting := s.waiting.filter fun w => (findTicket e w.1).isSome }
  match e.sec.work with
  | some (.protFirst _ _ _ _ gone _) => if p = 0 then e else mapSec e fun s => { s with work := some (.ending 0 gone) }
  | some (.protInit _ _ _) => if p = 0 then e else dropWork e
  | some (.sanitize _ _ _) => if p = 0 then dropWork e else e
  | some (.sanitizing _) => if p = 1 ∨ runsInHardware e then e else dropWork e
  | _ => e

/-- ZEROIZE_RECOVERY: an empty table is committed; the rest follows once the old version's requests have completed. Work that
MC2/MC3 had in hand ends with ABORTED. -/
def zeroizeRecovery (e : Engine) : Engine :=
  let e := secContinue e
  if pairRuns e 1 && e.sec.zeroized && !on e CRY_PT_VER_DRAINING && !isSafe e && e.sec.work != some (.zeroize false) &&
      e.sec.work != some (.zeroize true) && e.sec.work != some .zeroizing then
    let e := match workTicket e with
      | some t => finish e t stAborted 0 []
      | none => e
    let b := bankOf e (curVer e)
    let e := commitTable e { b with regions := [] }
    mapSec e fun s => { s with work := some (.zeroize false), memRuns := [], line := none }
  else e

end Sys2Proof.Machine
end

