-- ==== Sys2Proof/Machine/Cores.lean ====
section
/-! DEFINITION. The management cores, mailboxes and semaphores (R475–R501), and the interrupt and fault
outputs (R49, R50, R489, R492, R535). -/

namespace Sys2Proof.Machine

/-! ## Outputs -/

/-- The engine interrupt sources that are pending (R492). -/
def irqPending (e : Engine) (s : Nat) : Bool :=
  match s with
  | 0 => on e FLT_STATUS_CE || on e FLT_STATUS_CONT || on e FLT_STATUS_FATAL ||
      (on e FLT_CTRL_MODE && (List.range 0x50).any fun s => on e (FLT_SRC_STATUS_PEND s))
  | 1 => on e QOS_DEGRADED_DEGRADED
  | 2 => rd e QOS_MISS_STATUS_CLASSES != 0
  | 3 => (List.range 16).any fun k => on e (TEL_WM_STATUS_NOTICE k)
  | 4 => on e GC_SPARE_STATUS_DONE
  | _ => rd e RING_FAULT_LOG_COUNT != 0 && rd e RING_CTRL_FAULT_ACT != 0

/-- MBX_IRQ_SRC: every pending source (R492). -/
def irqSrc (e : Engine) : Nat :=
  (List.range 6).foldl (fun m s => m + if irqPending e s then 2 ^ s else 0) 0

/-- A mailbox's empty or message indication is pending (R489). -/
def boxIrq (e : Engine) (m : Nat) : Bool :=
  (reg e (MBX_IRQ_EMPTY (m / 32))).getLsbD (m % 32) || (reg e (MBX_IRQ_MSG (m / 32))).getLsbD (m % 32)

/-- The core supplies keep the interrupt outputs: every line is low in OFF and in reset (R49). -/
def poweredUp (e : Engine) : Bool :=
  e.pins.supply && e.pins.engPresent && !e.pins.porst && !e.pins.srst && !e.clk.lost &&
    rd e PWR_STATE_STATE != 4

/-- IRQ[k] (R49, R489, R492). -/
def irqLine (e : Engine) (k : Nat) : Bool :=
  poweredUp e &&
    ((List.range 6).any (fun s => (reg e MBX_IRQ_EN).getLsbD s &&
        rd e ⟨MBX_IRQ_ROUTE, 3 * s + 2, 3 * s⟩ == k && irqPending e s) ||
      (List.range 64).any fun m => on e (MBX_BIND_VALID m) && rd e (MBX_BIND_IRQ m) == k && boxIrq e m)

/-- ERR_N is pulled low (R50, R436, R535); with ENG_PRESENT low, or in a reset by a pin, it is released (R37, R64). -/
def errLow (e : Engine) : Bool :=
  (e.clk.lost && e.pins.engPresent && !e.pins.porst && !e.pins.srst) || (poweredUp e && (irqPending e 0 || isSafe e || on e FLT_STATUS_SELF))

/-- REG_AVAIL (R47): REG_CLK runs and the register block accepts accesses. In a wake it rises at the end of the logic
stage, 64 REG cycles after lock (R465). -/
def regAvail (e : Engine) : Bool := clocked e

/-- REFCLK_REQ (R54, R64), which PD_AON drives: low only in SLEEP, DEEP and OFF until a wake. -/
def refclkReq (e : Engine) : Bool :=
  !(decide (rd e PWR_STATE_STATE ≥ 2) && e.pwr.wake.isNone && e.clk.root == .stopped)

/-! ## Pairs (R475–R481) -/

def mapCore (e : Engine) (p : Nat) (f : Core → Core) : Engine :=
  { e with cores := setNth e.cores p (f (nth e.cores p ⟨0, none, false, 0⟩)) }

/-- Flags of MBX_STATUS with the mailbox or semaphore, or the pair, of the most recent one (R500). -/
def boxFlag (e : Engine) (f : Fld) (i : Nat) : Engine := sqSet e MBX_STATUS [(f, 1), (MBX_STATUS_INDEX, i)]
def coreFlag (e : Engine) (f : Fld) (p : Nat) : Engine := sqSet e MBX_STATUS [(f, 1), (MBX_STATUS_PAIR, p)]

/-! ## Mailboxes (R482–R491) -/

/-- Which port makes an access (R47, R481): the register port, or the internal port of a pair. -/
def portPair : RegPort → Option Nat
  | .ext => none
  | .mc01 => some 0
  | .mc23 => some 1

def boxState (e : Engine) (m : Nat) : Nat := rd e (MBX_MB_STATE_STATE m)

/-- A bit of a per-mailbox register pair. -/
def setBoxBit (e : Engine) (f : Nat → Nat) (m : Nat) (b : Bool) : Engine :=
  let a := f (m / 32)
  setReg e a (setWordField (reg e a) (m % 32) (m % 32) (bit b))

/-- The state of a mailbox changes; IRQ_MSG follows it, and a claim's time starts with a WRITING state. -/
def setBox (e : Engine) (m s : Nat) : Engine :=
  let e := setBoxBit (wr e (MBX_MB_STATE_STATE m) s) MBX_IRQ_MSG m (s == 4)
  let t := if s = 1 ∨ s = 3 then e.clk.nominal else 0
  { e with mci := { e.mci with claims := tput 0 e.mci.claims m t } }

/-- A message is delivered (R498). -/
def deliverBox (e : Engine) (m s : Nat) : Engine := addF (setBox e m s) (MBX_MB_STATE_MSG_CNT m) 1

/-- R587: MB0 is the boot mailbox, whose core end is the boot ROM on MC2/MC3. -/
def bootBox (e : Engine) (m : Nat) : Bool :=
  m == 0 && !on e MBX_CTRL_LOCK && !on e (MBX_BIND_VALID 0)

/-- The mailbox is bound, or serves the boot (R482, R587). -/
def boxUsable (e : Engine) (m : Nat) : Bool := on e (MBX_BIND_VALID m) || bootBox e m

/-- The pair at the core end. -/
def boxCore (e : Engine) (m : Nat) : Nat := if bootBox e m then 1 else rd e (MBX_BIND_CORE m)

/-- The access is made by an end of the mailbox: true the core end, false the host end (R481, R483). -/
def boxEnd (e : Engine) (m : Nat) (p : RegPort) : Option Bool :=
  match portPair p with
  | none => some false
  | some k => if boxCore e m = k then some true else none

/-- R485: a payload write. -/
def boxWrite (e : Engine) (m w : Nat) (p : RegPort) (v : Word) : Engine :=
  if boxUsable e m = false then boxFlag e MBX_STATUS_UNBOUND m
  else match boxEnd e m p, boxState e m with
    | some false, 0 => setReg (setBox e m 1) (MBX_MB_D m w) v
    | some true, 0 => setReg (setBox e m 3) (MBX_MB_D m w) v
    | some false, 1 => setReg e (MBX_MB_D m w) v
    | some true, 3 => setReg e (MBX_MB_D m w) v
    | _, _ => boxFlag e MBX_STATUS_WR_DENIED m

/-- R512: the record that a host consumes is remembered by its TAG where it ended a ticket. -/
def rememberTag (e : Engine) (r : Rec) : Engine :=
  if r.ticket then
    match getSession e r.box with
    | some s => putSession e r.box (some { s with recent := (r.tag :: s.recent.filter (· != r.tag)).take 8 })
    | none => e
  else e

/-- CONSUME by an end (R485). -/
def boxConsume (e : Engine) (m : Nat) (p : RegPort) : Engine :=
  match boxEnd e m p, boxState e m with
  | some false, 4 =>
    let e := match tget none e.mci.inBox m with
      | some r => rememberTag e r
      | none => e
    setBox { e with mci := { e.mci with inBox := tput none e.mci.inBox m none } } m 0
  | some true, 2 => setBoxBit (setBox e m 0) MBX_IRQ_EMPTY m true
  | _, _ => boxFlag e MBX_STATUS_WR_DENIED m

/-- RING by the core end (R485). -/
def boxRing (e : Engine) (m : Nat) (p : RegPort) : Engine :=
  match boxEnd e m p, boxState e m with
  | some true, 3 => deliverBox e m 4
  | _, _ => boxFlag e MBX_STATUS_DB_REFUSED m

/-- RELEASE by the claiming end (R485). -/
def boxRelease (e : Engine) (m : Nat) (p : RegPort) : Engine :=
  match boxEnd e m p, boxState e m with
  | some false, 1 => setBox e m 0
  | some true, 3 => setBox e m 0
  | _, _ => boxFlag e MBX_STATUS_WR_DENIED m

/-- The first stored record of a mailbox. -/
def nextRec (e : Engine) (m : Nat) : Option Rec := e.mci.records.find? fun (r : Rec) => r.box == m

/-- R512: firmware copies the next stored record into an EMPTY mailbox and rings; a record for another
engine's firmware goes over the ring (R510), where its sending counts as its consumption (DESIGN CHOICE: the spec names no
CONSUME of a ring session). -/
def deliverRec (e : Engine) (m : Nat) : Engine :=
  match nextRec e m with
  | none => e
  | some r =>
    let drop := fun (e : Engine) => { e with mci := { e.mci with records := e.mci.records.erase r } }
    if m ≥ 64 then
      if ringActive e then rememberTag (ringSendMci (drop e) (m - 64) r.words) r else e
    else if boxState e m = 0 ∧ boxUsable e m then
      let e := r.words.zipIdx.foldl (fun e p => setReg e (MBX_MB_D m p.2) p.1) (drop e)
      let e := { e with mci := { e.mci with inBox := tput none e.mci.inBox m (some r) } }
      deliverBox e m 4
    else e

/-- DOORBELL (R48, R485, R488). -/
def doorbell (e : Engine) (m : Nat) : Engine :=
  if regAvail e = false then e
  else if boxUsable e m = false then boxFlag e MBX_STATUS_UNBOUND m
  else if boxState e m = 1 then deliverBox e m 2
  else boxFlag e MBX_STATUS_DB_REFUSED m

/-- CLAIM_EXPIRY (R487). -/
def claimExpiry (e : Engine) (m : Nat) : Engine :=
  if clocked e ∧ (boxState e m = 1 ∨ boxState e m = 3) then
    let e := tickTo e (tget 0 e.mci.claims m + msUnits (rd e MBX_CTRL_CLAIM_TO))
    boxFlag (setBox e m 0) MBX_STATUS_CLAIM_EXPIRED m
  else e

/-- R490: an AgentReset changes a mailbox of the agent. -/
def boxAgentReset (e : Engine) (m : Nat) : Engine :=
  let e := match boxState e m with
    | 1 => setBox e m 0
    | 4 => setBox { e with mci := { e.mci with inBox := tput none e.mci.inBox m none } } m 0
    | _ => e
  setBoxBit e MBX_IRQ_EMPTY m false

/-- The mailboxes bound to an agent. -/
def agentBoxes (e : Engine) (a : Nat) : List Nat :=
  (List.range 64).filter fun m => on e (MBX_BIND_VALID m) && rd e (MBX_BIND_AGENT m) == a

/-! ## Semaphores (R493–R497) -/

/-- R495: a semaphore that the identity holds is released and marked as abandoned. -/
def semAbandon (kind id cause : Nat) (e : Engine) (s : Nat) : Engine :=
  if on e (MBX_SEM_HELD s) ∧ rd e (MBX_SEM_KIND s) = kind ∧ rd e (MBX_SEM_OWNER s) = id then
    setReg e (MBX_SEM s) (setFields 0
      [(MBX_SEM_ABANDONED s, 1), (MBX_SEM_CAUSE s, cause), (MBX_SEM_PREV_KIND s, kind),
       (MBX_SEM_PREV_OWNER s, id)])
  else e

def semAbandonAll (e : Engine) (kind id cause : Nat) : Engine :=
  (List.range 64).foldl (semAbandon kind id cause) e

/-- The actions of R494. -/
inductive SemAct where
  | acq | rel | clrAbn
  deriving DecidableEq, Repr

/-- R494: one action by an identity. -/
def semAct (e : Engine) (s kind id : Nat) (a : SemAct) : Engine :=
  let held := on e (MBX_SEM_HELD s)
  let mine := held && rd e (MBX_SEM_KIND s) == kind && rd e (MBX_SEM_OWNER s) == id
  match a with
  | .acq =>
    if held = false then
      setReg e (MBX_SEM s) (setFields (reg e (MBX_SEM s))
        [(MBX_SEM_HELD s, 1), (MBX_SEM_KIND s, kind), (MBX_SEM_OWNER s, id)])
    else if mine then e
    else inc e MBX_CNT_SEM_FAIL
  | .rel =>
    if mine then setReg e (MBX_SEM s) (setFields (reg e (MBX_SEM s))
        [(MBX_SEM_HELD s, 0), (MBX_SEM_KIND s, 0), (MBX_SEM_OWNER s, 0)])
    else boxFlag e MBX_STATUS_SEM_NOT_OWNER s
  | .clrAbn =>
    if mine then setReg e (MBX_SEM s) (setFields (reg e (MBX_SEM s))
        [(MBX_SEM_ABANDONED s, 0), (MBX_SEM_CAUSE s, 0), (MBX_SEM_PREV_KIND s, 0),
         (MBX_SEM_PREV_OWNER s, 0)])
    else boxFlag e MBX_STATUS_SEM_NOT_OWNER s

/-- R493, R494: a write to MBX_SEMs_OP: one action, under the written identity or that of the pair. -/
def semOp (e : Engine) (s : Nat) (p : RegPort) (w : Word) : Engine :=
  let k := wordField w 12 12
  match portPair p with
  | none =>
    if k = 1 then boxFlag e MBX_STATUS_SEM_FOREIGN s
    else match w.getLsbD 31, w.getLsbD 30, w.getLsbD 29 with
      | true, false, false => semAct e s 0 (wordField w 11 0) .acq
      | false, true, false => semAct e s 0 (wordField w 11 0) .rel
      | false, false, true => semAct e s 0 (wordField w 11 0) .clrAbn
      | _, _, _ => boxFlag e MBX_STATUS_WR_DENIED s
  | some q =>
    match w.getLsbD 31, w.getLsbD 30, w.getLsbD 29 with
    | true, false, false => semAct e s 1 q .acq
    | false, true, false => semAct e s 1 q .rel
    | false, false, true => semAct e s 1 q .clrAbn
    | _, _, _ => boxFlag e MBX_STATUS_WR_DENIED s

/-! ## Core faults (R478, R479) -/

/-- The engine enters the safe state because a pair cannot run (R479); `flag` is the flag's bit, 0xFF for none. -/
def coreStopped (e : Engine) (p flag : Nat) : Engine :=
  reportFault (wr e (pairField p) 3) 0x09 .fatal false (synOf flag p) 4

/-- R478, R479: a core fault of a pair, by its flag. -/
def coreFault (e : Engine) (p : Nat) (f : Fld) : Engine :=
  let e := wr e (pairField p) 2
  let e := semAbandonAll e 1 p 2
  let e := (List.range 64).foldl (fun e m =>
    if boxState e m = 3 ∧ boxCore e m = p then setBox e m 0 else e) e
  let e := raise (coreFlag e f p) 0x09 .contained (synOf f.lo p)
  match (nth e.cores p ⟨0, none, false, 0⟩).restarted with
  | some t => if e.clk.nominal ≤ t + msUnits 1000 then coreStopped e p f.lo else e
  | none => e

/-- The pair can suffer a core fault: it is not restarting, stopped or unclocked. -/
def coreLive (e : Engine) (p : Nat) : Bool :=
  clocked e && decide (rd e (pairField p) ≤ 1) && (nth e.cores p ⟨0, none, false, 0⟩).released

/-- CORE_WATCHDOG_EXPIRY (R478): it counts while the pair is not halted. -/
def coreWatchdog (e : Engine) (p : Nat) : Engine :=
  if coreLive e p ∧ pairRuns e p then
    let e := tickTo e ((nth e.cores p ⟨0, none, false, 0⟩).kick + msUnits (10 * rd e MBX_CTRL_CORE_WD))
    coreFault e p MBX_STATUS_CORE_WD
  else e

/-- The watchdog of a pair stands still, or goes on: while it stands, its field holds the time that it has counted. -/
def swapKick (e : Engine) (p : Nat) : Engine := mapCore e p fun c => { c with kick := e.clk.nominal - c.kick }

/-- R478: a pair restarts its own watchdog. -/
def coreKick (e : Engine) (p : Nat) : Engine := mapCore e p fun c => { c with kick := e.clk.nominal }

/-! ## Staged images (R515, R524) -/

/-- The image in a stage: header and LEN bytes of payload; the last word may be padded. -/
def stageImage (s : FwStage) : List Byte :=
  let n := 260 + ofLE (((s.bytes.drop 12).take 4).map (·.toNat))
  if n ≤ s.bytes.length ∧ s.bytes.length < n + 4 then s.bytes.take n else s.bytes

/-- A verified image of the KIND that its command names (R339). -/
def verifyStage (s : FwStage) : Option Image :=
  match verifyImage (stageImage s) with
  | some i => if i.kind = s.kind then some i else none
  | none => none

def putFwStage (e : Engine) (s : Option FwStage) : Engine := { e with boot := { e.boot with stageBuf := s } }

/-- The end of the verification that END asks for. -/
def stageEnd (e : Engine) (id : Nat) (s : FwStage) : Engine :=
  match verifyStage s with
  | some i =>
    let e := putFwStage e (some { s with verified := some i.svn })
    finish (setProgress e id (stageImage s).length) id stOk 0 [word i.svn]
  | none => finish (putFwStage e none) id stDenied 0 [0]

/-- Firmware verifies the staged image as END asks, 64 KiB of it in a step (DESIGN CHOICE: R515 bounds the time alone), and
ends the command behind the last byte; a verification whose ticket or stage is gone ends. -/
def stageVerify (e : Engine) : Engine :=
  match e.mci.verify with
  | none => e
  | some id =>
    let stop := fun (e : Engine) => mapMci e fun m => { m with verify := none }
    match findTicket e id, e.boot.stageBuf with
    | some t, some s =>
      let n := (stageImage s).length
      if !pairRuns e 0 then e
      else if t.progress < n then setProgress e id (min n (t.progress + 2 ^ 16))
      else stageEnd (stop e) id s
    | _, _ => stop e

end Sys2Proof.Machine
end

