-- ==== Sys2Proof/Machine/Power.lean ====
section
/-! DEFINITION. Resets and bring-up of the clocks (R434–R439, R469), and the power states: requests,
handshake, entry steps, reversal and wake (R451–R474). -/

namespace Sys2Proof.Machine

/-! ## Resets (R436–R439) -/

/-- R437, R448, R470: a reset of the core domain: AON keeps Kiln, its calibration period, the next bin, the
reset causes and its own status, and the pins stay as they are driven. -/
def coreReset (e : Engine) : Engine :=
  let e := kilnSync e
  let keep := fun (x : Engine) (a : Nat) => setReg x a (reg e a)
  let x := [PWR_BIN_NEXT, PWR_RESET_CAUSE, PWR_KILN_PER, PWR_AON_STATUS].foldl keep engineReset
  { x with
    pins := { engineReset.pins with
      engPresent := e.pins.engPresent, porst := e.pins.porst, srst := e.pins.srst
      wake := e.pins.wake, supply := e.pins.supply }
    clk := { engineReset.clk with kiln := e.clk.kiln, cyc := e.clk.cyc }
    free := e.free }

/-- R449: a cause of a reset adds its bit. -/
def resetCause (e : Engine) (f : Fld) : Engine := sqSet e PWR_RESET_CAUSE [(f, 1)]

/-- Nothing holds the core in reset. -/
def released (e : Engine) : Bool :=
  e.pins.supply && e.pins.engPresent && !e.pins.porst && !e.pins.srst && !e.clk.lost

/-- R435, R439 step 2: the PLL starts with the multiplier of BIN_NEXT. -/
def startPll (e : Engine) : Engine :=
  if released e then
    mapClk e fun c => { c with root := .starting, bin := rd e PWR_BIN_NEXT_BIN_NEXT }
  else e

/-- PORST_ASSERT (R55, R437, R449). -/
def porstAssert (e : Engine) : Engine :=
  { engineReset with
    pins := { engineReset.pins with
      engPresent := e.pins.engPresent, srst := e.pins.srst, wake := e.pins.wake, supply := e.pins.supply }
    free := e.free }

/-- PORST_RELEASE (R439, R469): it waits for every PWR_OK. What still holds the core in reset is a cause (R449). -/
def porstRelease (e : Engine) : Engine :=
  if e.pins.porst && e.pins.supply then
    let e := { e with pins := { e.pins with porst := false } }
    let e := if e.pins.engPresent then e else resetCause e PWR_RESET_CAUSE_ABSENT
    startPll (if e.pins.srst then resetCause e PWR_RESET_CAUSE_SRST else e)
  else e

/-- SRST_ASSERT (R55, R437). -/
def srstAssert (e : Engine) : Engine :=
  let e := coreReset { e with pins := { e.pins with srst := true } }
  if e.pins.supply && !e.pins.porst then resetCause e PWR_RESET_CAUSE_SRST else e

/-- SRST_RELEASE (R439). -/
def srstRelease (e : Engine) : Engine :=
  if e.pins.srst then startPll { e with pins := { e.pins with srst := false } } else e

/-- ENG_PRESENT_LOW (R37); a lost clock stays lost (R436). -/
def engPresentLow (e : Engine) : Engine :=
  let lost := e.clk.lost
  let e := coreReset { e with pins := { e.pins with engPresent := false } }
  let e := mapClk e fun c => { c with lost := lost }
  if e.pins.supply && !e.pins.porst then resetCause e PWR_RESET_CAUSE_ABSENT else e

/-- A clock loss can be raised now (R436): the monitor watches REFCLK_100 while REFCLK_REQ is high, the lock detector the
PLL once it has locked. -/
def canLoseClock (e : Engine) (ref : Bool) : Bool :=
  e.pins.supply && !e.pins.porst && (if ref then refclkReq e else e.clk.root == .locked)

/-- CLOCK_LOSS (R436): `ref` for the REFCLK monitor, else the lock detector. -/
def clockLoss (e : Engine) (ref : Bool) : Engine :=
  if canLoseClock e ref then
    let e := resetCause (coreReset e) (if ref then PWR_RESET_CAUSE_REF_LOSS else PWR_RESET_CAUSE_LOCK_LOST)
    mapClk e fun c => { c with lost := !e.pins.srst }
  else e

/-- PLL_LOCK (R439 steps 3–6): the dividers and TB start, and 64 REG cycles later every domain has left
reset with every enable at 0. -/
def pllLock (e : Engine) : Engine :=
  if e.clk.root = .starting ∧ released e then
    let e := mapClk (kilnInReset e) startDividers
    let e := tick { e with pins := { e.pins with relayClosed := false } } (64 * regCycle)
    mapCore e 1 fun c => { c with released := true, kick := e.clk.nominal }
  else e

/-- SUPPLIES_RISE (R469): the switches close only while ENG_PRESENT is high. -/
def suppliesRise (e : Engine) : Engine :=
  if e.pins.porst && e.pins.engPresent then { e with pins := { e.pins with supply := true } } else e

/-- SUPPLY_LOSS (R56): a loss of power outside SLEEP and DEEP. -/
def supplyLoss (e : Engine) : Engine :=
  let e := porstAssert e
  { e with pins := { e.pins with supply := false, porst := e.pins.porst } }

/-! ## The controller (R455–R462) -/

def pwrState (e : Engine) : Nat := rd e PWR_STATE_STATE
def inTrans (e : Engine) : Bool := on e PWR_STATE_TRANS
def pwrStep (e : Engine) : Nat := rd e PWR_STATE_STEP
def pwrTarget (e : Engine) : Nat := rd e PWR_STATE_TARGET

def mapPwr (e : Engine) (f : Pwr → Pwr) : Engine := { e with pwr := f e.pwr }

/-- A flag of PWR_HS_STATUS. -/
def hsFlag (e : Engine) (f : Fld) : Engine := sqSet e PWR_HS_STATUS [(f, 1)]

/-- The tickets of the transition complete with its status, the state `s` reached and the completed steps. -/
def endTicketsAt (e : Engine) (st s : Nat) : Engine :=
  let ts := e.pwr.tickets
  let n := e.pwr.done
  let e := mapPwr e fun p => { p with tickets := [] }
  ts.foldl (fun e t => finish (setProgress e t n) t st s []) e

def endTickets (e : Engine) (st : Nat) : Engine := endTicketsAt e st (pwrState e)

/-- The pending request leaves the slot with a status. -/
def dropPending (e : Engine) (st : Nat) : Engine :=
  let t := e.pwr.pend
  let e := setReg e PWR_STATE (setFields (reg e PWR_STATE) [(PWR_STATE_PENDING, 0), (PWR_STATE_PEND_VALID, 0)])
  let e := mapPwr e fun p => { p with pend := none }
  match t with
  | some i => finish e i st (pwrState e) []
  | none => e

/-- R90: CreditRecall on a port; ingress stops returning credits. -/
def recallPort (e : Engine) (p : Nat) : Engine :=
  if portEnabled e p then
    let v := getPort e p
    let k : OutPkt :=
      { cls := 0, op := 0x46, agent := 0, tag := 0, bitag := 0, la := 0, devload := 0, err := none
        poison := false, grant := 0, data := 0, txn := none, qc := 0 }
    putPort e p { v with outq := v.outq ++ [k], stopped := true, recallAt := some e.clk.nominal }
  else e

def recallAll (e : Engine) : Engine := (List.range 128).foldl recallPort e

/-- Every enabled port has yielded (R90). -/
def allYielded (e : Engine) : Bool :=
  (List.range 128).all fun p => !portEnabled e p || (getPort e p).recallAt.isNone

/-- R512: records whose mailbox is EMPTY are copied before the cores stop. -/
def deliverAll (e : Engine) : Engine := (List.range 64).foldl deliverRec e

/-- The controller stands at a step; with it the step's own first actions are taken: the credit recall of
step 2 (R90), the LEAVING lap of step 5 (R131), and the completion record at the start of steps 6 and 8 (R458). -/
def enterStep (e : Engine) (k : Nat) : Engine :=
  let e := wr e PWR_STATE_STEP k
  let e := mapPwr e fun p => { p with agreed := [], reask := [] }
  let e := traceRec e 4 k (reg e PWR_STATE)
  if k = 2 then recallAll e
  else if k = 5 then
    if ringActive e then
      broadcastPresence (mapRing e fun r => { r with left := false }) true false
    else e
  else if k = 6 ∨ k = 8 then deliverAll (endTicketsAt e stOk (pwrTarget e))
  else e

/-- R463, R478: a pair halts or goes on; its watchdog stands still while it is halted. -/
def idlePair (e : Engine) (p : Nat) (halt : Bool) : Engine :=
  if rd e (pairField p) = bit (!halt) then
    let e := if nth e.dbg.halted p false then e else swapKick e p
    wr e (pairField p) (bit halt)
  else e

/-- Firmware runs again: IDLE is left (R463). -/
def leaveIdle (e : Engine) : Engine := idlePair (idlePair e 0 false) 1 false

/-- A transition of the controller starts towards `t` from SLEEP or DEEP: a wake, or a further entry step. -/
def beginTrans (e : Engine) (t : Nat) : Engine :=
  let cur := pwrState e
  let e := setReg e PWR_STATE (setFields (reg e PWR_STATE) [(PWR_STATE_TARGET, t), (PWR_STATE_TRANS, 1)])
  let e := mapPwr e fun p => { p with
    done := 0, delay := [], agreed := [], reask := [], rollAt := none, reverse := none }
  if cur = 2 ∨ cur = 3 then
    if t > cur then enterStep e (if t = 3 then 7 else 8)
    else mapPwr e fun p => { p with wake := some (if cur = 3 then 0 else 1), deep := cur == 3 }
  else enterStep (leaveIdle e) 1

/-- R52, R445: the block that keeps an entry out before any block is asked: wake logic, where no handshake comes or
none is asked from SLEEP on, and Kiln, for which firmware answers a commanded entry. -/
def entryBarred (e : Engine) (t : Nat) : Option Nat :=
  let cmd := !on e PWR_CTRL_IN_SERVICE
  if t ≥ 2 ∧ e.pins.wake ∧ (cmd ∨ pwrState e = 2 ∨ pwrState e = 3) then some 2
  else if cmd ∧ (t = 2 ∨ t = 3) ∧ kilnGood e = false then some 3
  else none

/-- R455: the controller turns to a target, with no transition in progress and its tickets in place. -/
def launch (e : Engine) (t : Nat) : Engine :=
  if t = pwrState e then endTickets e stOk
  else if pwrState e = 1 ∧ t = 0 then
    endTickets (leaveIdle (hsFlag (inc (wr e PWR_STATE_STATE 0) PWR_CNT_TRANS) PWR_HS_STATUS_DONE)) stOk
  else match entryBarred e t with
    | some b => endTickets (sqSet e PWR_HS_STATUS [(PWR_HS_STATUS_REFUSED, 1), (PWR_HS_STATUS_BLOCK, b)]) stBusy
    | none => beginTrans e t

/-- R456: the transition has ended; a pending target starts from the state reached. -/
def settleTrans (e : Engine) : Engine :=
  let e := setReg e PWR_STATE (setFields (reg e PWR_STATE)
    [(PWR_STATE_TARGET, 0), (PWR_STATE_TRANS, 0), (PWR_STATE_REVERSING, 0), (PWR_STATE_STEP, 0)])
  let e := mapPwr e fun p => { p with
    agreed := [], delay := [], reask := [], done := 0, wake := none, rollAt := none, reverse := none }
  if on e PWR_STATE_PEND_VALID then
    let t := rd e PWR_STATE_PENDING
    let tk := e.pwr.pend
    let e := setReg e PWR_STATE (setFields (reg e PWR_STATE) [(PWR_STATE_PENDING, 0), (PWR_STATE_PEND_VALID, 0)])
    launch (mapPwr e fun p => { p with pend := none, tickets := tk.toList }) t
  else e

/-- R471, R473: a transition has reached its target; the epoch in which RUN is left is PARTIAL (R420). -/
def reached (e : Engine) (s : Nat) : Engine :=
  let e := if s = 0 then e else telPartial e
  let e := hsFlag (inc (wr e PWR_STATE_STATE s) PWR_CNT_TRANS) PWR_HS_STATUS_DONE
  settleTrans (endTickets e stOk)

/-! ## Undoing an entry (R461) -/

/-- R461: the steps of an entry are undone in reverse order. -/
def undoEntry (e : Engine) : Engine :=
  let k := pwrStep e
  let e := mapPwr e fun p => { p with agreed := [] }
  let e := if k ≥ 5 ∧ ringActive e then broadcastPresence e false false else e
  let e := mapRing e fun r => { r with left := false }
  let e := if e.pwr.done ≥ 4 ∧ pwrTarget e ≠ 4 then inParallel e wakeChannel
    else (serviceChans e).foldl startPending e
  if k ≥ 2 ∧ on e GC_ING_CTRL_ING_EN then issueAllotments e else e

/-- R456, R457: an entry is to reverse at its next step boundary, where its own requests end with the status `st`. -/
def reverseEntry (e : Engine) (st : Nat) : Engine :=
  mapPwr (wr e PWR_STATE_REVERSING 1) fun p => { p with reverse := some st }

/-- R461: at a step boundary a reversing entry ends its requests and is undone. -/
def endReverse (e : Engine) (st : Nat) : Engine :=
  let e := undoEntry (endTickets e st)
  let e := if st = stSuperseded then hsFlag e PWR_HS_STATUS_SUPERSEDED else e
  settleTrans (hsFlag e PWR_HS_STATUS_REVERSED)

/-- R461: a refusal stops the entry; one that reverses already reverses now. -/
def refuseEntry (e : Engine) (block : Nat) : Engine :=
  match e.pwr.reverse with
  | some st => endReverse e st
  | none =>
    let e := sqSet e PWR_HS_STATUS [(PWR_HS_STATUS_REFUSED, 1), (PWR_HS_STATUS_BLOCK, block)]
    settleTrans (endTickets (undoEntry e) stBusy)

/-! ## Requests (R455, R456) -/

/-- The transition in progress is an entry that a request for RUN reverses. -/
def reversible (e : Engine) : Bool :=
  e.pwr.wake.isNone && e.pwr.reverse.isNone && decide (pwrTarget e ≥ 2) && decide (pwrStep e ≤ 5)

/-- A target becomes the pending one (R456). -/
def setPending (e : Engine) (t : Nat) (tk : Option Nat) : Engine :=
  let e := if on e PWR_STATE_PEND_VALID then
      hsFlag (dropPending e stSuperseded) PWR_HS_STATUS_SUPERSEDED
    else e
  let e := setReg e PWR_STATE (setFields (reg e PWR_STATE) [(PWR_STATE_PENDING, t), (PWR_STATE_PEND_VALID, 1)])
  mapPwr e fun p => { p with pend := tk }

/-- R455, R456: a request for a target state; without a ticket it comes from WAKE_N or from PWR_CMD. -/
def powerRequest (e : Engine) (t : Nat) (tk : Option Nat) : Engine :=
  if inTrans e then
    if t = pwrTarget e then
      mapPwr e fun p => { p with tickets := p.tickets ++ tk.toList }
    else
      let e := setPending e t tk
      if t = 0 ∧ reversible e then reverseEntry e stSuperseded else e
  else launch (mapPwr e fun p => { p with tickets := tk.toList }) t

/-- R438, R469: bring-up from OFF. -/
def wakeFromOff (e : Engine) : Engine :=
  startPll (resetCause (wr e PWR_STATE_STATE 0) PWR_RESET_CAUSE_OFF_WAKE)

/-- R51: whether an assertion of WAKE_N that has lasted `ns` ns is recognised: none shorter than 50 ns, every one of
2 µs or longer, and one between them or not (a free value). -/
def wakeSeen (e : Engine) (ns : Nat) : Bool × Engine :=
  if ns < 50 then (false, e)
  else if ns < 2000 then (Config.choice e.free % 2 == 1, drawFree e)
  else (true, e)

/-- R52: WAKE_N is recognised. -/
def wakeRecognised (e : Engine) : Engine :=
  let e := { e with pins := { e.pins with wake := true } }
  if released e = false then e
  else if pwrState e = 4 then wakeFromOff e
  else if e.clk.root = .starting ∧ e.pwr.wake.isNone then e
  else powerRequest e 0 none

/-- WAKE_N (R51, R52): an assertion has lasted a number of ns, or the pin is released. -/
def wakeN (e : Engine) (held : Option Nat) : Engine :=
  match held with
  | none => { e with pins := { e.pins with wake := false } }
  | some ns =>
    let (seen, e) := wakeSeen e ns
    if seen then wakeRecognised e else e

/-! ## The handshake (R459, R460) -/

/-- The pair's open tickets other than PWR_REQ. -/
def pairTickets (e : Engine) (p : Nat) : List Ticket :=
  e.mci.tickets.filter fun (t : Ticket) =>
    t.op != 0x0400 && (t.op / 256 == 3) == (p == 1)

/-- The blocks asked for a step (R460). -/
def askedBlocks (e : Engine) : List Nat :=
  let t := pwrTarget e
  match pwrStep e with
  | 1 => [0, 1] ++ (if t = 1 then [] else [2]) ++ (if t = 2 ∨ t = 3 then [3] else [])
  | 2 => [4]
  | 3 => [5, 6, 7, 8]
  | 4 => (serviceChans e).map (16 + ·)
  | 5 => [9]
  | _ => []

/-- A block has nothing left that keeps it from agreeing (R459, R460). -/
def canAgree (e : Engine) (b : Nat) : Bool :=
  match b with
  | 0 => (pairTickets e 0).isEmpty && e.mci.commit.isNone
  | 1 => (pairTickets e 1).isEmpty && e.sec.work.isNone && e.sec.memRuns.isEmpty && e.sec.waitKey.isEmpty
  | 2 => !e.pins.wake
  | 3 => kilnGood e
  | 4 => allYielded e && fifosEmpty e
  | 5 => e.qos.hold.isEmpty && e.qos.writes.isEmpty
  | 6 => ottOcc e == 0 && e.dir.victims.isEmpty && e.dir.snoops.isEmpty && retryOcc e == 0 &&
      e.dir.walks.isEmpty
  | 7 => e.pack.pairs.isEmpty
  | 8 => e.sec.lostCtr.isEmpty && e.sec.ctrTasks.isEmpty
  | 9 => e.ring.left || !ringActive e
  | _ => (getChan e (b - 16)).repair.isNone && !on e (CH_TRN_STATE_BUSY (b - 16))

/-- Blocks that refuse at once instead of delaying. -/
def refuses (b : Nat) : Bool := b == 2 || b == 3

/-- The limit of a block's delays in one transition (R459). -/
def delayLimit : Nat := msUnits 10

/-- R27: firmware whose roll is incomplete 9 ms after it first delayed the handshake stops the roll. -/
def stopRoll (e : Engine) : Engine :=
  match e.pwr.rollAt with
  | some t =>
    if e.clk.nominal ≥ t + msUnits 9 then
      mapMci e fun m => { m with commit := m.commit.map fun (c : Commit) =>
        if c.quiesce then c else { c with stop := some (c.stop.getD stAborted) } }
    else e
  | none => e

/-- R27: firmware delays the handshake for a roll. -/
def markRoll (e : Engine) (b : Nat) : Engine :=
  if b = 0 ∧ (e.mci.commit.any fun c => !c.quiesce) ∧ e.pwr.rollAt.isNone
  then mapPwr e fun p => { p with rollAt := some e.clk.nominal } else e

/-- R244: TSn of a channel that is asked stops its run at the unit boundary, before it agrees. -/
def stopAsked (e : Engine) (b : Nat) : Engine := if b ≥ 16 then stopRun e (b - 16) .stopped else e

/-- A block is asked and has not answered yet. -/
def isAsked (e : Engine) (b : Nat) : Bool :=
  clocked e && inTrans e && e.pwr.wake.isNone && on e PWR_CTRL_IN_SERVICE && (askedBlocks e).contains b &&
    !e.pwr.agreed.contains b

/-- HANDSHAKE_ANSWER: AGREE, REFUSE, or DELAY by `us` µs, as the block's state has it. Ingress answers once
every port has yielded. -/
def handshakeAnswer (e : Engine) (b us : Nat) : Engine :=
  if isAsked e b && tget 0 e.pwr.reask b == 0 then
    let e := stopAsked e b
    if canAgree e b then mapPwr e fun p => { p with agreed := p.agreed ++ [b] }
    else if refuses b then refuseEntry e b
    else if b = 4 then e
    else
      let total := tget 0 e.pwr.delay b
      if total ≥ delayLimit then refuseEntry (hsFlag e PWR_HS_STATUS_EXPIRED) b
      else
        let k := min (usUnits us) (delayLimit - total)
        stopRoll (mapPwr (markRoll e b) fun p => { p with
          delay := tput 0 p.delay b (total + k), reask := tput 0 p.reask b (e.clk.nominal + k) })
  else e

/-- HANDSHAKE_REASK: after its delay a block is asked again. -/
def handshakeReask (e : Engine) (b : Nat) : Engine :=
  let t := tget 0 e.pwr.reask b
  if isAsked e b && t != 0 then
    stopRoll (mapPwr (tickTo e t) fun p => { p with reask := tput 0 p.reask b 0 })
  else e

/-- HANDSHAKE_DELAY_LIMIT: a block still delays at its limit. -/
def handshakeLimit (e : Engine) (b : Nat) : Engine :=
  if isAsked e b && decide (tget 0 e.pwr.delay b ≥ delayLimit) && !canAgree e b then
    refuseEntry (hsFlag (tickTo e (tget 0 e.pwr.reask b)) PWR_HS_STATUS_EXPIRED) b
  else e

/-! ## Entry steps (R460) -/

/-- R466: time in SLEEP and DEEP does not count toward the patrol period. -/
def shiftPatrol (e : Engine) (k : Nat) : Engine :=
  (List.range 16).foldl (fun e n =>
    let c := getChan e n
    if c.patrolAt = 0 ∧ c.scrubAt = 0 then e
    else putChan e n { c with patrolAt := c.patrolAt + k, scrubAt := c.scrubAt + k }) e

/-- Step 6: REG_AVAIL low, the relay closed and the root stopped. -/
def stepStop (e : Engine) : Engine := stopRoot { e with pins := { e.pins with relayClosed := true } }

/-- The pending target is RUN. -/
def runPending (e : Engine) : Bool := on e PWR_STATE_PEND_VALID && rd e PWR_STATE_PENDING == 0

/-- Step 8: the engine is OFF: nothing but AON is left (R447, R452). A RUN request that has waited then runs as a wake
(R461). -/
def stepOff (e : Engine) : Engine :=
  let wake := runPending e
  let e := wr (coreReset e) PWR_STATE_STATE 4
  if wake then wakeFromOff e else e

/-- R366: the requester of an answered class 3 request holds nothing. -/
def forgetRequester (e : Engine) (t : Txn) : Engine :=
  if isClass3 t.req.op && t.ott.isSome then
    dropHolder (unreserve e t.req.la t.req.agent) t.req.la t.req.agent
  else e

/-- R453: queues, FIFOs and pair tables hold nothing in DEEP. An entry by handshake has emptied them; what an entry by
command finds in them is lost, and its requesters hold nothing (DESIGN CHOICE). -/
def emptyQueues (e : Engine) : Engine :=
  let e := e.txns.foldl forgetRequester e
  { e with
    txns := []
    ports := e.ports.map fun (p : Nat × Port) => (p.1, { p.2 with outq := [], fifo3 := [] })
    qos := { e.qos with hold := [], writes := [] }
    pack := { e.pack with pairs := [], merges := [], rets := [], waits := [], want := [], rebuild := none, hold := [] }
    chans := e.chans.map fun (c : Nat × Chan) =>
      (c.1, { c.2 with rq := [], wq := [], replay := [], capWait := none, rereads := [] })
    ring := { e.ring with transit := [], own := [] } }

/-- The actions of a step are complete: in step 4 every channel sleeps. -/
def actsDone (step : Nat) (after : Engine) : Bool := step != 4 || allAsleep after

/-- A step's actions in the steps from which an entry can reverse (R460). Step 4 is done once every channel is in
self-refresh: where an alert or a cap holds a write back, it goes on at the next POWER_STEP. -/
def stepActs (d : Dram) (e : Engine) : Engine :=
  let x := if pwrStep e = 4 then inParallel e (sleepChannel d) else e
  if actsDone (pwrStep e) x then mapPwr x fun p => { p with done := p.done + 1 } else x

/-- R131: the LEAVING of this engine has completed its lap: the relay may close. One that never announced itself has
none. -/
def lapDone (e : Engine) : Bool :=
  !ringActive e || e.ring.left || e.ring.noNonce ||
    !(e.ring.laps.any (·.leave) || e.ring.own.any fun x => x.msg.typ == tyPresence && (nth x.msg.payload 1 0).getLsbD 0)

/-- The step after one of the steps 1 to 5 (R460). -/
def nextStep (t k : Nat) : Nat :=
  match k with
  | 3 => if t = 4 then 5 else 4
  | 5 => if t = 4 then 8 else 6
  | _ => k + 1

/-- Step 6 and, towards DEEP, the beginning of step 7: a RUN request that waits is a wake from SLEEP (R461). -/
def stepSleep (e : Engine) : Engine :=
  let t := pwrTarget e
  let e := stepStop (mapPwr e fun p => { p with done := p.done + 1 })
  if t = 3 then
    let e := wr (telPartial e) PWR_STATE_STATE 2
    if runPending e then reached e 2 else enterStep e 7
  else reached e 2

/-- Every asked block of the step has agreed, or entry is by command (R459, R462). -/
def stepReady (e : Engine) : Bool :=
  !on e PWR_CTRL_IN_SERVICE || (askedBlocks e).all fun b => e.pwr.agreed.contains b

/-- The controller's step when its blocks have agreed. -/
def stepGo (d : Dram) (e : Engine) : Engine :=
  let t := pwrTarget e
  let k := pwrStep e
  if k = 1 ∧ t = 1 then mapPwr e fun p => { p with done := 1 }
  else if k ≤ 5 then
    let x := stepActs d e
    if actsDone k x then enterStep x (nextStep t k) else x
  else if k = 7 then reached (kilnTicks (emptyQueues <| mapPwr e fun p => { p with done := p.done + 1 }) 10) 3
  else if lapDone e then (if k = 6 then stepSleep e else stepOff e)
  else e

/-- POWER_STEP: every asked block agrees, or entry is by command: the step's actions (R460, R462). A reversing entry
is at its step boundary: a step that is agreed is taken, and the entry is undone (R461). -/
def powerStep (d : Dram) (e : Engine) : Engine :=
  if inTrans e && e.pwr.wake.isNone then
    match e.pwr.reverse with
    | some st =>
      let x := if stepReady e then stepActs d e else e
      if stepReady e && !actsDone (pwrStep e) x then x else endReverse x st
    | none => if stepReady e then stepGo d e else e
  else e

/-- YIELD_TIMEOUT (R90, R462): 100 µs after its recall a port has not yielded. -/
def yieldTimeout (e : Engine) (p : Nat) : Engine :=
  match (getPort e p).recallAt with
  | none => e
  | some t =>
    if clocked e then
      let e := tickTo e (t + usUnits 100)
      if inTrans e && on e PWR_CTRL_IN_SERVICE && pwrStep e == 2 then refuseEntry e 4
      else
        let v := getPort e p
        ingressFault (putPort e p { v with held := [0, 0, 0, 0], recallAt := none }) p
          GC_ING_STATUS_YIELD_MISMATCH
    else e

/-! ## Wake (R465) -/

/-- The last stage: channels, credits, RUN. The safe state persists across the wake (R467). -/
def wakeEnd (e : Engine) : Engine :=
  let e := if isSafe e then e else inParallel e wakeChannel
  let e := fillBuckets (if on e GC_ING_CTRL_ING_EN then issueAllotments e else e)
  let t := pwrTarget e
  if t = 0 then reached e 0
  else beginTrans (mapPwr (wr e PWR_STATE_STATE 0) fun p => { p with wake := none }) t

/-- R421: an epoch whose end TB has passed on wake ends at once. -/
def wakeEpoch (e : Engine) : Engine :=
  if on e TEL_CTRL_TEL_EN && decide (e.clk.nominal ≥ e.tel.epochAt + msUnits (rd e TEL_CTRL_EPOCH_MS)) then epochEnd e
  else e

/-- WAKE_STAGE: a stage completes on its ready signal, `n` Kiln ticks after the last event, and the next one
starts. -/
def wakeStage (e : Engine) (n : Nat) : Engine :=
  let go := fun (e : Engine) (k : Nat) => mapPwr e fun p => { p with wake := some k }
  match e.pwr.wake with
  | none => e
  | some 0 => go (kilnTicks e n) 1
  | some 1 =>
    let e0 := kilnTicks e n
    let e := sleepAdvance e0
    go (shiftPatrol e (e.clk.nominal - e0.clk.nominal)) (if e.pwr.deep then 2 else 3)
  | some 2 => go (tick e (16 * regCycle)) 3
  | some 3 =>
    let e := tick e ((if e.pwr.deep then 48 else 64) * regCycle)
    let e := { go e 4 with pins := { e.pins with relayClosed := false } }
    let e := leaveIdle (wakeEpoch e)
    let e := mapRing e fun r => { r with left := false, laps := [] }
    if ringActive e then broadcastPresence e false false else e
  | some _ => wakeEnd e

/-- SUPPLY_OUT_OF_RANGE (R468): in SLEEP and DEEP a monitor takes the engine to OFF. -/
def supplyOut (e : Engine) : Engine :=
  if e.pins.supply && (pwrState e == 2 || pwrState e == 3) then
    sqSet (wr (coreReset e) PWR_STATE_STATE 4) PWR_AON_STATUS [(PWR_AON_STATUS_RET_LOST, 1)]
  else e

end Sys2Proof.Machine
end

