-- ==== Sys2Proof/Machine/Abort.lean ====
section
/-! DEFINITION. How tickets stop: an ABORT, the end of a session, a core restart and the safe state (R457,
R480, R509, R513, R538). -/

namespace Sys2Proof.Machine

def markAborting (e : Engine) (id : Nat) : Engine := mapTicket e id fun t => { t with aborting := true }

/-- R353: the unenroll walk of an agent stops: snoops already formed stay. -/
def stopUnenroll (e : Engine) (a : Nat) : Engine :=
  { e with dir := { e.dir with walks := e.dir.walks.filter fun (w : Walk) => !(w.unenroll && w.agent == a) } }

/-- The channel of the repair that a ticket started. -/
def repairOf (e : Engine) (id : Nat) : Option Nat :=
  (List.range 16).find? fun n => match (getChan e n).repair with
    | some r => r.ticket == some id
    | none => false

/-- The channel of the run that a ticket started. -/
def runOf (e : Engine) (id : Nat) : Option Nat :=
  (List.range 16).find? fun n => (getChan e n).train.ticket == some id

/-- The passes of a ticket stop (R267). -/
def dropPasses (e : Engine) (id : Nat) : Engine :=
  (List.range 16).foldl (fun e n =>
    let c := getChan e n
    if c.pass.any fun p => p.ticket == id then
      syncLines (putChan e n { c with pass := c.pass.filter fun (p : Pass) => p.ticket != id }) n
    else e) e

/-- R272: a repair before its declared point is abandoned. -/
def dropRepair (e : Engine) (n : Nat) : Engine :=
  syncLines (wr (putRepair e n none) (CH_PPR_STATE_BUSY n) 0) n

/-- Every bit of GC_PORT_THROTTLE is cleared (R92, R520). -/
def unthrottle (e : Engine) : Engine := (List.range 4).foldl (fun e k => setReg e (GC_PORT_THROTTLE k) 0) e

/-- An offline RETRAIN that has not taken its channel out of service ends (R513, R520). -/
def dropOffRun (e : Engine) (id : Nat) : Engine :=
  match e.mci.offRuns.find? fun r => r.ticket == id with
  | some r =>
    let e := if r.throttled then unthrottle e else e
    mapMci e fun m => { m with offRuns := m.offRuns.filter fun x => x.ticket != id }
  | none => e

/-- R523: a quiesced commit whose declared point has not passed gives credits and throttle back. -/
def dropQuiesce (e : Engine) (step : Nat) : Engine :=
  let e := if step ≥ 4 ∧ on e GC_ING_CTRL_ING_EN then issueAllotments e else e
  let e := unthrottle e
  let e := wr e GC_CFG_GEN_ROLLING 0
  mapMci e fun m => { m with commit := none }

/-- R457: ABORT of a PWR_REQ; none where it comes too late. -/
def abortPwr (e : Engine) (id : Nat) : Option Engine :=
  if e.pwr.pend = some id then some (dropPending e stAborted)
  else if e.pwr.wake.isSome ∨ pwrStep e = 0 ∨ pwrStep e > 5 ∨ (pwrTarget e = 1 ∧ e.pwr.done ≥ 1) then none
  else
    some (if e.pwr.reverse.isSome then e else reverseEntry e stAborted)

/-- R513, R515: an open ticket stops at its next safe point; none where it is past its declared point or its
command is not abortable. -/
def abortTicket (e : Engine) (t : Ticket) : Option Engine :=
  if t.declared then none
  else if e.sec.waiting.any (·.1 == t.id) then
    let x := mapSec e fun s => { s with waiting := s.waiting.filter (·.1 != t.id) }
    some (finish (markAborting x t.id) t.id stAborted 0 [])
  else
    let x := markAborting e t.id
    match t.op with
    | 0x0101 => match e.mci.commit with
      | some c =>
        if c.quiesce then
          if c.step ≥ 5 then none
          else some (finish (setProgress (dropQuiesce x c.step) t.id c.step) t.id stAborted 0 [0])
        else some (mapMci x fun m => { m with commit := m.commit.map fun (c : Commit) =>
          { c with stop := some stAborted } })
      | none => none
    | 0x0200 => match runOf e t.id with
      | some n => some (stopRun x n .aborted)
      | none => if x.mci.offRuns.any fun r => r.ticket == t.id then some (finish (dropOffRun x t.id) t.id stAborted 0 [])
          else none
    | 0x0202 => match repairOf e t.id with
      | some n => some (finish (dropRepair x n) t.id stAborted 0 [])
      | none => none
    | 0x0302 => some x
    | 0x0303 => some (finish (stopUnenroll x (t.body.headD 0).toNat) t.id stAborted 0 [])
    | 0x0400 => abortPwr e t.id
    | 0x0700 => some (finish (dropPasses x t.id) t.id stAborted 0 [])
    | 0x0701 => some x
    | 0x0800 => if e.mci.verify = some t.id then some (finish (mapMci x fun m => { m with verify := none }) t.id stAborted 0 [0])
        else none
    | _ => none

/-- R509: a ticket of an ended session stops where it can, and its record is discarded. -/
def dropTicket (e : Engine) (t : Ticket) : Engine :=
  let e := mapTicket e t.id fun u => { u with drop := true }
  (abortTicket e { t with drop := true }).getD e

/-- R509: a session ends at once, with its tickets and their records. -/
def endSession (e : Engine) (box : Nat) : Engine :=
  let e := (boxTickets e box).foldl dropTicket e
  let e := mapMci e fun m => { m with records := m.records.filter fun (r : Rec) => !(r.box == box && r.ticket) }
  putSession e box none

/-- R480, R538: an open ticket of firmware that lost its work ends with ABORTED and its progress, unless its
operation goes on in hardware. -/
def cutTicket (e : Engine) (t : Ticket) : Engine :=
  let done := fun (e : Engine) => finish e t.id stAborted 0 []
  match t.op with
  | 0x0101 =>
    let n := match e.mci.commit with
      | some c => if c.quiesce then c.step else c.rolled.length
      | none => 0
    finish (setProgress e t.id n) t.id stAborted 0 [0]
  | 0x0200 => match runOf e t.id with
    | some n => done (mapTrain e n fun r => { r with ticket := none })
    | none => done (dropOffRun e t.id)
  | 0x0201 => if on e GC_SPARE_CTRL_ACTIVE then e else done e
  | 0x0202 => if t.declared then e else match repairOf e t.id with
    | some n => done (dropRepair e n)
    | none => done e
  | 0x0303 => done (stopUnenroll e (t.body.headD 0).toNat)
  | 0x0400 => e
  | 0x0700 => done (dropPasses e t.id)
  | 0x0701 => if t.declared then e else done e
  | _ => done e

end Sys2Proof.Machine
end

