-- ==== Sys2Proof/Machine/Safe.lean ====
section
/-! DEFINITION. The reactions to a fatal fault (R29, R84, R303, R366, R389, R467, R538), and what ends every
step: the safe state's entry, the halting of idle cores (R463), and work that an event has set free. -/

namespace Sys2Proof.Machine

/-! ## Ports and directory (R84, R366, R389) -/

/-- A response of the transaction stands complete in its port's arbiter. -/
def hasFormed (e : Engine) (t : Txn) : Bool :=
  (getPort e t.req.port).outq.any fun k => k.cls == 0 && k.txn == some t.id

/-- The answer of R84 to a request without a response. -/
def safeAnswer (e : Engine) (r : Req) (id : Nat) : OutPkt :=
  if isRead r.op then mkResp e r 0x43 none true 0 0 none (some id)
  else mkResp e r 0x40 (some 2) false 0 0 none (some id)

/-- One transaction at the moment of the fault. -/
def safeTxn (e : Engine) (t : Txn) : Engine :=
  if t.eng then e
  else if hasFormed e t then
    if t.ott = some .wp then putTxn (unreserve e t.req.la t.req.target) { t with stage := .formed, ott := none }
    else e
  else if t.done then
    let e := if t.ott = some .wp then unreserve e t.req.la t.req.target else e
    let e := if t.credited then e else creditDue e t.req.port (if isClass3 t.req.op then 3 else 0)
    delTxn e t.id
  else
    let e := forgetRequester e t
    let e := putTxn e { t with stage := .formed, ott := none }
    sendPkt e t.req.port (safeAnswer e t.req t.id)

/-- The engine's own writes wait again in the write queues of the QoS stage. -/
def keepEngineWrites (e : Engine) : Engine :=
  let own := e.txns.filter (·.eng)
  let e := { e with txns := e.txns.map fun (t : Txn) => if t.eng then { t with stage := .qos } else t }
  let w := own.foldl (fun (w : Tbl (List Nat)) t => tput [] w t.ch (tget [] w t.ch ++ [t.id])) []
  { e with qos := { e.qos with hold := [], writes := w } }

/-- A packet is the push of a placement write (R382). -/
def isPush (e : Engine) (k : OutPkt) : Bool :=
  k.op == 0x43 && (match k.txn.bind (getTxn e) with
    | some t => t.req.op == .placeWr
    | none => false)

/-- Snoops that have not been sent go out again in recovery, and unsent pushes are discarded. -/
def dropUnsent (e : Engine) : Engine :=
  { e with ports := e.ports.map fun (p : Nat × Port) =>
      (p.1, { p.2 with outq := p.2.outq.filter fun k => k.cls != 2 && !isPush e k }) }

/-- R84: a packet that waits in a class 3 FIFO is a request without a response. -/
def safeFifo (e : Engine) (q : FifoReq) : Engine :=
  let (e, t) := newTxn e q.req q.commit
  sendPkt e q.req.port (safeAnswer e q.req t.id)

/-- R85: the requests in the class 3 FIFOs are answered. -/
def safeFifos (e : Engine) : Engine :=
  let qs := e.ports.flatMap fun p => p.2.fifo3
  if qs.isEmpty then e
  else qs.foldl safeFifo { e with ports := e.ports.map fun (p : Nat × Port) => (p.1, { p.2 with fifo3 := [] }) }

def safePorts (e : Engine) : Engine :=
  let e := dropUnsent e
  let e := e.txns.foldl safeTxn e
  keepEngineWrites (safeFifos e)

/-! ## Packer (R303) -/

def safePack (e : Engine) : Engine :=
  mapPack e fun p => { p with
    pairs := [], merges := [], rets := [], waits := [], want := [], rebuild := none, hold := [] }

/-! ## Power (R467) -/

/-- The cores that an entry to IDLE has halted run again. -/
def leaveIdleEntry (e : Engine) : Engine := if inTrans e && pwrTarget e == 1 then leaveIdle e else e

/-- R467: an entry in progress stops at once, and the pending request ends; a wake goes on. -/
def safePower (e : Engine) : Engine :=
  let e := leaveIdleEntry (dropPending e stBusy)
  if inTrans e && e.pwr.wake.isNone then
    let e := endTickets e stAborted
    let e := if pwrStep e ≥ 2 ∧ on e GC_ING_CTRL_ING_EN then issueAllotments e else e
    settleTrans e
  else e

/-! ## Firmware (R538 step 5) -/

def safeFirmware (e : Engine) : Engine :=
  let e := wr e PWR_CTRL_IN_SERVICE 0
  let e := e.mci.tickets.foldl cutTicket e
  let e := wr e GC_CFG_GEN_ROLLING 0
  mapSec (cutWork (cutWork e 0) 1) fun s => { s with waitKey := [] }

/-- R32, R478: what firmware of MC0/MC1 has left waiting is done when the pair runs. -/
def fwTake (e : Engine) (a : FwAct) : Engine :=
  if a = .safe ∧ fwReady e a then safeFirmware e else firmware e a

def fwActs (e : Engine) : Engine :=
  if e.mci.acts.isEmpty then e else e.mci.acts.foldl fwTake (mapMci e fun m => { m with acts := [] })

/-- The channel whose own data path holds the fault (R29, R529). -/
def ownChannel (e : Engine) (n : Nat) : Bool :=
  match e.flt.cause with
  | some r => r.source == 0x20 + n
  | none => false

/-! ## The dump's start (R545) -/

/-- R545: the dump goes to the dump band of a channel: the band exists, the channel serves and is not spared, and
no event since SAFE names one of its sources. -/
def dramDump (e : Engine) (n : Nat) : Bool :=
  rd e GC_CARVE_DUMP_DUMP_ROWS != 0 && inService e n && chanLive e n &&
    !(on e GC_SPARE_CTRL_ACTIVE && rd e GC_SPARE_CTRL_FAIL_CH == n) &&
    e.flt.since.all fun s => !(s % 16 == n && decide (1 ≤ s / 16) && decide (s / 16 ≤ 4))

/-- The dump starts: DUMP_TGT names its store, and MEn holds the channel of a DRAM dump (R186). -/
def startDump (e : Engine) : Engine :=
  let n := rd e GC_CARVE_DUMP_DUMP_CH
  if dramDump e n then mapArb (wr e FLT_SAFE_DUMP_TGT 1) n fun a => { a with dump := true }
  else wr e FLT_SAFE_DUMP_TGT 0

/-- R538: every block reacts to the fatal event. -/
def safeReact (d : Dram) (e : Engine) : Engine :=
  let e := safePower (safePack (safePorts e))
  let e := inParallel e fun e n => safeChannel d (ownChannel e n) e n
  let e := faultBroadcast e (rd e FLT_SAFE_CAUSE_SRC) 0
  let e := if rd e FLT_SAFE_NO_AUTO = 1 then faultBroadcast e (rd e FLT_SAFE_CAUSE_SRC) 2 else e
  let e := fwTake e .safe
  if rd e MBX_CORE_STATE_ST01 = 3 then wr e FLT_SAFE_PHASE 4 else startDump (wr e FLT_SAFE_PHASE 2)

/-! ## The end of a step -/

/-- R463: a step has brought a record into the fault collector or a per-block status. -/
def statusMoved (before after : Engine) : Bool :=
  before.flt.rseq != after.flt.rseq ||
    after.regs.any fun r => (regDesc r.1).any isSeqReg && wordField (reg before r.1) 31 24 != wordField r.2 31 24

/-- R463: an event of the step restarts the clocks of a pair that is halted in IDLE: a doorbell; a fault record or a block's
status, a MGMT or FAULT message, the end of an epoch, or a timer of firmware. -/
def fwEvent (before after : Engine) (p : Nat) : Bool :=
  ((List.range 64).any fun m => boxState after m == 2 && boxCore after m == p) ||
    (p == 0 && (!after.ring.inbox.isEmpty || !after.ring.failed.isEmpty || before.ring.lastFault != after.ring.lastFault ||
      before.tel.epoch != after.tel.epoch || before.flt.recent.length != after.flt.recent.length || statusMoved before after))

/-- R463: a pair has work left: firmware halts again when it has finished. -/
def fwBusy (e : Engine) (p : Nat) : Bool :=
  !canAgree e p || ((List.range 64).any fun m => boxCore e m == p && boxState e m == 0 && boxUsable e m && (nextRec e m).isSome) ||
    (p == 0 && (isSafe e || !e.mci.acts.isEmpty || (!on e TEL_HOT_STATE_SORTED && decide (e.tel.epoch > 0))))

/-- R458, R463: in IDLE, and at the end of an entry to it, a pair that has finished halts, and an event restarts it. -/
def settlePair (before : Engine) (e : Engine) (p : Nat) : Engine :=
  if fwEvent before e p then idlePair e p false
  else if fwBusy e p then e
  else idlePair e p true

/-- R458: step 1 of an entry to IDLE is done, and the cores halt. -/
def haltsNow (e : Engine) : Bool := inTrans e && pwrTarget e == 1 && decide (e.pwr.done ≥ 1)

/-- R458: an entry to IDLE completes when the cores have halted, with its record. -/
def idleEnd (e : Engine) : Engine :=
  if haltsNow e && [0, 1].all fun p => rd e (pairField p) == 1 then deliverAll (reached e 1) else e

def settleIdle (before e : Engine) : Engine :=
  if (pwrState e == 1 && !inTrans e) || haltsNow e then idleEnd ([0, 1].foldl (settlePair before) e) else e

/-- R353: an unenroll walk whose sets are all walked and whose snoops are all answered: ENROLLED clears, VIDX
is freed and the ticket completes. -/
def unenrollEnd (e : Engine) (w : Walk) : Engine :=
  if w.unenroll ∧ w.set ≥ 2 ^ 18 ∧
      (e.dir.snoops.any fun s => s.owner == .unenroll && s.agent == w.agent) = false then
    let n := getEnroll e w.agent
    let e := putEnroll (stopUnenroll e w.agent) w.agent { n with enrolled := false, vidx := 0 }
    match e.mci.tickets.find? fun (t : Ticket) => t.op == 0x0303 && t.body.headD 0 == word w.agent with
    | some t => finish e t.id stOk 0 []
    | none => e
  else e

def unenrollEnds (e : Engine) : Engine := if pairRuns e 1 then e.dir.walks.foldl unenrollEnd e else e

/-- R124: firmware that runs has taken the failures reported to it before the step. -/
def takeFailed (before after : Engine) : Engine :=
  if pairRuns before 0 then mapRing after fun r => { r with failed := r.failed.drop before.ring.failed.length }
  else after

/-- What follows in the same step: the reactions to a fatal event, firmware's waiting work, what
the watermark monitors see before and after class 3 packets that the directory takes (R359, R426), requests that waited for
the DRBG (R320), messages that RING_OUT can send (R122), and the halting of idle cores. -/
def settle (d : Dram) (before after : Engine) : Engine :=
  let e := if isSafe before = false ∧ isSafe after then safeReact d after
    else if isSafe after ∧ allAsleep after = false then inParallel after (goOn d) else after
  let e := stageVerify (fwActs (unenrollEnds e))
  settleIdle before (ringPump (takeFailed before (if clocked e then ringNonce (telSeed (wmScan (fifoPump (wmScan (secContinue e))))) else e)))

/-! ## One command on the machine -/

/-- Slots written in a step go to DRAM, oldest first; DRAM keeps its canonical form. -/
def storeCells (d : Dram) (ws : List (Nat × Slot)) : Dram :=
  { d with cells := ws.foldr (fun w c => tput (dramDefault d w.1) c w.1 w.2) d.cells }

/-- The engine as a command finds it: what the last step drove on RING_OUT has left. -/
def State.fresh (s : State) : Engine := mapRing s.e fun r => { r with sent := [] }

/-- The machine after a command that has taken the engine to `e`: everything that follows in the same step,
and the slots written go to DRAM. -/
def State.after (s : State) (e : Engine) : State :=
  let e := settle s.dram s.fresh e
  { s with e := { e with store := [] }, dram := storeCells s.dram e.store }

/-- A command's effect on the engine, with everything that follows in the same step. -/
def State.run (s : State) (f : Dram → Engine → Engine) : State := s.after (f s.dram s.fresh)

/-- The contents of a channel's modules are lost. -/
def Dram.loseChan (d : Dram) (n : Nat) : Dram :=
  ⟨tput 0 d.epoch n (tget 0 d.epoch n + 1), d.cells.filter fun (c : Nat × Slot) => cellChan c.1 != n⟩

/-- DRAM contents are lost (R55, R64). -/
def Dram.lose (d : Dram) : Dram := (List.range 16).foldl Dram.loseChan d

/-- The machine after a command that has taken the engine to `e` and left the modules without their contents. -/
def State.afterLoss (s : State) (e : Engine) : State := { s.after e with dram := s.dram.lose }

/-- The same for a command that leaves the modules without their contents when `lost` holds of the engine
that it leaves. -/
def State.runLosing (s : State) (lost : Engine → Bool) (f : Dram → Engine → Engine) : State :=
  if lost (s.run f).e then s.afterLoss (f s.dram s.fresh) else s.run f

end Sys2Proof.Machine
end

