-- ==== Sys2Proof/Machine/Regs.lean ====
section
/-! DEFINITION. The register window (R8–R10, R47, R560–R573): addresses and aliases, access errors, rejected
writes, configuration parity, the rules that discard a write, the checks of an enable, and the storing of
a write. What a stored write sets going is in RegCmds. -/

namespace Sys2Proof.Machine

/-! ## Addresses -/

/-- The value address of a register. -/
def valueAddr (a : Nat) : Nat := a / 16 * 16

/-- The address within its 16 bytes: 0 the value, 1 the set, 2 the clear and 3 the toggle alias (R9). -/
def aliasOf (a : Nat) : Nat := a % 16 / 4

/-- The channel of an address in the CH_ range (R586). -/
def chanOfAddr (a : Nat) : Option Nat := if a / 0x100000 = 1 then some (a / 0x10000 % 16) else none

/-- The channel index for the register names of R586, 0 outside the CH_ range. -/
def chIx (a : Nat) : Nat := (chanOfAddr a).getD 0

/-- R586: a register stands at the value address; FLT_SRCs registers exist for the sources of R529. -/
def mapped (a : Nat) : Bool :=
  (regDesc a).isSome &&
    (!(decide (FLT_SRC_CFG 0 ≤ a) && decide (a < FLT_SRC_CFG 0x50)) || srcDefined ((a - FLT_SRC_CFG 0) / 0x40))

/-- Both power domains of the register's channel are on (R474, R562). -/
def chanPowered (e : Engine) (a : Nat) : Bool :=
  match chanOfAddr a with
  | some n => (reg e PWR_CH_PWR).getLsbD n && (reg e PWR_CH_PWR).getLsbD (n + 16)
  | none => true

/-- R562: the cause with which an access completes with REG_ERR, 0 for none. -/
def accessError (e : Engine) (addr : Nat) : Nat :=
  if addr % 4 ≠ 0 then 1
  else if mapped (valueAddr addr) = false then 2
  else if chanPowered e addr = false then 3
  else 0

/-- R563: the first access with REG_ERR since the last clear is recorded. -/
def regError (e : Engine) (addr cause : Nat) : Engine :=
  if rd e GC_REG_STATUS_CAUSE = 0 then
    sqSet e GC_REG_STATUS [(GC_REG_STATUS_CAUSE, cause), (GC_REG_STATUS_ADDR, addr / 4)]
  else e

/-! ## Rejected writes (R569) -/

/-- The CFG_REJECT register of an address's region. -/
def rejectReg (a : Nat) : Nat :=
  match a / 0x100000 with
  | 0 => GC_CFG_REJECT
  | 1 => CH_CFG_REJECT (chIx a)
  | 2 => DIR_CFG_REJECT
  | 3 => CRY_CFG_REJECT
  | 4 => QOS_CFG_REJECT
  | 5 => FLT_CFG_REJECT
  | 6 => PWR_CFG_REJECT
  | 7 => MBX_CFG_REJECT
  | 8 => TEL_CFG_REJECT
  | _ => RING_CFG_REJECT

/-- A rejected write of the register at `a`. -/
def reject (e : Engine) (p : RegPort) (a cause : Nat) : Engine := rejectIn e (rejectReg a) p a cause

/-! ## Configuration parity (R570–R573) -/

/-- The bits of a register that parity covers. -/
def covered (a : Nat) : Word :=
  match regDesc a with
  | some d => if d.par then accMask [.rw, .rwd] d.fields else 0
  | none => 0

/-- The byte lanes in which a word has ones, as a mask. -/
def lanesOf (w : Word) : Nat :=
  (List.range 4).foldl (fun m i => m + if w.toNat / 2 ^ (8 * i) % 256 ≠ 0 then 2 ^ i else 0) 0

/-- The lanes of a register whose parity bit is wrong now. -/
def badNow (e : Engine) (a : Nat) : Nat :=
  let b := tget (0, (0 : Word)) e.dbg.badLanes a
  b.1 &&& (15 - lanesOf ((b.2 ^^^ reg e a) &&& covered a))

/-- A register's value is stored; a changed lane takes a new parity bit, which GC_PAR_INJ may invert. -/
def storeReg (e : Engine) (a : Nat) (w : Word) : Engine :=
  let cov := covered a
  let changed := lanesOf ((reg e a ^^^ w) &&& cov)
  if changed = 0 then setReg e a w
  else
    let keep := badNow e a &&& (15 - changed)
    let armed := on e GC_PAR_INJ_ARM
    let bad := if armed then keep ||| (rd e GC_PAR_INJ_LANES &&& lanesOf cov) else keep
    let e := if armed then wr e GC_PAR_INJ_ARM 0 else e
    let e := setReg e a w
    let t := tput (0, (0 : Word)) e.dbg.badLanes a (if bad = 0 then (0, 0) else (bad, w))
    { e with dbg := { e.dbg with badLanes := t } }

/-- R572: the fatal event of a register's mismatch. -/
def parityFault (e : Engine) (a : Nat) : Engine :=
  let lanes := badNow e a
  if lanes = 0 ∨ chanPowered e a = false then e
  else
    let syn := BitVec.ofNat 32 (lanes * 2 ^ 24 + a)
    if a / 0x100000 = 5 then reportFault e 0x00 .fatal false syn 2
    else reportFault e 0x01 .fatal false syn 0

/-- PARITY_SWEEP (R571): every covered register is checked. -/
def paritySweep (e : Engine) : Engine :=
  if clocked e then (e.dbg.badLanes.map (·.1)).foldl parityFault e else e

/-! ## Enabled blocks (R566–R568) -/

/-- A block counts as enabled for the writes to its RWD fields; Grist does from the write that starts its check. -/
def blkOn (e : Engine) (n : Nat) : Blk → Bool
  | .ingress => on e GC_ING_CTRL_ING_EN
  | .grist => on e GC_GRIST_CTRL_GRIST_EN || e.dbg.gristEnd.isSome
  | .crypto => on e CRY_CTRL_CRY_EN || on e CRY_CTRL_LOCK
  | .directory => on e DIR_CTRL_DIR_EN
  | .sched => on e (CH_SCHED_CTRL_SCHED_EN n)
  | .refresh => on e (CH_REF_CTRL_REF_EN n)
  | .rowGuard => on e (CH_RG_CTRL_RG_EN n)
  | .training => on e (CH_TRN_CTRL_TRN_EN n)
  | .scrub => on e (CH_SCRUB_CTRL_SCRUB_EN n)
  | .telemetry => on e TEL_CTRL_TEL_EN
  | .ring => on e RING_CTRL_RING_EN

/-- The registers whose bit 31 is an enable with checks or effects. -/
def isEnableReg (a : Nat) : Bool :=
  let n := chIx a
  [GC_ING_CTRL, GC_GRIST_CTRL, CRY_CTRL, DIR_CTRL, QOS_CTRL, TEL_CTRL, RING_CTRL, CH_SCHED_CTRL n,
   CH_REF_CTRL n, CH_RG_CTRL n, CH_TRN_CTRL n, CH_SCRUB_CTRL n].contains a

/-- R218. -/
def refOk (e : Engine) (n : Nat) : Bool :=
  let lim := if gran e n = 0 then 4 else 8
  gran e n != 3 && inRange (rd e (CH_REF_CTRL_POST_MAX n)) 1 lim && decide (rd e (CH_REF_CTRL_PULL_MAX n) ≤ lim) &&
    inRange (rd e (CH_REF_CTRL_DUE_AT n)) 1 (rd e (CH_REF_CTRL_POST_MAX n)) &&
    decide (rd e (CH_REF_CTRL_IDLE_REF n) ≥ 8) && rd e (CH_REF_TIM_TREFI n) != 0

/-- R220. -/
def rgOk (e : Engine) (n : Nat) : Bool :=
  inRange (rd e (CH_RG_CTRL_THRESH n)) 256 8192 && rd e (CH_RG_CTRL_RG_MODE n) != 3 &&
    [1, 2, 4].contains (rd e (CH_RG_ABO_RFM_CNT n)) && rd e (CH_RG_ABO_PW_MIN n) != 0 &&
    decide (rd e (CH_RG_ABO_PW_MIN n) * 4 < rd e (CH_RG_ABO_PW_MAX n) * 64) &&
    (!on e (CH_RG_RFM_RFM_REQ n) || (decide (rd e (CH_RG_RFM_RAAIMT n) ≥ 8) &&
      decide (rd e (CH_RG_RFM_RAAMMT n) > rd e (CH_RG_RFM_RAAIMT n))))

/-- R248. -/
def trnOk (e : Engine) (n : Nat) : Bool :=
  rd e (CH_TRN_CTRL_PERIOD n) != 0 && rd e (CH_TRN_CTRL_TEMP_DELTA n) != 0 && rd e (CH_TRN_CTRL_TRK_MS n) != 0 &&
    inRange (rd e (CH_TRN_CFG_SLICE_NS n)) 50 200

/-- R280. -/
def scrubOk (e : Engine) (n : Nat) : Bool :=
  inRange (rd e (CH_SCRUB_CTRL_PERIOD_H n)) 1 168 && rd e (CH_SCRUB_CTRL_ECS_POLL_H n) != 0

/-- R431. -/
def telOk (e : Engine) : Bool :=
  inRange (rd e TEL_CTRL_SHIFT) 4 20 && rd e TEL_CTRL_COUNT_MODE != 0 && decide (rd e TEL_CTRL_EPOCH_MS ≥ 10)

/-- R341. -/
def cryOk (e : Engine) : Bool :=
  let g := gcfg e
  (freshLog e == 0 || (inRange (freshLog e) 14 34 && decide (treeLines e ≤ g.ctrRows * sliceLines g))) &&
    e.sec.drbg.seeded

/-- R95, R105, R341, R369, R395. -/
def ingOk (e : Engine) : Bool :=
  on e GC_GRIST_CTRL_GRIST_EN && on e CRY_CTRL_CRY_EN && on e DIR_CTRL_DIR_EN && on e QOS_CTRL_QOS_EN &&
    inRange (rd e GC_ING_CTRL_C0_ALLOT) 1 8 && inRange (rd e GC_ING_CTRL_C1_ALLOT) 1 16 &&
    inRange (rd e GC_ING_CTRL_C3_ALLOT) 1 16

/-- The checks of an enable, on the values that the write has stored. -/
def enableOk (e : Engine) (a : Nat) : Bool :=
  let n := chIx a
  if a = GC_ING_CTRL then ingOk e
  else if a = CRY_CTRL then cryOk e
  else if a = TEL_CTRL then telOk e
  else if a = RING_CTRL then rd e RING_CTRL_HB_MS != 0
  else if a = CH_SCHED_CTRL n then schedOk e n
  else if a = CH_REF_CTRL n then refOk e n
  else if a = CH_RG_CTRL n then rgOk e n
  else if a = CH_TRN_CTRL n then trnOk e n
  else if a = CH_SCRUB_CTRL n then scrubOk e n
  else true

/-- R105, R341, R369, R395: the enable does not clear while ING_EN is 1. -/
def clearRefused (e : Engine) (a : Nat) : Bool :=
  on e GC_ING_CTRL_ING_EN && [GC_GRIST_CTRL, CRY_CTRL, DIR_CTRL, QOS_CTRL].contains a

/-- R569: a refused ING_EN is flagged too in the region of each block whose enable is 0. -/
def ingRefused (e : Engine) (p : RegPort) : Engine :=
  let e := if on e CRY_CTRL_CRY_EN then e else rejectIn e CRY_CFG_REJECT p GC_ING_CTRL 1
  let e := if on e DIR_CTRL_DIR_EN then e else rejectIn e DIR_CFG_REJECT p GC_ING_CTRL 1
  if on e QOS_CTRL_QOS_EN then e else rejectIn e QOS_CFG_REJECT p GC_ING_CTRL 1

/-! ## Writes that are discarded whole -/

/-- The bits `hi` to `lo` of a written word. -/
abbrev wf (w : Word) (f : Fld) : Nat := wordField w f.hi f.lo

/-- R258: another valid mark of the channel names the rank and subchannel. -/
def markClash (e : Engine) (n m : Nat) (w : Word) : Bool :=
  (List.range 8).any fun k => k != m && on e (CH_ECC_MARK_VALID n k) &&
    rd e (CH_ECC_MARK_RANK n k) == wf w (CH_ECC_MARK_RANK n m) && rd e (CH_ECC_MARK_SC n k) == wf w (CH_ECC_MARK_SC n m)

/-- R474: the write of PWR_CH_PWR is not allowed for channel `n`; PHY_EN and CTL_EN beside the changed bit count as
the write leaves them, so that the one write of R593 is allowed (DEDUCED). -/
def chPwrBad (e : Engine) (w : Word) (n : Nat) : Bool :=
  let v := reg e PWR_CH_PWR
  let busy := on e (CH_SCHED_CTRL_SCHED_EN n) || on e (CH_REF_CTRL_REF_EN n) || on e (CH_RG_CTRL_RG_EN n) ||
    on e (CH_TRN_CTRL_TRN_EN n) || on e (CH_SCRUB_CTRL_SCRUB_EN n)
  (v.getLsbD n && !w.getLsbD n && busy) || (!v.getLsbD n && w.getLsbD n && !w.getLsbD (n + 16)) ||
    (decide (n % 2 = 0) && v.getLsbD (n + 16) && !w.getLsbD (n + 16) && w.getLsbD (n + 1))

/-- The discard rules of a channel's registers. -/
def discardCh (e : Engine) (a al : Nat) (data w : Word) : Option Nat :=
  let n := chIx a
  let go := al == 0 && data.getLsbD 31
  let bad := fun (b : Bool) => if b then some 2 else none
  if a = CH_ARB_WD n then
    bad (wf w (CH_ARB_WD_WD_TRAIN n) == 0 || wf w (CH_ARB_WD_WD_MAINT n) == 0 || wf w (CH_ARB_WD_WD_DATA n) == 0)
  else if a = CH_TEMP_CFG n then
    bad (decide (wf w (CH_TEMP_CFG_HOT_OFF n) ≥ wf w (CH_TEMP_CFG_HOT_ON n)) ||
      decide (wf w (CH_TEMP_CFG_HOT_ON n) ≥ wf w (CH_TEMP_CFG_CRIT n)) || wf w (CH_TEMP_CFG_POLL_MS n) == 0)
  else if a = CH_TRN_CMD n then
    bad (go && !goAllowed e n (wf w (CH_TRN_CMD_MODE n)) (wf w (CH_TRN_CMD_STEPS n)))
  else if n % 2 = 0 ∧ a = CH_I3C_CMD (n / 2) then bad (go && on e (CH_I3C_CMD_BUSY (n / 2)))
  else if a = CH_ECC_CTRL n then
    bad (wf w (CH_ECC_CTRL_DEV_TH n) == 0 || wf w (CH_ECC_CTRL_WIN_MS n) == 0)
  else if (List.range 8).any fun m => a == CH_ECC_MARK n m then
    let m := (a - CH_ECC_MARK n 0) / 0x10
    bad (wf w (CH_ECC_MARK_VALID n m) == 1 && (decide (wf w (CH_ECC_MARK_DEV n m) > 9) || markClash e n m w))
  else none

/-- R429: a monitor's configuration that is discarded. -/
def wmBad (k : Nat) (w : Word) : Bool :=
  wf w (TEL_WM_CFG_SOURCE k) == 7 || decide (wf w (TEL_WM_CFG_MARK k) > wmRange (wf w (TEL_WM_CFG_SOURCE k)))

/-- R559: promotion parameters that are discarded. -/
def srcCfgBad (s : Nat) (w : Word) : Bool :=
  let v := wf w (FLT_SRC_CFG_W_VAL s)
  let u := wf w (FLT_SRC_CFG_W_UNIT s)
  let us := v * (if u = 0 then 1 else if u = 1 then 1000 else 1000000)
  wf w (FLT_SRC_CFG_N s) == 0 || u == 3 || v == 0 || decide (us > 60000000)

/-- R481, R482, R499: writes of bindings and MBX_CTRL that are discarded. -/
def discardMbx (e : Engine) (p : RegPort) (a : Nat) (w : Word) : Option Nat :=
  if a = MBX_CTRL then
    if p ≠ .mc01 then some 2
    else if on e MBX_CTRL_LOCK ∧ wf w MBX_CTRL_LOCK = 0 then some 3
    else if wf w MBX_CTRL_CORE_WD = 0 ∨ wf w MBX_CTRL_CLAIM_TO = 0 then some 2
    else none
  else if (List.range 64).any fun m => a == MBX_BIND m then
    if p ≠ .mc01 then some 2 else if on e MBX_CTRL_LOCK then some 3 else none
  else none

/-- The cause with which a write is discarded whole by a rule of its field table, on the value `w` that it
would leave in the RW and RWD fields. -/
def discarded (e : Engine) (p : RegPort) (a al : Nat) (data w : Word) : Option Nat :=
  let bad := fun (b : Bool) => if b then some 2 else none
  match a / 0x100000 with
  | 0 =>
    if a = GC_PAR_INJ then bad (!on e FLT_CTRL_INJ_EN)
    else if a = GC_SPARE_RATE then bad (wf w GC_SPARE_RATE_RATE == 0)
    else none
  | 1 => discardCh e a al data w
  | 2 => if a = DIR_BI_TIMEOUT then bad (!inRange (wf w DIR_BI_TIMEOUT_TIMEOUT_US) 10 1000000) else none
  | 3 =>
    if a = CRY_CASK_CFG then
      let s := wf w CRY_CASK_CFG_SC_WAYS
      let c := wf w CRY_CASK_CFG_CTR_WAYS
      bad (s == 0 || c == 0 || decide (s + c > 15))
    else if a = CRY_ADM then
      bad ([CRY_ADM_FRESH_WR, CRY_ADM_FRESH_RD, CRY_ADM_AUTH_WR, CRY_ADM_AUTH_RD].any fun f => decide (wf w f < 16))
    else none
  | 4 =>
    if a = QOS_CTRL then bad (wf w QOS_CTRL_MISS_TH == 0 || wf w QOS_CTRL_MISS_WIN == 0) else none
  | 5 =>
    if a = FLT_CTRL then
      bad (!inRange (wf w FLT_CTRL_QUIET_MS) 1 60000 ||
        (wf w FLT_CTRL_INJ_EN == 1 && !on e FLT_CTRL_INJ_EN && on e MBX_CTRL_LOCK))
    else if (List.range 0x50).any fun s => a == FLT_SRC_CFG s then
      let s := (a - FLT_SRC_CFG 0) / 0x40
      bad (decide (s ≥ 2) && srcCfgBad s w)
    else none
  | 6 =>
    if a = PWR_BIN_NEXT then bad (wf w PWR_BIN_NEXT_BIN_NEXT == 7)
    else if a = PWR_TB_CFG then bad (wf w PWR_TB_CFG_STEP_TH == 0 || wf w PWR_TB_CFG_UNC_PPM == 0)
    else if a = PWR_CMD then
      bad (al == 0 && data.getLsbD 31 &&
        (decide (wf w PWR_CMD_TARGET > 4) || (wf w PWR_CMD_COMMANDED == 1 && on e PWR_CTRL_IN_SERVICE)))
    else if a = PWR_CH_PWR then bad ((List.range 16).any (chPwrBad e w))
    else none
  | 7 => discardMbx e p a w
  | 8 =>
    if (List.range 16).any fun k => a == TEL_WM_CFG k then bad (wmBad ((a - TEL_WM_CFG 0) / 0x20) w) else none
  | _ => none

/-! ## Storing a write (R8–R10) -/

/-- What an access does to a field's bits: store, set, clear or toggle (R9). -/
def aliasApply (al : Nat) (old data : Word) : Word :=
  match al with
  | 0 => data
  | 1 => old ||| data
  | 2 => old &&& ~~~ data
  | _ => old ^^^ data

/-- A word with the bits of a mask taken from another one. -/
def mixWord (m new old : Word) : Word := (new &&& m) ||| (old &&& ~~~ m)

/-- The value that a write would leave, with every RW and RWD field written. -/
def wanted (d : RegDesc) (al : Nat) (old data : Word) : Word :=
  mixWord (accMask [.rw, .rwd] d.fields) (aliasApply al old data) old

/-- Bits that a lock keeps at their value (R340, R579), and ACTIVE of the sparing control, which stays 1
until the next reset (R276). -/
def lockMask (e : Engine) (p : RegPort) (a : Nat) : Word :=
  if a = CRY_CTRL ∧ on e CRY_CTRL_LOCK then bitMask 30 30 ||| bitMask 29 18 ||| bitMask 13 8
  else if a = GC_DBG_CTRL ∧ (p ≠ .mc01 ∨ on e MBX_CTRL_LOCK) then bitMask 31 31
  else 0

/-- What became of a write to a register with RW or RWD fields. -/
structure Wrote where
  e : Engine
  /-- The enable of the register was set, or cleared, by the write. -/
  set : Bool
  clr : Bool
  done : Bool
  deriving DecidableEq, Repr

/-- R8–R10, R566–R569: a write to the RW and RWD fields of the register at `a`. GRIST_EN and DIR_EN read 0 until
the check or the initialisation that the write starts has completed (R103, R349). -/
def storeWrite (e : Engine) (p : RegPort) (a al : Nat) (d : RegDesc) (data : Word) : Wrote :=
  let old := reg e a
  let w := wanted d al old data
  match discarded e p a al data w with
  | some c => ⟨reject e p a c, false, false, false⟩
  | none =>
    let rwd := if d.blk.any (blkOn e (chIx a)) then accMask [.rwd] d.fields else 0
    let lock := lockMask e p a
    let w1 := mixWord (rwd ||| lock) old w
    let w1 := if a = GC_SPARE_CTRL then w1 ||| (old &&& bitMask 31 31) else w1
    let en := isEnableReg a
    let set := en && !old.getLsbD 31 && w1.getLsbD 31
    let clr := en && old.getLsbD 31 && !w1.getLsbD 31
    let setBad := set && !enableOk (setReg e a w1) a
    let clrBad := clr && clearRefused e a
    let late := set && (a == GC_GRIST_CTRL || a == DIR_CTRL)
    let w2 := if setBad || late then setWordField w1 31 31 0
      else if clrBad then setWordField w1 31 31 1 else w1
    let e1 := storeReg e a w2
    let e1 := if (old ^^^ w) &&& lock ≠ 0 then reject e1 p a 3
      else if (old ^^^ w) &&& rwd ≠ 0 then reject e1 p a 0
      else if setBad || clrBad then reject e1 p a 1
      else e1
    let e1 := if setBad ∧ a = GC_ING_CTRL then ingRefused e1 p else e1
    ⟨e1, set && !setBad, clr && !clrBad, true⟩

end Sys2Proof.Machine
end

