-- ==== Sys2Proof/Machine/RegView.lean ====
section
/-! DEFINITION. What a register reads as (R8, R10, R564): fields that hardware maintains elsewhere in the
engine are formed here; and the wide-read window (R574–R583). -/

namespace Sys2Proof.Machine

/-- The bank of the wide-read window that a port addresses (R574). -/
def wrwIx : RegPort → Nat
  | .ext => 0 | .mc01 => 1 | .mc23 => 2

def wrwReset : WrwBank := ⟨0, false, false, false, [0, 0, 0, 0]⟩
def getWrw (e : Engine) (b : Nat) : WrwBank := nth e.dbg.wrw b wrwReset
def putWrw (e : Engine) (b : Nat) (w : WrwBank) : Engine :=
  { e with dbg := { e.dbg with wrw := setNth e.dbg.wrw b w } }

/-- Valid ways, or pairs (R368). -/
def dirUsed (e : Engine) : Nat :=
  e.dir.sets.foldl (fun n s => n + (s.2.ways.filter fun w => !w.holders.isEmpty).length) 0

/-- DIR_WALK: the walk in progress (R368). -/
def walkWord (e : Engine) : Word :=
  match e.dir.walks.head? with
  | some w => setFields 0
      [(DIR_WALK_BUSY, 1), (DIR_WALK_KIND, bit w.unenroll), (DIR_WALK_AGENT, w.agent), (DIR_WALK_SET, w.set)]
  | none => 0

/-- DIR_ENROLL_a (R370). -/
def enrollWord (e : Engine) (a : Nat) : Word :=
  let r := getEnroll e a
  setFields 0 [(DIR_ENROLL_ENROLLED a, bit r.enrolled), (DIR_ENROLL_PLACE a, bit r.place),
    (DIR_ENROLL_DEAD a, bit r.dead), (DIR_ENROLL_WALK a, bit (e.dir.walks.any fun w => w.agent == a)),
    (DIR_ENROLL_PORT a, r.port), (DIR_ENROLL_VIDX a, r.vidx)]

/-- The shadow of a class's counters (R425). -/
def shadowOf (e : Engine) (c : Nat) : TelCnt := tget noTel e.tel.shadow c

/-- A mask of the positions below `n` at which `f` holds. -/
def maskOf (n : Nat) (f : Nat → Bool) : Nat :=
  (List.range n).foldl (fun m i => m + if f i then 2 ^ i else 0) 0

/-- The telemetry registers. -/
def telView (e : Engine) (a : Nat) : Word :=
  if a = TEL_WM_SUMMARY then word (maskOf 16 fun k => on e (TEL_WM_STATUS_NOTICE k))
  else if TEL_LAT_MAX 0 ≤ a ∧ a < TEL_HIST 0 0 then
    let c := (a - TEL_LAT_MAX 0) / 0x20
    word (if a % 0x20 = 0 then (shadowOf e c).latMax else (shadowOf e c).latCnt)
  else if TEL_HIST 0 0 ≤ a ∧ a < TEL_WM_CFG 0 then
    let k := (a - TEL_HIST 0 0) / 0x10
    word (nth (shadowOf e (k / 8)).hist (k % 8) 0)
  else reg e a

/-- The directory registers. -/
def dirView (e : Engine) (a : Nat) : Word :=
  if a = DIR_OCC then word (dirUsed e)
  else if a = DIR_QUEUE then setFields 0 [(DIR_QUEUE_RETRY_OCC, retryOcc e),
    (DIR_QUEUE_VICTIM_OCC, e.dir.victims.length), (DIR_QUEUE_SNOOP_OCC, (tagged e).length)]
  else if a = DIR_OTT then word (ottOcc e)
  else if a = DIR_WALK then walkWord e
  else if DIR_ENROLL 0 ≤ a then enrollWord e ((a - DIR_ENROLL 0) / 0x10)
  else reg e a

/-- The clock and power registers. -/
def pwrView (e : Engine) (a : Nat) : Word :=
  if a = PWR_CLK_STATUS then setFields (reg e a) [(PWR_CLK_STATUS_BIN, e.clk.bin),
    (PWR_CLK_STATUS_CAL_VALID, bit e.clk.calValid), (PWR_CLK_STATUS_LOCKED, bit (e.clk.root == .locked))]
  else if a = PWR_TB_STATE then setFields (reg e a) [(PWR_TB_STATE_SLEW_NEG, bit (decide (e.clk.slew < 0))),
    (PWR_TB_STATE_SLEW_POS, bit (decide (e.clk.slew > 0))), (PWR_TB_STATE_EPOCH_INVALID, bit e.clk.epochInvalid)]
  else reg e a

/-- The fault registers. -/
def fltView (e : Engine) (a : Nat) : Word :=
  if FLT_PEND 0 ≤ a ∧ a < FLT_PEND 3 then
    let k := (a - FLT_PEND 0) / 0x10
    word (maskOf 32 fun j => srcDefined (32 * k + j) && on e (FLT_SRC_STATUS_PEND (32 * k + j)))
  else if a = FLT_HIST_STATE then word e.flt.hist.length
  else if a = FLT_RECOVERY then setFields (reg e a) [(FLT_RECOVERY_RECENT, min 3 (recentNow e).length)]
  else if a = FLT_SRC_CFG 0 ∨ a = FLT_SRC_CFG 1 then 0
  else reg e a

/-- R8, R564: what a read of the register at the value address `a` returns through a port. -/
def regRead (e : Engine) (p : RegPort) (a : Nat) : Word :=
  match a / 0x100000 with
  | 0 =>
    if a = GC_CAP then setFields (reg e a) [(GC_CAP_DBG_LOCK, bit Config.dbgLock)]
    else if a = GC_WRW_SEL then
      let w := getWrw e (wrwIx p)
      setFields 0 [(GC_WRW_SEL_VALID, bit w.valid), (GC_WRW_SEL_BAD, bit w.bad), (GC_WRW_SEL_SEL, w.sel)]
    else if GC_WRW_D 0 ≤ a ∧ a ≤ GC_WRW_D 3 then
      let w := getWrw e (wrwIx p)
      if w.valid then nth w.words ((a - GC_WRW_D 0) / 0x10) 0 else 0
    else reg e a
  | 2 => dirView e a
  | 3 => if a = CRY_FW_SVN then
      setFields 0 [(CRY_FW_SVN_RUN_SVN, (nth e.cores 1 ⟨0, none, false, 0⟩).svn),
        (CRY_FW_SVN_MIN_SVN, Config.minSvn.toNat)]
    else reg e a
  | 5 => fltView e a
  | 6 => pwrView e a
  | 7 => if a = MBX_IRQ_SRC then word (irqSrc e) else reg e a
  | 8 => telView e a
  | _ => reg e a

/-- R562, R564: a read of an address, with REG_ERR: zero where it is set. -/
def readAddr (e : Engine) (p : RegPort) (addr : Nat) : Word × Bool :=
  if accessError e addr ≠ 0 then (0, true) else (regRead e p (valueAddr addr), false)

/-! ## Records of the wide-read window (R574–R583) -/

/-- The two words of a number, low half first (R7). -/
def twoWords (n : Nat) : List Word := [word n, word (n / 2 ^ 32)]

/-- R259. -/
def eccWords (r : EccRec) : List Word :=
  twoWords r.tb ++
  [word (2 ^ 31 + r.kind * 2 ^ 29 + r.origin * 2 ^ 27 + bit r.ovf * 2 ^ 26 + r.dev % 16 * 2 ^ 22 + r.loc.sc * 2 ^ 21 +
      r.loc.row),
   word (r.loc.rank * 2 ^ 28 + r.loc.bg * 2 ^ 25 + r.loc.bank * 2 ^ 23 + r.loc.col * 2 ^ 16 + r.cw * 2 ^ 12)]

/-- R364. -/
def poisonWords (r : PoisonRec) : List Word :=
  twoWords r.tb ++
  [word (2 ^ 31 + bit r.byReset * 2 ^ 30 + bit r.ovf * 2 ^ 29 + r.agent * 2 ^ 6 + r.la / 2 ^ 32), word r.la]

/-- R536. -/
def histWords (r : HistRec) : List Word :=
  twoWords r.tb ++
  [word (2 ^ 31 + classCode r.cls * 2 ^ 29 + bit r.promoted * 2 ^ 28 + bit r.ovf * 2 ^ 27 + r.source * 2 ^ 16 + r.rseq * 2 ^ 8),
   r.syn]

/-- R582. -/
def traceWords (r : TraceRec) : List Word :=
  [word r.tb, word (r.kind * 2 ^ 28 + r.loc % 2 ^ 24), r.value, word (r.tb / 2 ^ 32 % 2 ^ 16 * 2 ^ 16)]

def noWords : List Word := [0, 0, 0, 0]

/-- R425: RD_BYTES, WR_BYTES or LAT_SUM of a class. -/
def telWords (e : Engine) (c k : Nat) : List Word :=
  let t := shadowOf e c
  twoWords (if k = 0 then t.rd else if k = 1 then t.wr else t.latSum) ++ [0, 0]

/-- R583: the core state of a pair. The program counter of a pair that runs is not stated: a free value. -/
def coreWords (e : Engine) (p : Nat) : List Word :=
  [word (Config.choice e.free), word (bit (nth e.dbg.halted p false) * 2 + bit (rd e (pairField p) == 1)), 0, 0]

/-- R583: whether a bank may read the core state of a pair. -/
def coreReadable (e : Engine) (b p : Nat) : Bool :=
  !(b == 0 && !on e GC_DBG_CTRL_DBG_EN) && !(Config.dbgLock && p == 1)

/-- R575: the capture of a selector through a bank: the words, none where it is bad, and the engine after
the removal of a record. -/
def wrwCapture (e : Engine) (b sel : Nat) : Option (List Word) × Engine :=
  if inRange sel 0x100 0x10F then
    let n := sel - 0x100
    let c := getChan e n
    match c.ecc with
    | r :: rs => (some (eccWords r), putChan e n { c with ecc := rs })
    | [] => (some noWords, e)
  else if sel = 0x200 then
    match e.dir.log with
    | r :: rs => (some (poisonWords r), { e with dir := { e.dir with log := rs } })
    | [] => (some noWords, e)
  else if inRange sel 0x300 0x31F ∧ sel % 4 < 3 then (some (telWords e ((sel - 0x300) / 4) (sel % 4)), e)
  else if sel = 0x400 then (some (twoWords (tbNs e) ++ [word (e.clk.tb % nsUnit), word (tbUncert e)]), e)
  else if sel = 0x401 then
    let e := kilnSync e
    (some (twoWords e.clk.kiln ++ twoWords e.clk.lastSleep), e)
  else if inRange sel 0x500 0x51F then
    (some (((e.flt.hist[sel - 0x500]?).map histWords).getD noWords), e)
  else if sel = 0x520 then (some ((e.flt.cause.map histWords).getD noWords), e)
  else if inRange sel 0x600 0x15FF then
    (some (((e.dbg.trace[sel - 0x600]?).map traceWords).getD noWords), e)
  else if inRange sel 0x2000 0x2001 then
    if coreReadable e b (sel - 0x2000) then (some (coreWords e (sel - 0x2000)), drawFree e) else (none, e)
  else (none, e)

/-- WRW_CAPTURE (R574): the capture that a selector write of the bank set going. -/
def wrwDone (e : Engine) (b : Nat) : Engine :=
  let w := getWrw e b
  if clocked e ∧ w.pend then
    let (ws, e) := wrwCapture e b w.sel
    putWrw e b { w with pend := false, valid := true, bad := ws.isNone, words := ws.getD noWords }
  else e

end Sys2Proof.Machine
end

