-- ==== Sys2Proof/Machine/RegCmds.lean ====
section
/-! DEFINITION. Writes through the register port and the internal port (R47, R481): what a stored write sets
going, the registers that are no plain storage, and the commands that write one register. -/

namespace Sys2Proof.Machine

/-! ## Channel blocks -/

/-- R212, R209: RG_EN has set: entries at the new M are marked, and the new cap holds for the current N. -/
def rgEnabled (e : Engine) (n : Nat) : Engine :=
  let m := mitLevel e n
  let mode := rd e (CH_RG_CTRL_RG_MODE n)
  let old := rgMode e n
  let e := putChan e n { getChan e n with rgMode := mode }
  (getChan e n).banks.foldl (fun (e : Engine) (kb : Nat × Bank) =>
    let c := getChan e n
    let b := kb.2
    let cap := decide (mode ≤ 1) && decide (b.n ≥ 32 * m)
    let rg := if mode = 2 ∨ (mode = 1 ∧ cap) then b.rg else rgMark m b.rg
    let e := putChan e n (putBank c kb.1 { b with rg := rg, capped := cap })
    if cap && (!b.capped || old != mode) then rgCapFlag e n (prankIx e (kb.1 / 32 % 16)) else e) e

/-- R280: every device's counters and window counts are cleared. -/
def eccClear (e : Engine) (n : Nat) : Engine :=
  let e := (List.range 320).foldl (fun e k => setReg e (CH_ECC_DEV n (k / 20) (k / 10 % 2) (k % 10)) 0) e
  putChan e n { getChan e n with win := [] }

/-- The timing registers of a channel. -/
def isTim (a n : Nat) : Bool := decide (CH_TIM0 n ≤ a) && decide (a ≤ CH_TIM9 n)

/-- What a write of a channel's register sets going. -/
def afterCh (w : Wrote) (a al : Nat) (data : Word) : Engine :=
  let n := chIx a
  let e := w.e
  let go := al == 0 && data.getLsbD 31
  if isTim a n then timWritten e n
  else if a = CH_SCHED_CTRL n then (if w.set then schedSet e n else e)
  else if a = CH_REF_CTRL n then (if w.set || w.clr then judgeAll e n else e)
  else if a = CH_RG_CTRL n then (if w.set then rgEnabled e n else e)
  else if a = CH_TRN_CTRL n then
    (if w.set then mapTrain e n fun t => { t with drift := e.clk.nominal } else e)
  else if a = CH_TRN_CMD n then
    (if go then beginRun e n (rd e (CH_TRN_CMD_MODE n)) (rd e (CH_TRN_CMD_PRANKS n)) (rd e (CH_TRN_CMD_STEPS n)) none
     else e)
  else if a = CH_SCRUB_CTRL n then
    (if w.set then putChan e n { getChan e n with
        patrolAt := e.clk.nominal, scrubAt := e.clk.nominal, ecsAt := e.clk.nominal } else e)
  else if a = CH_ECC_CTRL n then (if al == 0 && data.getLsbD 30 then eccClear e n else e)
  else if n % 2 = 0 ∧ a = CH_I3C_CMD (n / 2) ∧ go then
    let b := n / 2
    let e := setReg e a (setFields (reg e a) [(CH_I3C_CMD_BUSY b, 1), (CH_I3C_CMD_DONE b, 0), (CH_I3C_CMD_ERR b, 0)])
    let c := getChan e n
    putChan e n { c with i3c := { c.i3c with queue := c.i3c.queue ++ [⟨4, .host, rd e (CH_I3C_CMD_HUB b), 0⟩] } }
  else e

/-! ## The other blocks -/

/-- R417, R420: TEL_EN has set: the sampler is seeded, and takes nothing before; a new epoch starts with an empty list. -/
def telEnabled (e : Engine) : Engine :=
  telSeed { e with tel := { e.tel with
      seedWait := true, drawn := 0, live := [], samples := 0, partialEp := isSafe e, epochAt := e.clk.nominal } }

/-- R420: TEL_EN has cleared: the epoch ends at once, PARTIAL. `on` is the register with the settings that it ran under. -/
def telDisabled (e : Engine) : Engine :=
  epochEnd (telPartial e)

/-- R425: SNAP and CNT_CLR, in this order. -/
def telActs (e : Engine) (data : Word) : Engine :=
  let e := if data.getLsbD 30 then { e with tel := { e.tel with shadow := e.tel.cnt } } else e
  if data.getLsbD 29 then { e with tel := { e.tel with cnt := [] } } else e

/-- What a write of QOS_CTRL sets going (R398, R413): COMMIT comes before the buckets fill. -/
def afterQos (w : Wrote) (p : RegPort) (al : Nat) (data : Word) : Engine :=
  let e := w.e
  let e := if al = 0 ∧ data.getLsbD 30 then
      (if commitBad e then reject e p QOS_CTRL 2 else qosCommit e)
    else e
  if w.set then fillBuckets e else e

/-- R118, R125, R130: RING_EN changes, and a new timebase master ends this engine's sending in its place. -/
def afterRing (w : Wrote) (old : Word) : Engine :=
  let e := w.e
  let e := if wf old RING_CTRL_TB_MASTER ≠ rd e RING_CTRL_TB_MASTER
    then mapRing e fun r => { r with sender := false } else e
  if w.set then ringEnabled e else if w.clr then ringDisabled e else e

/-- What a stored write sets going. -/
def afterWrite (w : Wrote) (p : RegPort) (a al : Nat) (old data : Word) : Engine :=
  let e := w.e
  let go := al == 0 && data.getLsbD 31
  match a / 0x100000 with
  | 0 =>
    if a = GC_ING_CTRL then (if w.set then issueAllotments e else e)
    else if a = GC_GRIST_CTRL then
      (if w.set ∧ e.dbg.gristEnd.isNone then
        { e with dbg := { e.dbg with gristEnd := some (e.clk.cyc + 64 * regCycle, isInternal p) } } else e)
    else if a = GC_SPARE_CTRL then
      (if !old.getLsbD 31 && on e GC_SPARE_CTRL_ACTIVE then writeDrops e else e)
    else e
  | 1 => afterCh w a al data
  | 2 =>
    if a = DIR_CTRL ∧ w.set ∧ e.dir.initEnd.isNone then
      { e with dir := { e.dir with sets := [], initEnd := some (e.clk.cyc + 262144) } }
    else e
  | 3 => if a = CRY_CTRL ∧ w.set then ctxGenerate e 0 0 else e
  | 4 =>
    if a = QOS_CTRL then afterQos w p al data
    else if a = QOS_SERVICE then setService (setReg e a old) (reg e a)
    else if QOS_CAP 0 ≤ a ∧ a < QOS_SHED 0 then shedAsk e
    else e
  | 6 =>
    if a = PWR_TB_SETC ∧ go then
      applyEstimate e (((reg e PWR_TB_SET0).toNat + (reg e PWR_TB_SET1).toNat * 2 ^ 32) * nsUnit) (rd e PWR_TB_SETC_UNCERT)
    else if a = PWR_CMD ∧ go then powerRequest e (rd e PWR_CMD_TARGET) none
    else if a = PWR_CH_PWR then (List.range 16).foldl (chanOff old) e
    else e
  | 8 =>
    if a = TEL_CTRL then
      let e := if al = 0 then telActs e data else e
      if w.set then telEnabled e else if w.clr then telDisabled e else e
    else if TEL_WM_CFG 0 ≤ a ∧ w.done then
      let k := (a - TEL_WM_CFG 0) / 0x20
      if on e TEL_CTRL_TEL_EN then wmLook (wmSetArmed e k true) k else wmSetArmed e k true
    else e
  | 9 => if a = RING_CTRL then afterRing w old else e
  | _ => e

/-! ## Registers that are no plain storage -/

/-- GC_WRW_SEL (R574): the bank of the port takes the selector. -/
def wrwSelect (e : Engine) (p : RegPort) (al : Nat) (data : Word) : Engine :=
  let w := getWrw e (wrwIx p)
  let s := wordField (aliasApply al (word w.sel) data) 15 0
  putWrw e (wrwIx p) { w with sel := s, valid := false, bad := false, pend := true }

/-- R311: the first debug access to MC2/MC3 of a part without the fuse. -/
def dbgTouch (e : Engine) (pair : Nat) : Engine :=
  if pair = 1 ∧ e.dbg.touched = false then
    zeroize { e with dbg := { e.dbg with touched := true } }
  else e

/-- The pair is halted by debug. -/
def isHalted (e : Engine) (p : Nat) : Bool := nth e.dbg.halted p false

/-- The halt of a pair, with its bit in GC_DBG_CORE; its watchdog stands still while it is halted (R580). -/
def setHalted (e : Engine) (p : Nat) (h : Bool) : Engine :=
  if isHalted e p = h then e
  else
    let e := if rd e (pairField p) = 1 then e else swapKick e p
    let e := { e with dbg := { e.dbg with halted := setNth e.dbg.halted p h } }
    wr e (if p = 0 then GC_DBG_CORE_HALTED01 else GC_DBG_CORE_HALTED23) (bit h)

/-- GC_DBG_CORE (R580, R584). -/
def dbgCore (e : Engine) (p : RegPort) (al : Nat) (data : Word) : Engine :=
  let act := fun (k : Nat) => al == 0 && data.getLsbD k
  let w := aliasApply al (reg e GC_DBG_CORE) data
  let pair := wf w GC_DBG_CORE_PAIR
  if on e GC_DBG_CTRL_DBG_EN = false then reject e p GC_DBG_CORE 3
  else if (act 31 && act 30) || (act 31 && act 29) || (act 30 && act 29) then reject e p GC_DBG_CORE 2
  else if (act 31 || act 30) && pair == 1 && Config.dbgLock then reject e p GC_DBG_CORE 3
  else
    let e := storeReg e GC_DBG_CORE (setWordField (reg e GC_DBG_CORE) 24 24 pair)
    if act 31 then setHalted (dbgTouch e pair) pair true
    else if act 30 then dbgTouch e pair
    else if act 29 then setHalted e pair false
    else e

/-- FLT_INJECT (R557). -/
def fltInject (e : Engine) (p : RegPort) (data : Word) : Engine :=
  let c := wf data FLT_INJECT_CLASS
  let s := wf data FLT_INJECT_SOURCE
  if on e FLT_CTRL_INJ_EN = false ∨ c = 3 ∨ srcDefined s = false ∨ (s ≤ 1 ∧ c ≠ 2) then reject e p FLT_INJECT 2
  else if data.getLsbD 31 then
    if s = 0 then reportFault e 0 .fatal false 0xFE000000 2
    else raise e s (if c = 0 then .corrected else if c = 1 then .contained else .fatal) 0xFE000000
  else e

/-- FLT_HIST_POP (R536). -/
def histPop (e : Engine) (n : Nat) : Engine := { e with flt := { e.flt with hist := e.flt.hist.drop n } }

/-- MBX_MBm_CMD (R481, R485, R499): the actions of the written word. -/
def boxCmd (e : Engine) (p : RegPort) (m : Nat) (data : Word) : Engine :=
  let any := data.getLsbD 31 || data.getLsbD 30 || data.getLsbD 29
  if any && !boxUsable e m then boxFlag e MBX_STATUS_UNBOUND m
  else
    let e := if data.getLsbD 31 then boxConsume e m p else e
    let e := if data.getLsbD 30 then
        (if isInternal p then boxRing e m p else reject e p (MBX_MB_CMD m) 2) else e
    if data.getLsbD 29 then boxRelease e m p else e

/-- MBX_CORE_KICK (R478, R481). -/
def kickWrite (e : Engine) (p : RegPort) (data : Word) : Engine :=
  match portPair p with
  | none => reject e p MBX_CORE_KICK 2
  | some k => if data.getLsbD 0 then coreKick e k else e

/-- The registers of the MBX_ region that are no plain storage; none for another one. -/
def mbxSpecial (e : Engine) (p : RegPort) (a al : Nat) (data : Word) : Option Engine :=
  if a < MBX_MB_STATE 0 then
    let m := (a - MBX_MB_D 0 0) / 0x400
    let w := (a - MBX_MB_D 0 0) % 0x400 / 0x10
    some (boxWrite e m w p (aliasApply al (reg e a) data))
  else if MBX_MB_CMD 0 ≤ a ∧ a < MBX_BIND 0 then
    some (if al = 0 then boxCmd e p ((a - MBX_MB_CMD 0) / 0x10) data else e)
  else if a = MBX_CORE_KICK then some (if al = 0 then kickWrite e p data else e)
  else if MBX_SEM_OP 0 ≤ a then some (if al = 0 then semOp e ((a - MBX_SEM_OP 0) / 0x10) p data else e)
  else none

/-- R526: MC0/MC1 write the generation registers through the internal port; they are RO at the register port. -/
def genWrite (e : Engine) (a al : Nat) (data : Word) : Engine :=
  match regDesc a with
  | some d => setReg e a (mixWord (accMask [.ro] d.fields) (aliasApply al (reg e a) data) (reg e a))
  | none => e

/-- The registers that are no plain storage; none for another one. -/
def special (e : Engine) (p : RegPort) (a al : Nat) (data : Word) : Option Engine :=
  match a / 0x100000 with
  | 0 => if a = GC_WRW_SEL then some (wrwSelect e p al data)
    else if a = GC_DBG_CORE then some (dbgCore e p al data)
    else if a = GC_CFG_GEN ∧ p = .mc01 then some (genWrite e a al data)
    else none
  | 1 => if a = CH_CFG_GEN (chIx a) ∧ p = .mc01 then some (genWrite e a al data) else none
  | 5 => if a = FLT_INJECT then some (if al = 0 then fltInject e p data else e)
    else if a = FLT_HIST_POP then some (if al = 0 then histPop e (wordField data 5 0) else e)
    else if a = FLT_SRC_CFG 0 ∨ a = FLT_SRC_CFG 1 then some e
    else none
  | 7 => mbxSpecial e p a al data
  | _ => none

/-! ## Status registers (R8, R565) -/

/-- A write of `seq` to a status register. -/
def seqWrite (e : Engine) (a seq : Nat) : Engine :=
  let n := chIx a
  if a = QOS_DEGRADED then degradedClear e seq
  else if TEL_WM_STATUS 0 ≤ a ∧ a / 0x100000 = 8 then wmClear e ((a - TEL_WM_STATUS 0) / 0x20) seq
  else
    let hit := decide (wordField (reg e a) 31 24 = seq)
    let e := sqClear e a seq
    if hit && a == CH_SCHED_STATUS n then wr e (CH_SCHED_STATUS_WQ_PEAK n) (wqOcc e n)
    else if hit then { e with dbg := { e.dbg with rejHeld := e.dbg.rejHeld.filter (· != a) } }
    else e

/-! ## A write through a port -/

/-- The writer is able to make an access: REG_AVAIL is high (R47), and an internal port's pair runs. -/
def portUp (e : Engine) (p : RegPort) : Bool :=
  regAvail e && match portPair p with
    | none => true
    | some k => pairRuns e k

/-- A write of a mapped register, at its value address `a` and alias `al`. -/
def regWrite (e : Engine) (p : RegPort) (a al : Nat) (data : Word) : Engine :=
  match special e p a al data with
  | some e' => e'
  | none =>
    match regDesc a with
    | none => e
    | some d =>
      if isSeqReg d then (if al = 0 then seqWrite e a (wordField data 31 24) else e)
      else
        let w := storeWrite e p a al d data
        if w.done then afterWrite w p a al (reg e a) data else w.e

/-- R8–R10, R562, R581: a write access of a byte address. -/
def portWrite (e : Engine) (p : RegPort) (addr : Nat) (data : Word) : Engine :=
  if portUp e p = false then e
  else
    let e := traceRec e (if isInternal p then 2 else 1) addr data
    let c := accessError e addr
    if c ≠ 0 then regError e addr c
    else regWrite e p (valueAddr addr) (aliasOf addr) data

/-- R8, R562–R564, R571, R572: a read access of a byte address: REG_RDATA, REG_ERR, and the engine with an errored access
recorded, or with the event of a parity mismatch that the read finds; none while the port is ignored (R47, R64). No row of the
opcode table is a read; an obligation about what software sees is stated with it. -/
def portRead (e : Engine) (p : RegPort) (addr : Nat) : Option (Word × Bool × Engine) :=
  if portUp e p then
    let r := readAddr e p addr
    some (r.1, r.2, if r.2 then regError e addr (accessError e addr) else parityFault e (valueAddr addr))
  else none

/-! ## Completions -/

/-- GRIST_CHECK_COMPLETE (R103, R106): the flags, the rank, and GRIST_EN or the rejection. -/
def gristDone (e : Engine) : Engine :=
  match e.dbg.gristEnd with
  | none => e
  | some (t, int) =>
    if clocked e = false then e
    else
      let e := tick e (t - e.clk.cyc)
      let g := gcfg e
      let k := gristCheck g
      let e := wr e GC_GRIST_STATUS_MATRIX_RANK (matrixRank g)
      let fs := [(GC_GRIST_STATUS_WIDTH, k.width), (GC_GRIST_STATUS_MASK_RANGE, k.maskRange),
        (GC_GRIST_STATUS_SINGULAR, k.singular), (GC_GRIST_STATUS_CARVE, k.carve), (GC_GRIST_STATUS_SPARE_SHORT, k.spareShort)]
      let e := sqSet e GC_GRIST_STATUS ((fs.filter (·.2)).map fun f => (f.1, 1))
      let e := { e with dbg := { e.dbg with gristEnd := none } }
      if k.ok then
        let e := wr e GC_GRIST_CTRL_GRIST_EN 1
        wr e GC_DATA_ROWS_DATA_ROWS (dataRows g)
      else reject e (if int then .mc01 else .ext) GC_GRIST_CTRL 1

/-- DIR_INIT_COMPLETE (R349). -/
def dirInitDone (e : Engine) : Engine :=
  match e.dir.initEnd with
  | none => e
  | some t =>
    if clocked e = false then e
    else
      let e := tick e (t - e.clk.cyc)
      wr { e with dir := { e.dir with sets := [], initEnd := none } } DIR_CTRL_DIR_EN 1

end Sys2Proof.Machine
end

