-- ==== Sys2Proof/Machine/Dump.lean ====
section
/-! DEFINITION. The dump (R545–R550): its sections, header and checksum, and DUMP_COMPLETE. -/

namespace Sys2Proof.Machine

/-! ## Bytes -/

/-- A number in `k` bytes, little-endian (R7). -/
def leBytes (k n : Nat) : List Byte := (toLE k n).map (BitVec.ofNat 8)

/-- The bytes of some words. -/
def wordBytes (ws : List Word) : List Byte := ws.flatMap fun w => leBytes 4 w.toNat

/-- A register pair (R549). -/
def regPair (e : Engine) (a : Nat) : List Byte := leBytes 4 a ++ leBytes 4 (readAddr e .mc01 a).1.toNat

def regPairs (e : Engine) (as : List Nat) : List Byte := as.flatMap (regPair e)

/-! ## Registers by kind -/

/-- The value addresses of a register array, outermost index first. -/
def dimAddrs (base : Nat) : List (Nat × Nat) → List Nat
  | [] => [base]
  | (n, s) :: ds => (List.range n).flatMap fun i => dimAddrs (base + i * s) ds

/-- Every register of the map whose description `p` accepts. -/
def regsWhere (p : RegDesc → Bool) : List Nat :=
  ((List.range 10).flatMap fun k => (registerMap (k * 0x100000)).filter p).flatMap fun d => dimAddrs d.base d.dims

/-- A configuration register: one whose RW or RWD fields parity covers (R544, R570; DEDUCED). -/
def isConfig (d : RegDesc) : Bool := d.par && accMask [.rw, .rwd] d.fields != 0

/-- The fault registers of section 0x0003. -/
def faultRegs : List Nat :=
  (regsWhere fun d => d.base / 0x100000 == 5 && decide (d.base < 0x501000) && d.fields.any fun f => f.acc != .wo) ++
    ((List.range 80).filter srcDefined).flatMap fun s => [FLT_SRC_STATUS s, FLT_SRC_SYN s]

/-! ## Sections (R549) -/

structure Sect where
  typ : Nat
  inst : Nat
  body : List Byte
  deriving DecidableEq, Repr

def sectBytes (s : Sect) : List Byte := leBytes 2 s.typ ++ leBytes 2 s.inst ++ leBytes 4 s.body.length ++ s.body

def lostBytes (l : LostLine) : List Byte := leBytes 8 (l.la + l.ch * 2 ^ 38 + l.kind * 2 ^ 42 + l.reason * 2 ^ 45)

def chanSect (e : Engine) (n : Nat) : Sect :=
  ⟨5, n, regPairs e [CH_SCHED_OCC n, CH_ARB_STATE n, CH_ARB_PROGRESS n, CH_REF_STATE n, CH_PPR_STATE n,
    CH_TRN_STATE n] ++ (getChan e n).ecc.flatMap fun r => wordBytes (eccWords r)⟩

def snoopBytes (s : Snoop) : List Byte := leBytes 8 (s.tag.getD 0 + s.agent * 2 ^ 12 + s.la * 2 ^ 24)

def ticketBytes (t : Ticket) : List Byte := leBytes 4 t.box ++ leBytes 4 t.tag ++ leBytes 4 t.op ++ leBytes 4 t.progress

/-- Every section, in ascending TYPE. -/
def sections (e : Engine) : List Sect :=
  [⟨1, 0, e.flt.hist.flatMap fun r => wordBytes (histWords r)⟩, ⟨2, 0, e.flt.lost.flatMap lostBytes⟩,
   ⟨3, 0, regPairs e faultRegs⟩, ⟨4, 0, regPairs e (regsWhere isSeqReg)⟩] ++
  ((List.range (2 ^ (gcfg e).c)).map (chanSect e)) ++
  [⟨6, 0, regPairs e [DIR_QUEUE, DIR_OTT, DIR_WALK] ++ (tagged e).flatMap snoopBytes⟩,
   ⟨7, 0, e.mci.tickets.flatMap ticketBytes⟩, ⟨8, 0, regPairs e (regsWhere isConfig)⟩,
   ⟨9, 0, e.dbg.trace.flatMap fun r => wordBytes (traceWords r)⟩]

/-- R548: the sections that fit into `cap` bytes, at most `k` of them; a section that does not fit ends the dump.
Answers their number and their bytes. -/
def fitSections (cap : Nat) : Nat → List Sect → Nat × List Byte
  | 0, _ => (0, [])
  | _, [] => (0, [])
  | k + 1, s :: ss =>
    let b := sectBytes s
    if b.length ≤ cap then
      let r := fitSections (cap - b.length) k ss
      (r.1 + 1, b ++ r.2)
    else (0, [])

/-! ## The header (R548) -/

def causeBytes (e : Engine) : List Byte := wordBytes ((e.flt.cause.map histWords).getD noWords)

/-- The header up to its checksum. -/
def headBytes (e : Engine) (id nsec total : Nat) (dram trunc : Bool) : List Byte :=
  leBytes 4 0x4E555444 ++ leBytes 2 1 ++ leBytes 2 nsec ++ leBytes 2 id ++ leBytes 1 (bit dram) ++
    leBytes 1 (bit trunc + 2 * bit e.flt.moved + 4 * bit (rd e FLT_SAFE_NO_AUTO != 0)) ++ leBytes 4 total ++
    leBytes 8 e.flt.safeTb ++ leBytes 8 (tbNs e) ++ causeBytes e ++ leBytes 4 (reg e GC_ID).toNat ++
    leBytes 4 (nth e.cores 0 ⟨0, none, false, 0⟩).svn ++ wordBytes [regRead e .mc01 FLT_RECOVERY]

/-- A dump with a store of `cap` bytes and at most `k` sections. -/
def dumpBytes (e : Engine) (id cap k : Nat) (dram : Bool) : List Byte :=
  let ss := sections e
  let r := fitSections (cap - 64) k ss
  let h := headBytes e id r.1 (64 + r.2.length) dram (decide (r.1 < ss.length))
  let crc := crc32c ((h ++ leBytes 4 0 ++ r.2).map (·.toNat))
  h ++ leBytes 4 crc ++ r.2

/-! ## DUMP_COMPLETE (R545, R546, R548) -/

/-- The bytes of the dump band of a channel (R108). -/
def dumpCap (e : Engine) : Nat := let g := gcfg e; g.dumpRows * 2 ^ (g.k + 19)

/-- The dump tun (1 MiB). -/
def tunCap : Nat := 2 ^ 20

/-- Slot `i` of the dump band of a channel: columns, then banks, bank groups, subchannels, ranks and rows (DESIGN
CHOICE: the order is not stated). -/
def dumpLoc (g : GCfg) (n i : Nat) : Loc :=
  { ch := n, sc := i / 4096 % 2, rank := i / 8192 % 2 ^ g.k, bg := i / 512 % 8, bank := i / 128 % 4
    row := dumpBase g + i / 8192 / 2 ^ g.k, col := i % 128 }

/-- R546: MEn refreshes as in service: each tick that has passed raises D, and a rank that is due is refreshed. -/
def keepRefreshed (n : Nat) (e : Engine) : Engine :=
  if on e (CH_REF_CTRL_REF_EN n) then
    (awakeRanks e n).foldl (fun e i =>
      let e := if decide ((getPRank (getChan e n) i).tickAt ≤ e.clk.cyc) then refTick e n i else e
      if on e (dueF n i) then refreshNow e n i else e) e
  else e

/-- One slot of the dump: its row is opened where it is closed, and the slot is written. -/
def dumpSlot (d : Dram) (e : Engine) (n : Nat) (l : Loc) (s : Slot) : Engine :=
  blockWrite (keepRefreshed n e) n .me l s (dramAt d e l)

/-- R546: the slots of a DRAM dump, encrypted under CTX 0. -/
def writeDump (d : Dram) (n : Nat) : Nat → List Byte → Nat → Engine → Engine
  | 0, _, _, e => e
  | k + 1, bs, i, e =>
    if bs.isEmpty then e
    else
      let l := dumpLoc (gcfg e) n i
      let la := gristInv (gcfg e) l
      let x := bytesLine ((bs.take 64).map (·.toNat) ++ List.replicate (64 - bs.length) 0)
      writeDump d n k (bs.drop 64) (i + 1) (dumpSlot d e n l (encodeSlot (sealData e 1 0 la x)))

/-- The number of the next dump: from 1 upward, without 0 (R550). -/
def nextDumpId (e : Engine) : Nat :=
  let n := (rd e FLT_SAFE_DUMP_ID + 1) % 65536
  if n = 0 then 1 else n

/-- The channel that MEn holds for a DRAM dump. -/
def dumpChan (e : Engine) : Option Nat := (List.range 16).find? fun n => (getChan e n).arb.dump

/-- A DRAM dump cannot be written: an alert holds a rank, or the bank of a slot is capped until its epoch ends (R209,
R240). -/
def dumpBlocked (e : Engine) (n k : Nat) : Bool :=
  (List.range (pranks e)).any (fun i => (alertOf e (getChan e n) (i * 2 ^ cidBits e)).isSome) ||
    (List.range k).any fun i => (bankShut e n (bankAt (getChan e n) (dumpLoc (gcfg e) n i))).1

/-- A DRAM dump that runs is written, in the maintenance-only exit of its channel, which MEn holds (R186), behind the
mitigations that pend there (R211). One that cannot be written moves to the dump tun (DESIGN CHOICE: R545 names only an
event of the dump channel). -/
def dumpToDram (d : Dram) (e : Engine) (n id k : Nat) : Engine :=
  let b := dumpBytes e id (dumpCap e) k true
  if dumpBlocked e n (b.length / 64 + 1) then { e with flt := { e.flt with moved := true } }
  else
    let e := holding e n 2 fun e =>
      enterAllSR (writeDump d n (b.length / 64 + 1) b 0 (finishMitigations (exitAllSR e n) n)) n
    { e with flt := { e.flt with dram := some ⟨id, false, b⟩ } }

/-- A dump into the dump tun; it discards a stage held there (R524). -/
def dumpToTun (e : Engine) (id k : Nat) : Engine :=
  let e := wr e FLT_SAFE_DUMP_TGT 0
  let b := dumpBytes e id tunCap k false
  let e := { e with flt := { e.flt with tun := some ⟨id, e.flt.moved, b⟩, tunHeld := true } }
  { e with boot := { e.boot with stageBuf := none } }

/-- DUMP_COMPLETE: firmware completes the dump `us` µs after SAFE, at most 20 ms, with at most `k` sections. An
event of a source of the dump channel has moved a DRAM dump to the dump tun. -/
def dumpComplete (d : Dram) (e : Engine) (us k : Nat) : Engine :=
  if clocked e && isSafe e && rd e FLT_SAFE_PHASE == 2 && pairRuns e 0 then
    let e := tickTo e (e.flt.safeAt + usUnits (min us 20000))
    let id := nextDumpId e
    let e := wr e FLT_SAFE_DUMP_ID id
    let done := fun (e : Engine) =>
      let e := wr e FLT_SAFE_DUMP_DONE 1
      let e := wr e FLT_SAFE_PHASE (if rd e FLT_SAFE_NO_AUTO = 0 then 3 else 4)
      { e with flt := { e.flt with quietAt := e.clk.nominal } }
    match dumpChan e with
    | some n =>
      let free := fun (e : Engine) => mapArb e n fun a => { a with dump := false }
      let x := if dramDump e n then dumpToDram d e n id k else { e with flt := { e.flt with moved := true } }
      done (if x.flt.moved then dumpToTun (free x) id k else free x)
    | none => done (dumpToTun e id k)
  else e

end Sys2Proof.Machine
end

