-- ==== Sys2Proof/Machine/Mci.lean ====
section
/-! DEFINITION. The Mulum Command Interface (R502–R514): taking a message, the checks of R505, sessions and
ABORT. -/

namespace Sys2Proof.Machine

/-! ## Messages (R502) -/

/-- A message that firmware has taken: its mailbox (64 and above for a ring source), header fields, and the LEN words that it
consists of. -/
structure Cmd where
  box : Nat
  op : Nat
  tag : Nat
  len : Nat
  words : List Word
  deriving DecidableEq, Repr

/-- Word `i` of a message. -/
def Cmd.w (c : Cmd) (i : Nat) : Word := nth c.words i 0
/-- Bits `hi` to `lo` of word `i`. -/
def Cmd.f (c : Cmd) (i hi lo : Nat) : Nat := wordField (c.w i) hi lo

def cmdOf (box : Nat) (ws : List Word) : Cmd :=
  let h := nth ws 0 (0 : Word)
  let k := wordField h 30 24
  ⟨box, wordField h 15 0, wordField h 23 16, k, ws.take (max 1 k)⟩

/-- The opcodes of R515. -/
def opcodes : List Nat :=
  [0x0000, 0x0001, 0x0002, 0x0100, 0x0101, 0x0102, 0x0200, 0x0201, 0x0202, 0x0300, 0x0301, 0x0302, 0x0303,
   0x0400, 0x0500, 0x0600, 0x0601, 0x0700, 0x0701, 0x0800, 0x0801]

/-! ## Permissions (R313, R422, R484, R504) -/

inductive Perm where
  | any | admin | priv | reader | power
  deriving DecidableEq, Repr

/-- The host end of a mailbox. -/
def boxAgent (e : Engine) (m : Nat) : Nat := rd e (MBX_BIND_AGENT m)

/-- The pair that serves a message: MC0/MC1 serves the firmware of other engines. -/
def boxPair (e : Engine) (m : Nat) : Nat := if m < 64 then rd e (MBX_BIND_CORE m) else 0

def isPriv (e : Engine) (a : Nat) : Bool := a == rd e CRY_CTRL_PRIV_AGENT

/-- R484: the pair serves the opcode's group. -/
def pairServes (p op : Nat) : Bool :=
  if p = 1 then op / 256 == 0 || op / 256 == 3 else op / 256 != 3

/-- R504: the mailbox has the permission; a session of another engine's firmware has Any, and PWR_REQ (R510). -/
def permits (e : Engine) (m : Nat) (p : Perm) : Bool :=
  let a := boxAgent e m
  let admin := decide (m < 64) && (e.mci.admin.contains a || isPriv e a)
  match p with
  | .any => true
  | .admin => admin
  | .priv => decide (m < 64) && isPriv e a
  | .reader => decide (m < 64) && (isPriv e a || (on e TEL_READER_READER_EN && rd e TEL_READER_READER == a))
  | .power => admin || decide (m ≥ 64)

/-! ## The checks of R505 -/

/-- The layout and properties of an opcode (R515, R516). -/
structure Layout where
  perm : Perm
  ticketed : Bool
  /-- Opcode, fields and values exist in the session's version. -/
  known : Bool
  /-- LEN and every field's range. -/
  valid : Bool
  deriving DecidableEq, Repr

/-- No bit is set outside the named fields of words 1 on; a nonzero bit elsewhere is a field that no version
has (DEDUCED). -/
def named (c : Cmd) (masks : List Word) : Bool :=
  !(c.w 0).getLsbD 31 &&
    masks.zipIdx.all fun p => decide (p.2 + 1 ≥ c.len) || c.w (p.2 + 1) &&& ~~~p.1 == 0

/-- The version of the message's session, 0 without one. -/
def sessionVer (e : Engine) (m : Nat) : Nat :=
  match getSession e m with
  | some s => s.ver
  | none => 0

/-- R542: what firmware answers in the safe state; PWR_REQ has its own rule (R467). -/
def safeOps : List Nat := [0x0000, 0x0001, 0x0002, 0x0102, 0x0400, 0x0500, 0x0600, 0x0601]

/-- R505 step 5, R542: a temporary condition refuses the command. -/
def mciBusy (e : Engine) (c : Cmd) (ticketed : Bool) : Bool :=
  (isSafe e && !safeOps.contains c.op) ||
    (inTrans e && e.pwr.wake.isNone && decide (pwrStep e ≥ 2 ∨ e.pwr.done ≥ 1) && c.op != 0x0400 && c.op != 0x0002) ||
    (ticketed && decide ((boxTickets e c.box).length ≥ 4))

/-- The TAG names a ticket record that is stored and not yet consumed (R511). -/
def tagStored (e : Engine) (m tag : Nat) : Bool :=
  e.mci.records.any (fun (r : Rec) => r.box == m && r.ticket && r.tag == tag) ||
    match tget none e.mci.inBox m with
    | some r => r.ticket && r.tag == tag
    | none => false

/-- R511: the TAG of a ticketed command names an open ticket of the mailbox, or a record that the host has not consumed. -/
def tagTaken (e : Engine) (m tag : Nat) : Bool :=
  e.mci.tickets.any (fun (t : Ticket) => t.box == m && t.tag == tag) || tagStored e m tag

/-- R505, R511: the status of the first check that fails. -/
def mciCheck (e : Engine) (c : Cmd) (l : Layout) : Option Nat :=
  if (getSession e c.box).isNone && c.op != 0 then some stDenied
  else if !l.known then some stUnsupported
  else if !(permits e c.box l.perm && pairServes (boxPair e c.box) c.op) then some stDenied
  else if !l.valid then some stBadArg
  else if mciBusy e c l.ticketed then some stBusy
  else if l.ticketed && tagTaken e c.box c.tag then some stBadArg
  else none

/-- An immediate response to a message. -/
def reply (e : Engine) (c : Cmd) (st res : Nat) (body : List Word) : Engine :=
  answer e c.box c.op c.tag st res body

/-- A command that passes the checks of R505 goes on with `f`. -/
def checked (e : Engine) (c : Cmd) (l : Layout) (f : Engine → Engine) : Engine :=
  match mciCheck e c l with
  | some st => reply e c st 0 []
  | none => f e

/-- A ticketed command that has passed every check: its ticket opens and its work starts. -/
def ticketed (e : Engine) (c : Cmd) (f : Engine → Nat → Engine) : Engine :=
  let (e, id) := openTicket e c.box c.tag c.op (c.words.drop 1)
  f e id

/-! ## Taking a message -/

/-- R515: the opcodes whose commands open a ticket and run on. -/
def ticketOps : List Nat :=
  [0x0101, 0x0200, 0x0201, 0x0202, 0x0300, 0x0301, 0x0302, 0x0303, 0x0700, 0x0701, 0x0800, 0x0801]

/-- R459: firmware that has agreed to an entry starts no command that would undo its agreement: the message waits until the
step is agreed, and is then answered with BUSY, or until the entry is undone. -/
def leavesWaiting (e : Engine) (k op : Nat) : Bool :=
  hasAgreed e k && e.pwr.done == 0 && ticketOps.contains op

/-- Firmware takes a message from its mailbox, and does what `h` does with it, where the mailbox holds one
whose opcode `p` accepts. -/
def takeCmd (e : Engine) (m : Nat) (p : Nat → Bool) (h : Engine → Cmd → Engine) : Engine :=
  let k := rd e (MBX_BIND_CORE m)
  let c := cmdOf m ((List.range 64).map fun i => reg e (MBX_MB_D m i))
  if on e (MBX_BIND_VALID m) && boxState e m == 2 && pairRuns e k && p c.op && !leavesWaiting e k c.op then
    let e := boxConsume e m (if k = 0 then .mc01 else .mc23)
    h (traceRec e 3 (m * 2 ^ 16 + c.op) (c.w 0)) c
  else e

/-! ## HELLO, BYE, ABORT (R507–R509, R513) -/

/-- R508: the feature bitmap of a session of version `v`. -/
def features (e : Engine) (v : Nat) : Nat :=
  2 ^ (v % 256) - 1 + (if rd e CRY_CTRL_FRESH_LOG2 ≠ 0 then 2 ^ 8 else 0) +
    (if on e DIR_CTRL_MODE then 2 ^ 9 else 0) + (if rd e GC_CARVE_DUMP_DUMP_ROWS ≠ 0 then 2 ^ 10 else 0)

/-- R516: the SVN of the image that the answering firmware runs. -/
def ownSvn (e : Engine) (p : Nat) : Nat :=
  if p = 1 then rd e CRY_FW_SVN_RUN_SVN else (nth e.cores 0 ⟨0, none, false, 0⟩).svn

/-- HELLO, and every opcode that no version has. -/
def mciHello (e : Engine) (c : Cmd) : Engine :=
  if c.op ≠ 0 then
    reply e c (if (getSession e c.box).isNone then stDenied else stUnsupported) 0 []
  else
    checked e c ⟨.any, false, named c [0xFFFFFFFF], c.len == 2⟩ fun e =>
      let lo := c.f 1 15 0
      let hi := c.f 1 31 16
      let v := min hi 0x203
      if lo > hi then reply e c stBadArg 0 []
      else if v < max lo 0x200 then reply e c stUnsupported 0 []
      else if !(boxTickets e c.box).isEmpty then reply e c stBusy 0 []
      else
        reply (putSession e c.box (some ⟨v, [], []⟩)) c stOk v
          [word (features e v), word (ownSvn e (boxPair e c.box)), reg e GC_ID]

/-- BYE (R509). -/
def mciBye (e : Engine) (c : Cmd) : Engine :=
  checked e c ⟨.any, false, named c [], c.len == 1⟩ fun e =>
    if !(boxTickets e c.box).isEmpty then reply e c stBusy 0 []
    else reply (putSession e c.box none) c stOk 0 []

/-- The TAG names a ticket record that is stored or among the last eight consumed. -/
def tagKnown (e : Engine) (m tag : Nat) : Bool :=
  tagStored e m tag ||
    match getSession e m with
    | some s => s.recent.contains tag
    | none => false

/-- An abort that has been answered OK takes effect. -/
def abortNow (e : Engine) (t : Ticket) : Engine :=
  match findTicket e t.id with
  | some t => (abortTicket e t).getD e
  | none => e

/-- ABORT (R513). The answer is stored before the record of a ticket that stops at once. -/
def mciAbort (e : Engine) (c : Cmd) : Engine :=
  let v := sessionVer e c.box
  checked e c ⟨.any, false, named c [if v ≥ 0x203 then 0x1FF else 0xFF], c.len == 2⟩ fun e =>
    if (c.w 1).getLsbD 8 then
      let ts := (boxTickets e c.box).filter fun t => (abortTicket e t).isSome
      ts.foldl abortNow (reply e c stOk ts.length [])
    else
      let tag := c.f 1 7 0
      match (boxTickets e c.box).find? fun t => t.tag == tag with
      | some t =>
        if (abortTicket e t).isSome then abortNow (reply e c stOk 1 []) t
        else reply e c stTooLate 0 []
      | none => reply e c (if tagKnown e c.box tag then stDone else stBadArg) 0 []

end Sys2Proof.Machine
end

