-- ==== Sys2Proof/Machine/MciConfig.lean ====
section
/-! DEFINITION. Staged configuration (R404, R516–R523): the items, CONFIG_STAGE, CONFIG_READ, CONFIG_COMMIT
with its checks, the roll over the channels, its rollback, and the quiesced commit. -/

namespace Sys2Proof.Machine

/-! ## Items (R518) -/

inductive Route where
  | direct | roll | engine | quiesce
  deriving DecidableEq, Repr

/-- What a SCOPE names. -/
inductive ScopeKind where
  | chan | cls | word | none
  deriving DecidableEq, Repr

/-- Where an item stands: an image of some bits of a register, one field, or no register of its own. -/
inductive Place where
  | image (a : Nat) (bits : Word)
  | field (f : Fld)
  | resv (c : Nat)
  | pack
  deriving DecidableEq, Repr

/-- A number lies between two bounds. -/
def between (i lo hi : Nat) : Bool := decide (lo ≤ i) && decide (i ≤ hi)

def itemRoute (i : Nat) : Option Route :=
  if between i 0x10 0x11 || between i 0x20 0x29 || between i 0x30 0x34 || between i 0x40 0x42 then some .roll
  else if between i 0x35 0x38 || i == 0x43 || between i 0x64 0x66 then some .direct
  else if between i 0x50 0x53 || between i 0x60 0x63 || between i 0x70 0x72 then some .engine
  else if between i 0x80 0x84 || between i 0x90 0xAB || between i 0xB0 0xB2 then some .quiesce
  else none

def itemScope (i : Nat) : ScopeKind :=
  if decide (i < 0x50) then .chan
  else if between i 0x50 0x52 then .cls
  else if i = 0xB2 then .word
  else .none

def scopeOk (i s : Nat) : Bool :=
  match itemScope i with
  | .chan => decide (s ≤ 15) || s == 0xFF
  | .cls => decide (s ≤ 7)
  | .word => decide (s ≤ 3)
  | .none => s == 0

/-- The RW and RWD bits of a register, without its enable where `en` is false. -/
def imageOf (a : Nat) (en : Bool) : Place :=
  let m := match regDesc a with
    | some d => accMask [.rw, .rwd] d.fields
    | none => 0
  .image a (if en then m else m &&& 0x7FFFFFFF)

/-- The place of an item; `s` is one channel, class or word. -/
def itemPlace (i s : Nat) : Place :=
  if between i 0x20 0x29 then imageOf (CH_TIM0 s + (i - 0x20) * 0x10) true
  else if between i 0x90 0xAB then imageOf (GC_GRIST_MASK_LO 0 + (i - 0x90) * 0x10) true
  else match i with
    | 0x10 => imageOf (CH_SCHED_CTRL s) false
    | 0x11 => imageOf (CH_SPARGE s) true
    | 0x30 => imageOf (CH_REF_CTRL s) false
    | 0x31 => imageOf (CH_REF_TIM s) true
    | 0x32 => imageOf (CH_RG_CTRL s) false
    | 0x33 => imageOf (CH_RG_ABO s) true
    | 0x34 => imageOf (CH_RG_RFM s) true
    | 0x35 => imageOf (CH_TEMP_CFG s) true
    | 0x36 => imageOf (CH_ARB_CTRL s) true
    | 0x37 => imageOf (CH_ARB_PRIO s) true
    | 0x38 => imageOf (CH_ARB_WD s) true
    | 0x40 => imageOf (CH_TRN_CTRL s) false
    | 0x41 => imageOf (CH_TRN_CFG s) true
    | 0x42 => imageOf (CH_SCRUB_CTRL s) false
    | 0x43 => imageOf (CH_ECC_CTRL s) true
    | 0x50 => .resv s
    | 0x51 => imageOf (QOS_CLASS s) true
    | 0x52 => imageOf (QOS_TGT s) true
    | 0x53 => .field QOS_CTRL_HOT_ADMIT
    | 0x60 => .pack
    | 0x61 => .field FLT_CTRL_MODE
    | 0x62 => imageOf TEL_CTRL true
    | 0x63 => imageOf TEL_READER true
    | 0x64 => imageOf GC_RAS_POLICY true
    | 0x65 => imageOf GC_SPARE_RATE true
    | 0x66 => .field GC_CARVE_DUMP_DUMP_CH
    | 0x70 => imageOf PWR_TB_SET0 true
    | 0x71 => imageOf PWR_TB_SET1 true
    | 0x72 => .field PWR_TB_SETC_UNCERT
    | 0x80 => imageOf GC_GRIST_CTRL false
    | 0x81 => .field GC_CARVE_MAC_MAC_ROWS
    | 0x82 => .field GC_CARVE_CTR_CTR_ROWS
    | 0x83 => .field GC_CARVE_SPARE_SPARE_ROWS
    | 0x84 => .field GC_CARVE_DUMP_DUMP_ROWS
    | 0xB0 => .field DIR_CTRL_MODE
    | 0xB1 => imageOf GC_ING_CTRL false
    | _ => imageOf (GC_PORT_MASK s) true

/-- R517: the ranges that the field tables give. -/
def itemRange (i : Nat) (v : Word) : Bool :=
  let f := wordField v
  match i with
  | 0x10 => f 23 16 != 0 && decide (f 11 0 ≥ 64)
  | 0x11 => between (f 31 24) 1 192 && decide (f 23 16 < f 31 24) && f 15 10 != 0 && f 7 4 != 0
  | 0x30 => decide (f 19 16 ≤ if f 25 24 = 0 then 4 else 8)
  | 0x35 => f 7 0 != 0
  | 0x38 => f 29 20 != 0 && f 19 10 != 0 && f 9 0 != 0
  | 0x41 => f 19 16 != 0
  | 0x43 => f 23 16 != 0
  | 0x51 => f 30 28 != 7 && f 27 20 != 0
  | 0x60 => v &&& ~~~0x000103FF == 0
  | 0x62 => between (f 15 0) 10 65535
  | 0x65 => between (f 7 0) 1 64
  | 0x80 => between (f 14 12) 2 4 && between (f 4 0) 16 18
  | 0xB1 => between (f 20 16) 1 16 && between (f 12 8) 1 16 && between (f 3 0) 1 8
  | _ => match itemPlace i 0 with
    | .field g => decide (v.toNat < 2 ^ fldWidth g)
    | _ => true

/-- The channels that a SCOPE names. -/
def scopeChans (e : Engine) (s : Nat) : List Nat := if s = 0xFF then serviceChans e else [s]

/-- The register of a place, with its new value. -/
def placeWord (e : Engine) (p : Place) (v : Word) : Option (Nat × Word) :=
  match p with
  | .image a m => some (a, mixWord m v (reg e a))
  | .field f => some (f.addr, setWordField (reg e f.addr) f.hi f.lo v.toNat)
  | _ => none

/-- The registers that a staged item changes, with their new values. -/
def itemWords (e : Engine) (x : Nat × Nat × Word) : List (Nat × Word) :=
  let ss := match itemScope x.1 with
    | .chan => scopeChans e x.2.1
    | _ => [x.2.1]
  ss.filterMap fun s => placeWord e (itemPlace x.1 s) x.2.2

/-! ## Reservations (R406) -/

def resvItem (v : Word) : ResvItem := ⟨wordField v 14 0, wordField v 29 15, wordField v 31 30⟩
def resvWord (r : ResvItem) : Word := word (r.mode * 2 ^ 30 + r.wr * 2 ^ 15 + r.rd)
def resvOf (r : ResvItem) : Resv := ⟨10 * r.rd, 10 * r.wr, r.mode⟩

/-! ## CONFIG_STAGE and CONFIG_READ (R516, R517) -/

/-- The items of a CONFIG_STAGE. -/
def stageItems (c : Cmd) : List (Nat × Nat × Word) :=
  (List.range ((c.len - 2) / 2)).map fun k => (c.f (2 * k + 2) 15 0, c.f (2 * k + 2) 23 16, c.w (2 * k + 3))

/-- The item exists; 0xFFFF does from MCI 2.1 on. An item of 0 is out of range. -/
def itemKnown (v i : Nat) : Bool :=
  (itemRoute i).isSome || i == 0 || (i == 0xFFFF && decide (v ≥ 0x201))

def itemOk (x : Nat × Nat × Word) : Bool :=
  (itemRoute x.1).isSome && scopeOk x.1 x.2.1 && itemRange x.1 x.2.2

/-- R517: an item replaces a staged one of the same ITEM and SCOPE, or is added. -/
def stagePut (b : List (Nat × Nat × Word)) (x : Nat × Nat × Word) : List (Nat × Nat × Word) :=
  if b.any fun y => y.1 == x.1 && y.2.1 == x.2.1 then
    b.map fun y => if y.1 = x.1 ∧ y.2.1 = x.2.1 then x else y
  else b ++ [x]

def putStage (e : Engine) (m : Nat) (b : List (Nat × Nat × Word)) : Engine :=
  match getSession e m with
  | some s => putSession e m (some { s with stage := b })
  | none => e

def getStage (e : Engine) (m : Nat) : List (Nat × Nat × Word) :=
  match getSession e m with
  | some s => s.stage
  | none => []

/-- CONFIG_STAGE. RES counts the items of the message (DEDUCED). -/
def mciStage (e : Engine) (c : Cmd) : Engine :=
  let v := sessionVer e c.box
  let xs := stageItems c
  let known := c.w 1 &&& ~~~1 == 0 && (named c []) &&
    (List.range ((c.len - 2) / 2)).all fun k =>
      itemKnown v (c.f (2 * k + 2) 15 0) && c.f (2 * k + 2) 31 24 == 0
  let valid := decide (c.len ≥ 2) && decide (c.len ≤ 64) && c.len % 2 == 0 && xs.all itemOk
  checked e c ⟨.admin, false, known, valid⟩ fun e =>
    let b := xs.foldl stagePut (if (c.w 1).getLsbD 0 then [] else getStage e c.box)
    if b.length > 128 then reply e c stBadArg 0 []
    else reply (putStage e c.box b) c stOk xs.length []

/-- The value of an item as it stands. PACK is read for region 0, which its SCOPE names. -/
def itemValue (e : Engine) (i s : Nat) : Word :=
  match itemPlace i s with
  | .image a m => reg e a &&& m
  | .field f => word (rd e f)
  | .resv c => resvWord (nth e.mci.resv c ⟨0, 0, 0⟩)
  | .pack => match tlookup (bankOf e (curVer e)).regions 0 with
    | some r => word (if r.pack then 2 ^ 16 else 0)
    | none => 0

def stagedValue (e : Engine) (m i s : Nat) : Option Word :=
  ((getStage e m).find? fun y => y.1 == i && y.2.1 == s).map (·.2.2)

/-- The channel whose value CONFIG_READ answers: the one that SCOPE names. For 0xFF it is a free one of the channels in
service: the spec does not say what a read of several channels answers where they differ. -/
def readChan (e : Engine) (s : Nat) : Option Nat :=
  if s ≠ 0xFF then some s
  else
    let ns := serviceChans e
    ns[Config.choice e.free % max 1 ns.length]?

/-- The generation of a scope (R516). -/
def scopeGen (e : Engine) (i s : Nat) : Nat :=
  match itemScope i, readChan e s with
  | .chan, some n => rd e (CH_CFG_GEN_GEN n)
  | _, _ => rd e GC_CFG_GEN_GEN

/-- CONFIG_READ. -/
def mciRead (e : Engine) (c : Cmd) : Engine :=
  let v := sessionVer e c.box
  let i := c.f 1 15 0
  let s := c.f 1 23 16
  checked e c ⟨.any, false, named c [0x01FFFFFF] && itemKnown v i,
      c.len == 2 && (i == 0xFFFF && s == 0 || ((itemRoute i).isSome && scopeOk i s))⟩ fun e =>
    let gen := scopeGen e i s
    let at0 := readChan e s
    let e := if s = 0xFF then drawFree e else e
    if (c.w 1).getLsbD 24 then
      match stagedValue e c.box i s with
      | some w => reply e c stOk gen [w]
      | none => reply e c stBadArg 0 []
    else if i = 0xFFFF then
      reply e c stOk (rd e GC_CFG_GEN_GEN) ((List.range 16).map fun n => word (rd e (CH_CFG_GEN_GEN n)))
    else match at0 with
      | some n => reply e c stOk gen [itemValue e i n]
      | none => reply e c stBadArg 0 []

/-! ## The checks of a commit (R404, R407, R519) -/

/-- R101: the channels CH(2^c) to CH15 that still have their supplies. -/
def unusedOn (e : Engine) : List Nat :=
  (List.range 16).filter fun n => decide (2 ^ (gcfg e).c ≤ n) && (reg e PWR_CH_PWR &&& word (2 ^ (n + 16) + 2 ^ n) != 0)

/-- The engine with an item's values in its registers, for the checks only. -/
def trialItem (e : Engine) (x : Nat × Nat × Word) : Engine :=
  let e := (itemWords e x).foldl (fun e p => setReg e p.1 p.2) e
  if x.1 = 0x50 then
    let r := resvItem x.2.2
    let e := mapMci e fun m => { m with resv := setNth m.resv x.2.1 r }
    wr e (QOS_RESV_WEIGHTED x.2.1) (weightOf e (resvOf r))
  else if x.1 = 0x80 then
    (unusedOn e).foldl (fun e n => setReg e QOS_SERVICE (reg e QOS_SERVICE &&& ~~~ (BitVec.ofNat 32 (2 ^ n)))) e
  else e

/-- R519 step 3: hardware, or firmware, would refuse the resulting value of a staged item. -/
def itemBad (e t : Engine) (x : Nat × Nat × Word) : Bool :=
  let i := x.1
  let chans := fun (ok : Engine → Nat → Bool) => (scopeChans e x.2.1).any fun n => !ok t n
  match itemRoute i with
  | some .roll =>
    if i = 0x30 ∨ i = 0x31 then chans refOk
    else if 0x32 ≤ i ∧ i ≤ 0x34 then chans rgOk
    else if i = 0x40 ∨ i = 0x41 then chans trnOk
    else if i = 0x42 then chans scrubOk
    else chans schedFields
  | some .direct =>
    (itemWords e x).any fun p => (discarded e .mc01 p.1 0 p.2 p.2).isSome
  | some .engine =>
    if i = 0x50 ∨ i = 0x51 then classBad t x.2.1
    else if i = 0x60 then
      match tlookup (bankOf e (curVer e)).regions (wordField x.2.2 9 0) with
      | some r => x.2.2.getLsbD 16 && (r.base * 4096 % 128 != 0 || r.limit * 4096 % 128 != 0)
      | none => false
    else if i = 0x62 then on t TEL_CTRL_TEL_EN && !telOk t
    else false
  | _ => if between i 0x80 0xAB then !(gristCheck (gcfg t)).ok else false

/-- R404: the item changes reservations, ceilings or targets. -/
def isQosItem (i : Nat) : Bool := between i 0x50 0x53

/-- R404, R405: the item changes a charge of a channel, or the channel count. -/
def changesCharge (e : Engine) (x : Nat × Nat × Word) : Bool :=
  x.1 == 0x80 ||
    ((itemRoute x.1).isSome && (itemScope x.1) == .chan &&
      let t := trialItem e x
      (serviceChans e).any fun n => mntCharge t n (hotAdmit t) + scrubCharge t n != mntCharge e n (hotAdmit e) + scrubCharge e n)

/-- R404: the admission check is run for this item. -/
def needsAdmission (e : Engine) (x : Nat × Nat × Word) : Bool := isQosItem x.1 || changesCharge e x

/-- The ceilings and targets as they are in force (R413). -/
def withActive (e t : Engine) : Engine :=
  (List.range 8).foldl (fun t c =>
    let put := fun (t : Engine) (a : Nat) => setReg t a (tget (resetOf a) e.qos.active a)
    put (put t (QOS_CLASS c)) (QOS_TGT c)) t

/-- R519 step 4: the staged and the active reservations under the derating that the change produces. -/
def admitted (e t : Engine) : Bool :=
  admits t (t.mci.resv.map resvOf) && admits (withActive e t) (e.mci.resv.map resvOf)

/-- R110, R276: a sparing copy is active: PTR has lines left. -/
def copyActive (e : Engine) : Bool :=
  let s := spareCfg e
  s.active && decide (s.ptr < unitLines (gcfg e) s)

/-- R519 step 1. -/
def commitBusy (e : Engine) : Bool :=
  e.mci.commit.isSome || isSafe e || copyActive e ||
    ((List.range 16).any fun n => (getChan e n).train.offline) || !e.mci.offRuns.isEmpty ||
    e.mci.tickets.any fun (t : Ticket) => t.op == 0x0801

/-- R519 and step 1 of R523: the status and the first item that fails. -/
def commitCheck (e : Engine) (items : List (Nat × Nat × Word)) (quiesce : Bool) : Option (Nat × Option (Nat × Nat × Word)) :=
  let t := items.foldl trialItem e
  let isQ := fun (x : Nat × Nat × Word) => itemRoute x.1 == some .quiesce
  if commitBusy e then some (stBusy, none)
  else if items.any isQ && !quiesce then some (stQuiesce, items.find? isQ)
  else match items.find? (itemBad e t) with
    | some x => some (stBadArg, some x)
    | none =>
      let adm := items.filter (needsAdmission e)
      if !adm.isEmpty && !admitted e t then some (stOver, adm.head?)
      else if quiesce && !(bankOf e (curVer e)).regions.isEmpty && items.any fun x => between x.1 0x80 0xAB then
        some (stBadArg, items.find? fun x => between x.1 0x80 0xAB)
      else none

/-- REJECT_ITEM. -/
def rejectWord : Option (Nat × Nat × Word) → Word
  | some x => word (x.2.1 * 2 ^ 16 + x.1)
  | none => 0

/-! ## Applying items -/

/-- A write of firmware through its internal port. -/
def fwWrite (e : Engine) (a : Nat) (w : Word) : Engine := portWrite e .mc01 a w

/-- Set and clear of an enable, through the aliases of R9. -/
def fwSet (e : Engine) (a : Nat) : Engine := fwWrite e (a + 4) 0x80000000
def fwClear (e : Engine) (a : Nat) : Engine := fwWrite e (a + 8) 0x80000000

def applyWords (e : Engine) (x : Nat × Nat × Word) : Engine :=
  (itemWords e x).foldl (fun e p => fwWrite e p.1 p.2) e

def ofRoute (r : Route) (items : List (Nat × Nat × Word)) : List (Nat × Nat × Word) :=
  items.filter fun x => itemRoute x.1 == some r

/-- R431: the telemetry items are written in one go with TEL_EN clear, which is then set again, or as TEL_CTRL has it. -/
def applyTel (e : Engine) (items : List (Nat × Nat × Word)) : Engine :=
  let ts := items.filter fun x => x.1 == 0x62 || x.1 == 0x63
  if ts.isEmpty then e
  else
    let was := on e TEL_CTRL_TEL_EN
    let e := if was then fwClear e TEL_CTRL else e
    let e := ts.foldl (fun e x =>
      if x.1 = 0x62 then fwWrite e TEL_CTRL (x.2.2 &&& 0x1FFFFFFF) else fwWrite e TEL_READER x.2.2) e
    let want := match ts.find? fun x => x.1 == 0x62 with
      | some x => x.2.2.getLsbD 31
      | none => was
    if want then fwSet e TEL_CTRL else e

/-- One Engine item; `applyTel` writes those of telemetry. -/
def applyEngine (e : Engine) (x : Nat × Nat × Word) : Engine :=
  match x.1 with
  | 0x50 =>
    let r := resvItem x.2.2
    let e := mapMci e fun m => { m with resv := setNth m.resv x.2.1 r }
    fwWrite e (QOS_RESV x.2.1) (word (weightOf e (resvOf r)))
  | 0x60 =>
    let k := wordField x.2.2 9 0
    match tlookup (bankOf e (curVer e)).regions k with
    | some g => mapRegion e k g.base fun r => { r with pack := x.2.2.getLsbD 16 }
    | none => e
  | 0x62 => e
  | 0x63 => e
  | _ => applyWords e x

/-- R520: the Engine items in one step: the host estimate of TB (R444), and COMMIT last. -/
def applyEngineItems (e : Engine) (items : List (Nat × Nat × Word)) : Engine :=
  let es := ofRoute .engine items
  let e := applyTel (es.foldl applyEngine e) es
  let e := if es.any fun x => between x.1 0x70 0x72 then fwWrite e PWR_TB_SETC (reg e PWR_TB_SETC ||| 0x80000000) else e
  let qos := es.any fun x => isQosItem x.1
  let e := if qos || !(ofRoute .roll items).isEmpty || !(ofRoute .quiesce items).isEmpty then writeCaps e else e
  if qos then fwWrite e QOS_CTRL (reg e QOS_CTRL ||| 0x40000000) else e

/-- The Direct items. -/
def applyDirect (e : Engine) (items : List (Nat × Nat × Word)) : Engine :=
  let e := (ofRoute .direct items).foldl applyWords e
  if copyActive e then writeDrops e else e

/-- R521: a commit that ends with OK sets the next generation. -/
def nextGen (e : Engine) : Nat := (rd e GC_CFG_GEN_GEN + 1) % 2 ^ 24

def setGens (e : Engine) : Engine :=
  let g := nextGen e
  wr ((serviceChans e).foldl (fun e n => wr e (CH_CFG_GEN_GEN n) g) e) GC_CFG_GEN_GEN g

/-- R92, R520: every bit of GC_PORT_THROTTLE. -/
def throttleAll (e : Engine) (b : Bool) : Engine :=
  (List.range 4).foldl (fun e k => fwWrite e (GC_PORT_THROTTLE k) (if b then 0xFFFFFFFF else 0)) e

/-- The commit ends with a status. -/
def closeCommit (e : Engine) (c : Commit) (st res : Nat) : Engine :=
  let e := setReg e GC_CFG_GEN (setFields (reg e GC_CFG_GEN) [(GC_CFG_GEN_ROLLING, 0), (GC_CFG_GEN_NEXT_CH, 0)])
  let e := mapMci e fun m => { m with commit := none }
  finish e c.ticket st res [0]

/-- R520, R521: the commit ends with OK behind its last channel. -/
def endCommit (e : Engine) (c : Commit) : Engine :=
  let e := setGens (applyEngineItems e c.items)
  closeCommit e c stOk (rd e GC_CFG_GEN_GEN)

/-! ## The roll (R520) -/

/-- The registers of the Roll items on a channel, with their new values. -/
def rollWords (e : Engine) (items : List (Nat × Nat × Word)) (n : Nat) : List (Nat × Word) :=
  (ofRoute .roll items).foldl (fun a x =>
    if (scopeChans e x.2.1).contains n then
      match placeWord e (itemPlace x.1 n) x.2.2 with
      | some p => a.filter (fun q => q.1 != p.1) ++ [p]
      | none => a
    else a) []

/-- The channels in service whose values change. -/
def rollChans (e : Engine) (items : List (Nat × Nat × Word)) : List Nat :=
  (serviceChans e).filter fun n => (rollWords e items n).any fun p => reg e p.1 != p.2

/-- The enables of the blocks whose fields some registers hold, in the order in which they are set again; SCHED_EN
is always among them. -/
def rollEnables (n : Nat) (ws : List (Nat × Word)) : List Nat :=
  let has := fun (l : List Nat) => ws.any fun p => l.contains p.1
  (if has [CH_REF_CTRL n, CH_REF_TIM n] then [CH_REF_CTRL n] else []) ++
    (if has [CH_RG_CTRL n, CH_RG_ABO n, CH_RG_RFM n] then [CH_RG_CTRL n] else []) ++ [CH_SCHED_CTRL n] ++
    (if has [CH_TRN_CTRL n, CH_TRN_CFG n] then [CH_TRN_CTRL n] else []) ++
    (if has [CH_SCRUB_CTRL n] then [CH_SCRUB_CTRL n] else [])

/-- The holder of a channel comes to the end of its grant (R175): the scheduler has nothing left to issue, MEn ends its
operation, and TSn its slice. -/
def endGrant (e : Engine) (n : Nat) : Engine :=
  match holder e n with
  | 1 => releaseChan (offBus e n) n
  | 2 => meDone e n
  | 3 => endSlice e n
  | _ => e

/-- Every open bank of a channel whose SCHED_EN is 0 is closed by MEn, once it has the channel (R520 step 3). -/
def closeAll (e : Engine) (n : Nat) : Engine :=
  if chanLive e n && !allClosed e n then holding (endGrant e n) n 2 (prechargeAll · n) else e

/-- Steps 3 to 5 of R520 on a channel: those of the registers `ws` that change take their values, and the channel the
generation `g`. -/
def swapChan (e : Engine) (n g : Nat) (ws : List (Nat × Word)) : Engine :=
  let ws := ws.filter fun p => reg e p.1 != p.2
  let en := (rollEnables n ws).filter fun a => (reg e a).getLsbD 31
  let e := (if en.contains (CH_SCHED_CTRL n) then fwClear e (CH_SCHED_CTRL n) else e)
  let e := (en.filter (· != CH_SCHED_CTRL n)).foldl fwClear e
  let e := ws.foldl (fun e p => fwWrite e p.1 (p.2 &&& ~~~(if isEnableReg p.1 then 0x80000000 else 0))) (closeAll e n)
  en.foldl fwSet (wr e (CH_CFG_GEN_GEN n) g)

/-- Step 2 of R520: the reads and the writes that may be left. -/
def rollDrained (e : Engine) (n : Nat) : Bool :=
  let hold := ((List.range 8).map fun c => (tget [] e.qos.hold (16 * c + n)).length).sum
  decide (rqOcc e n + hold ≤ 16) && decide (wqOcc e n ≤ 16)

def putCommit (e : Engine) (c : Commit) : Engine := mapMci e fun m => { m with commit := some c }

/-- `k` µs pass. -/
def waitUs (e : Engine) (k : Nat) : Engine := tickTo e (e.clk.nominal + usUnits k)

/-- R520: the next channel of the roll, one attempt at a time: a first look throttles the ports, a
second one finds the drain reached or the 20 µs over. -/
def rollChannel (e : Engine) : Engine :=
  let e := stopRoll e
  match e.mci.commit with
  | none => e
  | some c =>
    match c.todo with
    | [] => e
    | n :: rest =>
      if c.quiesce || c.stop.isSome || !pairRuns e 0 || isSafe e then e
      else
        let e := if c.step = 0 then throttleAll (wr e GC_CFG_GEN_NEXT_CH n) true else e
        if rollDrained e n then
          let ws := rollWords e c.items n
          let old := ws.map fun p => (p.1, reg e p.1)
          let e := throttleAll (swapChan e n (nextGen e) ws) false
          let c := { c with todo := rest, rolled := c.rolled ++ [n], tries := 0, step := 0, saved := c.saved ++ old }
          let e := setProgress (putCommit e c) c.ticket c.rolled.length
          if rest.isEmpty then endCommit e c else waitUs e 20
        else if c.step = 0 then putCommit e { c with step := 1 }
        else
          let e := throttleAll (waitUs e 20) false
          if c.tries ≥ 2 then putCommit e { c with tries := c.tries + 1, step := 0, stop := some stBusy }
          else waitUs (putCommit e { c with tries := c.tries + 1, step := 0 }) 100

/-- A channel returns to the values before the commit and to the committed generation. -/
def unrollChan (e : Engine) (c : Commit) (n : Nat) : Engine :=
  swapChan e n (rd e GC_CFG_GEN_GEN) (c.saved.filter fun p => chanOfAddr p.1 == some n)

/-- ROLL_ROLLBACK (R522): the rolled channels in descending order; then the ticket ends. -/
def rollRollback (e : Engine) : Engine :=
  match e.mci.commit with
  | none => e
  | some c =>
    match c.stop with
    | none => e
    | some st =>
      if c.quiesce || !pairRuns e 0 || isSafe e then e
      else
        let e := c.rolled.reverse.foldl (fun e n =>
          waitUs (throttleAll (unrollChan (throttleAll e true) c n) false) 20) e
        closeCommit (throttleAll e false) c st 0

/-! ## CONFIG_COMMIT (R519) -/

/-- The commit starts: Direct items first, then the roll, or the throttle of a quiesce (R520, R523). -/
def startCommit (e : Engine) (id : Nat) (items : List (Nat × Nat × Word)) (quiesce : Bool) : Engine :=
  let c : Commit := ⟨id, items, quiesce, [], [], 0, 0, 0, [], none⟩
  if quiesce then throttleAll (putCommit (wr e GC_CFG_GEN_ROLLING 1) { c with step := 2 }) true
  else
    let e := applyDirect e items
    match rollChans e items with
    | [] => endCommit e c
    | n :: rest =>
      let e := setReg e GC_CFG_GEN (setFields (reg e GC_CFG_GEN) [(GC_CFG_GEN_ROLLING, 1), (GC_CFG_GEN_NEXT_CH, n)])
      putCommit e { c with todo := n :: rest }

/-- R101: the first channel that a quiesced change of the mapping would enable and whose modules differ from CH0's. -/
def quiesceGeom (e : Engine) (items : List (Nat × Nat × Word)) : Option Nat :=
  if items.any fun x => between x.1 0x80 0xAB then
    (List.range (2 ^ (gcfg (items.foldl trialItem e)).c)).find? fun n =>
      !e.boot.failedChs.testBit n && reg e (CH_PHY_SPD n) != reg e (CH_PHY_SPD 0)
  else none

/-- CONFIG_COMMIT: whatever it answers, the session's stage buffer is emptied (R517). -/
def mciCommit (e : Engine) (c : Cmd) : Engine :=
  let items := getStage e c.box
  let q := (c.w 1).getLsbD 0
  checked (putStage e c.box []) c ⟨.admin, true, named c [1], c.len == 2⟩ fun e =>
    ticketed e c fun e id =>
      match commitCheck e items q with
      | some (st, x) => finish e id st 0 [rejectWord x]
      | none => match quiesceGeom e items with
        | some n =>
          let e := sqSet e (CH_TRN_STATUS n) [(CH_TRN_STATUS_GEOM_MISMATCH n, 1)]
          finish e id stBadArg 0 [rejectWord (items.find? fun x => between x.1 0x80 0xAB)]
        | none => startCommit e id items q

/-! ## The quiesced commit (R523) -/

/-- Every class 3 request has completed. -/
def class3Done (e : Engine) : Bool :=
  (e.txns.all fun (t : Txn) => t.eng || !isClass3 t.req.op) && fifosEmpty e

/-- The write queues of the QoS stage and of the channels are empty. -/
def writesDone (e : Engine) : Bool :=
  e.txns.isEmpty && e.qos.writes.isEmpty && (List.range 16).all fun n => (getChan e n).wq.isEmpty && (getChan e n).replay.isEmpty

/-- The lines of a set that an agent holds and that no snoop is out for. -/
def unsnooped (e : Engine) (s : Nat) : List (Nat × Nat) :=
  ((getSet e s).ways.flatMap fun w => w.holders.map fun h => (wayLine s w, h.agent)).filter fun p => !transient e p.1

/-- R523 step 3: BISnpInv to every holder, as long as an eviction entry is free (R353). -/
def snoopAll (e : Engine) : Engine :=
  (e.dir.sets.flatMap fun p => unsnooped e p.1).foldl (fun e p =>
    if transient e p.1 && !e.dir.snoops.any (fun s => s.la == p.1 && s.owner == .unenroll) then e
    else if e.dir.evicts.contains p.1 then formSnoop e p.1 p.2 true .unenroll
    else if e.dir.evicts.length ≥ 128 then e
    else formSnoop { e with dir := { e.dir with evicts := e.dir.evicts ++ [p.1] } } p.1 p.2 true .unenroll) e

/-- No agent holds a line and no snoop is out. -/
def nothingHeld (e : Engine) : Bool :=
  (e.dir.sets.all fun p => p.2.ways.all fun w => w.holders.isEmpty) && e.dir.snoops.isEmpty && e.dir.victims.isEmpty

/-- R101: a channel that the configuration does not use stays off. -/
def unuseChan (e : Engine) (n : Nat) : Engine :=
  let e := dropChannel e n
  setChPower e (reg e PWR_CH_PWR &&& ~~~ (BitVec.ofNat 32 (2 ^ (n + 16))))

/-- R523 step 5: the blocking enables clear, every staged item is written, and the enables set again: Grist and
the directory first, with their check and initialisation, ingress last. A change of the mapping leaves the memory
uninitialised (R104) and turns off the channels that it leaves unused (R101). -/
def applyQuiesce (e : Engine) (items : List (Nat × Nat × Word)) : Engine :=
  let qs := ofRoute .quiesce items
  let dir := qs.any fun x => x.1 == 0xB0
  let grist := qs.any fun x => between x.1 0x80 0xAB
  let e := if dir then fwClear e DIR_CTRL else e
  let g := gcfg e
  let e := qs.foldl applyWords (if grist then fwClear e GC_GRIST_CTRL else e)
  let e := if g = gcfg e then e
    else { (unusedOn e).foldl unuseChan e with sec := { e.sec with dirty := true } }
  let e := if grist then gristDone (fwSet e GC_GRIST_CTRL) else e
  let e := if dir then dirInitDone (fwSet e DIR_CTRL) else e
  let e := applyDirect e items
  let e := (rollChans e items).foldl (fun e n => swapChan e n (nextGen e) (rollWords e items n)) e
  setGens (applyEngineItems e items)

/-- Downtime adds to a counter in µs, saturating (R555). -/
def addDown (e : Engine) (a : Nat) (units : Nat) : Engine :=
  setReg e a (word (min ((reg e a).toNat + units / usUnits 1) (2 ^ 32 - 1)))

/-- R523 step 4: the write queues drain whatever their watermarks and IDLE_DRAIN, as an opportunistic drain does, to the
end (DEDUCED: the step names no other kind of drain). -/
def drainWrites (e : Engine) : Engine :=
  (List.range 32).foldl (fun e i =>
    let n := i / 2
    let c := getChan e n
    if on e (CH_SCHED_CTRL_SCHED_EN n) && (drainKind c (i % 2)).isNone && !(queuedWrites c (i % 2)).isEmpty &&
        (queuedReads c (i % 2)).isEmpty
    then syncLines (startDrain e n (i % 2) .opportunistic) n else e) e

/-- QUIESCE_STEP (R523): the next step, once what it waits for has come. -/
def quiesceStep (e : Engine) : Engine :=
  match e.mci.commit with
  | none => e
  | some c =>
    if !c.quiesce || !pairRuns e 0 || isSafe e then e
    else
      let dir := c.items.any fun x => x.1 == 0xB0
      let go := fun (e : Engine) (k : Nat) => putCommit (setProgress e c.ticket k) { c with step := k }
      match c.step with
      | 2 =>
        if !class3Done e then e
        else if dir then go (snoopAll e) 3
        else go (recallAll e) 4
      | 3 => if nothingHeld e then go (recallAll e) 4 else snoopAll e
      | 4 =>
        if allYielded e && writesDone e then
          let e := declare (fwClear e GC_ING_CTRL) c.ticket
          let e := { e with flt := { e.flt with planAt := some e.clk.nominal } }
          go e 5
        else drainWrites e
      | _ =>
        let t := e.flt.planAt.getD e.clk.nominal
        let e := setProgress e c.ticket (rollChans e c.items).length
        let e := fwSet (applyQuiesce e c.items) GC_ING_CTRL
        let e := addDown { e with flt := { e.flt with planAt := none } } FLT_DOWN_PLAN (e.clk.nominal - t)
        closeCommit (throttleAll e false) c stOk (rd e GC_CFG_GEN_GEN)

end Sys2Proof.Machine
end

