-- ==== Sys2Proof/Machine/Recover.lean ====
section
/-! DEFINITION. Recovery from the safe state (R551–R555): the quiet period, the recovery itself and its
accounting. -/

namespace Sys2Proof.Machine

/-- R529: the source is attributed to the engine, and not to a DIMM or a host. -/
def engineFault (src : Nat) : Bool :=
  !(src == 0x02 || src == 0x03 || src == 0x04 || src == 0x08 || src / 16 == 1 || src / 16 == 4)

/-- A quiesce that had cleared ING_EN sets it again; its time counts as planned (R523, R549; DESIGN CHOICE). -/
def reopenIntake (e : Engine) : Engine :=
  match e.flt.planAt with
  | some t =>
    let e := fwSet e GC_ING_CTRL
    addDown { e with flt := { e.flt with planAt := none } } FLT_DOWN_PLAN (e.clk.nominal - t)
  | none => e

/-- R480, R521, R522: the restart cuts the commit: a roll stops, and its rolled channels go back by ROLL_ROLLBACK; a
quiesce gives credits and throttle back. In the safe state the roll waits for R26. -/
def cutCommit (e : Engine) : Engine :=
  match e.mci.commit with
  | none => e
  | some c =>
    if isSafe e then e
    else if c.quiesce then dropQuiesce (reopenIntake e) c.step
    else putCommit e { c with stop := some (c.stop.getD stAborted) }

/-- CORE_RESTART_COMPLETE (R339, R479, R480): the restarted pair rebuilds its tickets, or the repeated check of
its image fails. -/
def coreRestart (e : Engine) (p : Nat) (ok : Bool) : Engine :=
  if clocked e ∧ rd e (pairField p) = 2 then
    if ok then
      let e := wr e (pairField p) 0
      let e := coreFlag e MBX_STATUS_RESTART p
      let e := satF e (restartField p) 1
      let e := mapCore e p fun c => { c with
        restarted := some e.clk.nominal, kick := if nth e.dbg.halted p false then 0 else e.clk.nominal }
      let e := (pairTickets e p).foldl cutTicket e
      if p = 0 then
        let e := cutCommit (endTickets e stAborted)
        let e := finishOpt e e.pwr.pend stAborted 0 []
        mapPwr (cutWork e 0) fun q => { q with pend := none }
      else mapSec (cutWork e 1) fun s => { s with waitKey := [] }
    else coreStopped e p 0xFF
  else e

/-- R552 step 1, R26: the channels return to the committed generation; a quiesce that had cleared ING_EN sets it
again (DESIGN CHOICE). -/
def recoverCommit (e : Engine) : Engine :=
  match e.mci.commit with
  | none => e
  | some c =>
    let e := c.rolled.reverse.foldl (fun e n => unrollChan e c n) e
    let e := reopenIntake e
    let e := setReg e GC_CFG_GEN (setFields (reg e GC_CFG_GEN) [(GC_CFG_GEN_ROLLING, 0), (GC_CFG_GEN_NEXT_CH, 0)])
    mapMci (throttleAll e false) fun m => { m with commit := none }

/-- R552 step 3: a lost line is written as poisoned, lost metadata is rebuilt. -/
def recoverLost (d : Dram) (e : Engine) (l : LostLine) : Engine :=
  match l.kind with
  | 1 => loseSc e (l.la - dataTop (gcfg e))
  | 2 => directMeta d (lossFlag e CRY_STATUS_MAC_LOST) l.la 2 0 0 0
  | 3 => loseCtr e l.la
  | _ => directWrite d e l.la poisonSlot

/-- R552 step 3: the metadata that is still to be rebuilt, the counter lines first. -/
def recoverMeta (d : Dram) (e : Engine) : Engine :=
  let e := (0 :: e.sec.lostCtr).foldl (fun e _ => counterRebuildNow d e) e
  e.pack.rebuilds.foldl (rebuildNow d) e

/-- R365: the set of the directory error that the safe state began with. -/
def errorSet (e : Engine) : Option Nat :=
  if rd e FLT_SAFE_NO_AUTO = 3 then e.flt.cause.map fun r => r.syn.toNat % 2 ^ 24 else none

/-- R366: every outstanding snoop is sent again with its BITAG, and its timer starts from zero. -/
def resendSnoops (e : Engine) : Engine :=
  let e := e.dir.snoops.foldl (fun e s => match s.tag with
    | some g => snoopPkt e s g
    | none => e) e
  { e with dir := { e.dir with snoops := e.dir.snoops.map fun (s : Snoop) =>
      if s.tag.isSome then { s with since := e.clk.nominal } else s } }

/-- R555: the time since SAFE adds to the counter of the cause's attribution. -/
def countDown (e : Engine) : Engine :=
  let src := rd e FLT_SAFE_CAUSE_SRC
  addDown e (if engineFault src then FLT_DOWN_ENG else FLT_DOWN_EXCL) (e.clk.nominal - e.flt.safeAt)

/-- A channel serves again (R552 step 5). -/
def recoverChannel (e : Engine) (n : Nat) : Engine :=
  let e := putChan e n { getChan e n with ownFault := false }
  let live := chanLive e n && inService e n
  let out := (getChan e n).train.offline
  let e := resumeChannel (if live then onlineRun e n else e) n
  if live && out then writeDrops e else e

/-- The end of the safe state (R552 step 6); `auto` tells an automatic recovery (R553). -/
def leaveSafe (e : Engine) (auto : Bool) : Engine :=
  let e := if on e GC_ING_CTRL_ING_EN then issueAllotments e else e
  let e := satF (fillBuckets (wr e PWR_CTRL_IN_SERVICE 1)) FLT_RECOVERY_RECOVERY_COUNT 1
  let e := if auto then { e with flt := { e.flt with recent := recentNow e ++ [e.clk.nominal] } } else e
  let e := countDown (faultBroadcast e (rd e FLT_SAFE_CAUSE_SRC) 1)
  let e := setReg e FLT_SAFE (setFields (reg e FLT_SAFE)
    [(FLT_SAFE_PHASE, 0), (FLT_SAFE_NO_AUTO, 0), (FLT_SAFE_DUMP_DONE, 0)])
  let e := wr (if pwrState e = 1 then leaveIdle (wr e PWR_STATE_STATE 0) else e) FLT_STATUS_SAFE 0
  (List.range 16).foldl startPending e

/-- R552: recovery. -/
def recover (d : Dram) (e : Engine) (auto : Bool) : Engine :=
  let e := recoverCommit (wr e FLT_SAFE_PHASE 5)
  let e := inParallel e fun e n => if inService e n then restoreChannel d e n else e
  let e := recoverMeta d (e.flt.lost.foldl (recoverLost d) e)
  let e := match errorSet e with
    | some s => putSet e s noSet
    | none => e
  let e := resendSnoops e
  let e := inParallel e recoverChannel
  leaveSafe { e with flt := { e.flt with lost := [] } } auto

/-- QUIET_PERIOD_EXPIRY: QUIET_MS after the dump, or after the last contained or fatal event (R551). -/
def quietExpiry (d : Dram) (e : Engine) : Engine :=
  if clocked e && isSafe e && rd e FLT_SAFE_PHASE == 3 && on e FLT_CTRL_AUTO_EXIT && on e FLT_SAFE_DUMP_DONE &&
      rd e FLT_SAFE_NO_AUTO == 0 && !inTrans e && pairRuns e 0 then
    recover d (tickTo e (e.flt.quietAt + msUnits (rd e FLT_CTRL_QUIET_MS))) true
  else e

/-- RECOVERY_WINDOW_EXPIRY: the oldest automatic recovery falls outside the last 86,400 s (R442, R553). -/
def recoveryWindow (e : Engine) : Engine :=
  match recentNow e with
  | [] => e
  | t :: _ =>
    if clocked e then
      let e := tickTo e (t + dayUnits)
      { e with flt := { e.flt with recent := e.flt.recent.filter fun (u : Nat) => u != t } }
    else e

end Sys2Proof.Machine
end

