-- ==== Sys2Proof/Machine/MciOps.lean ====
section
/-! DEFINITION. The commands of R515 beside sessions and configuration: training, sparing, repair, security,
power, telemetry, faults, scrub and firmware update. The checks of a command's own rules come after its ticket
has opened, so that their failures are the ticket's record (R511). -/

namespace Sys2Proof.Machine

/-- The bits of a range of words, joined: an engine-local byte address in words `i` and `i + 1`. -/
def Cmd.addr (c : Cmd) (i : Nat) : Nat := (c.w i).toNat + (c.w (i + 1)).toNat * 2 ^ 32

/-! ## RETRAIN (R233, R235, R516, R519) -/

/-- An offline run takes a drained channel out of service: SCHED_EN clears, MEn closes every bank, and FW_DROP counts the
channel (R408, R520). -/
def startOffline (e : Engine) (n pranks steps id : Nat) : Engine :=
  let e := mapTrain (closeAll (fwClear e (CH_SCHED_CTRL n)) n) n fun t => { t with offline := true }
  beginRun (writeDrops e) n 2 pranks steps (some id)

/-- An offline run may begin on the channel (R235). -/
def offlineOk (e : Engine) (n : Nat) : Bool :=
  !on e (CH_TRN_STATE_BUSY n) && on e (CH_REF_CTRL_REF_EN n) && on e (CH_RG_CTRL_RG_EN n) && inService e n

/-- R516, R520: the drain of the first offline RETRAIN, one attempt at a time as for a roll: a first look throttles the
ports, a second one finds the drain reached or the 20 µs over; a third failure ends the command with BUSY. -/
def offlineDrain (e : Engine) : Engine :=
  match e.mci.offRuns with
  | [] => e
  | r :: rest =>
    if !pairRuns e 0 || isSafe e then e
    else
      let put := fun (e : Engine) (l : List OffRun) => mapMci e fun m => { m with offRuns := l }
      let e := if r.throttled then e else throttleAll e true
      if rollDrained e r.ch then
        let e := put (throttleAll e false) rest
        if offlineOk e r.ch then startOffline e r.ch r.pranks r.steps r.ticket else finish e r.ticket stBusy 0 []
      else if !r.throttled then put e ({ r with throttled := true } :: rest)
      else
        let e := throttleAll (waitUs e 20) false
        if r.tries ≥ 2 then finish (put e rest) r.ticket stBusy 0 []
        else waitUs (put e ({ r with throttled := false, tries := r.tries + 1 } :: rest)) 100

/-- ROLL_CHANNEL: the next look at the channel of a roll, or at that of an offline RETRAIN; the two exclude each other
(R519). -/
def rollStep (e : Engine) : Engine := if e.mci.offRuns.isEmpty then rollChannel e else offlineDrain e

def mciRetrain (e : Engine) (c : Cmd) : Engine :=
  let n := c.f 1 3 0
  let mode := c.f 1 5 4
  let steps := c.f 1 26 16
  checked e c ⟨.admin, true, named c [0x07FF0F3F] && mode != 3, c.len == 2 && mode != 0⟩ fun e =>
    ticketed e c fun e id =>
      let fail := fun st => finish e id st 0 []
      if !inService e n ∨ (mode = 1 ∧ steps &&& onlineSteps ≠ steps) then fail stBadArg
      else if on e (CH_TRN_STATE_BUSY n) ∨ (e.mci.offRuns.any fun r => r.ch == n) then fail stBusy
      else if mode = 1 then beginRun e n 1 (c.f 1 11 8) steps (some id)
      else if !offlineOk e n ∨ e.mci.commit.isSome then fail stBusy
      else
        let first := e.mci.offRuns.isEmpty
        let e := mapMci e fun m => { m with offRuns := m.offRuns ++ [⟨n, c.f 1 11 8, steps, id, false, 0⟩] }
        if first then offlineDrain e else e

/-! ## SPARE (R110, R276) -/

def mciSpare (e : Engine) (c : Cmd) : Engine :=
  let g := gcfg e
  let scope := c.f 1 4 4
  checked e c ⟨.admin, true, named c [0xF1F], c.len == 2⟩ fun e =>
    ticketed e c fun e id =>
      if c.f 1 3 0 ≥ 2 ^ g.c ∨ (scope = 1 ∧ c.f 1 11 8 ≥ 2 ^ g.k) ∨ !canSpare e scope then finish e id stBadArg 0 []
      else if e.mci.commit.isSome then finish e id stBusy 0 []
      else declare (startSpare e (c.f 1 3 0) (c.f 1 11 8) scope) id

/-! ## PPR (R271–R274) -/

/-- R274: a unit that holds no data to keep: before the bands are initialised, or spared with its copy complete. -/
def noData (e : Engine) (l : Loc) : Bool :=
  decide (e.boot.stage ≤ 10) || sparedUnit e l

/-- PPR. `resource` is what MRR of the repair-resource register shows for the bank group, `fast` whether the
SPD's soft program time is at most 2 µs. -/
def mciPpr (e : Engine) (c : Cmd) (resource fast : Bool) : Engine :=
  let g := gcfg e
  let n := c.f 1 3 0
  let hard := c.f 1 5 5 == 1
  let all := c.f 1 6 6 == 1
  let dev := c.f 1 11 8
  let l : Loc := ⟨n, c.f 1 4 4, c.f 1 15 12, c.f 1 18 16, c.f 1 20 19, c.f 2 17 0, 0⟩
  checked e c ⟨.admin, true, named c [0x1FFF7F, 0x3FFFF], c.len == 3⟩ fun e =>
    ticketed e c fun e id =>
      let fail := fun st => finish e id st 0 []
      if n ≥ 2 ^ g.c ∨ l.rank ≥ 2 ^ g.k ∨ l.row ≥ 2 ^ g.r ∨ (!all ∧ dev > 9) then fail stBadArg
      else if (getChan e n).repair.isSome then fail stBusy
      else if !hard ∧ !fast then fail stUnsupported
      else if (hard ∧ !noData e l) ∨ !resource then fail stDenied
      else syncLines (startRepair e n l (if all then none else some dev) hard (some id)) n

/-! ## Contexts and the protection table (R314–R322) -/

def mciCtxCreate (e : Engine) (c : Cmd) : Engine :=
  let ctx := c.f 1 11 0
  checked e c ⟨.priv, true, named c [0xFFF], c.len == 2⟩ fun e =>
    ticketed e c fun e id =>
      if ctx = 0 ∨ e.sec.active.contains ctx then finish e id stBadArg 0 []
      else if e.sec.waitKey.any fun w => w.2.1 == ctx then finish e id stBusy 0 []
      else ctxGenerate e id ctx

def mciCtxDestroy (e : Engine) (c : Cmd) : Engine :=
  let ctx := c.f 1 11 0
  checked e c ⟨.priv, true, named c [0xFFF], c.len == 2⟩ fun e =>
    ticketed e c fun e id =>
      if ctx = 0 then finish e id stDenied 0 []
      else if !e.sec.active.contains ctx then finish e id stBadArg 0 []
      else secCommand e id c.words

/-- The fields that a PROT_SET of this size names. -/
def protMasks (c : Cmd) : List Word :=
  [0x1FF] ++ ((List.range (c.f 1 3 1)).flatMap fun _ =>
    [0x3FF, 0xFFFFFFFF, 0xFFFFFFFF, 0xFFFFC0FF, 0xFFFFFFFF, 0x0FFFFFFF]) ++
  ((List.range (c.f 1 8 4)).flatMap fun _ => [0x0FFF03FF, 0x1FFF])

def protValid (c : Cmd) : Bool :=
  decide (c.f 1 3 1 ≤ 4) && decide (c.f 1 8 4 ≤ 16) && c.len == 2 + 6 * c.f 1 3 1 + 2 * c.f 1 8 4 &&
    (List.range (c.f 1 8 4)).all fun j =>
      let n := c.f (updAt c.words j + 1) 12 0
      decide (1 ≤ n) && decide (c.f (updAt c.words j) 27 16 + n ≤ 4096)

def mciProtSet (e : Engine) (c : Cmd) : Engine :=
  let nreg := c.f 1 3 1
  let known := named c (protMasks c) && (decide (nreg ≤ 1) || (decide (nreg ≤ 4) && decide (sessionVer e c.box ≥ 0x202)))
  checked e c ⟨.priv, true, known, protValid c⟩ fun e => ticketed e c fun e id => secCommand e id c.words

/-! ## ENROLL_AGENT (R350–R353) -/

/-- The enrolled agents. -/
def enrolled (e : Engine) : List (Nat × Enroll) := e.dir.enroll.filter fun p => p.2.enrolled

/-- The lowest free vector index. -/
def freeVidx (e : Engine) : Option Nat :=
  (List.range 64).find? fun i => (enrolled e).all fun p => p.2.vidx != i

def mciEnroll (e : Engine) (c : Cmd) : Engine :=
  let a := c.f 1 11 0
  let place := c.f 1 17 17 == 1
  let port := c.f 1 24 18
  checked e c ⟨.priv, true, named c [0x01FF0FFF], c.len == 2⟩ fun e =>
    ticketed e c fun e id =>
      let r := getEnroll e a
      let e := mapTicket e id fun k => { k with body := [word a] }
      if c.f 1 16 16 = 0 ∧ !r.enrolled then finish e id stOk 0 []
      else if e.dir.walks.any fun w => w.agent == a then finish e id stBusy 0 []
      else if c.f 1 16 16 = 0 then
        { e with dir := { e.dir with walks := e.dir.walks ++ [⟨true, a, 0, 0, false, []⟩] } }
      else if r.enrolled then
        if r.port ≠ port then finish e id stBadArg 0 []
        else finish (putEnroll e a { r with place := place }) id stOk r.vidx []
      else if shadow e then
        finish (putEnroll e a { r with enrolled := true, place := place, port := port, vidx := 0 }) id stOk 0 []
      else match freeVidx e with
        | none => finish e id stOver 0 []
        | some v =>
          finish (putEnroll e a { r with enrolled := true, place := place, port := port, vidx := v }) id stOk v []

/-! ## PWR_REQ (R455, R462, R467) -/

def mciPower (e : Engine) (c : Cmd) : Engine :=
  let t := c.f 1 2 0
  let commanded := c.f 1 3 3
  let test := c.f 1 4 4 == 1
  checked e c ⟨.power, true, named c [0x1F] && decide (t ≤ 4), c.len == 2⟩ fun e =>
    ticketed e c fun e id =>
      let byCmd := commanded == 1 || test || !on e PWR_CTRL_IN_SERVICE
      if commanded = 1 ∧ on e PWR_CTRL_IN_SERVICE then finish e id stDenied 0 []
      else if isSafe e ∧ !on e FLT_SAFE_DUMP_DONE then finish e id stBusy 0 []
      else if byCmd ∧ ((t ≥ 2 ∧ e.pins.wake) ∨ ((t = 2 ∨ t = 3) ∧ !kilnGood e)) then finish e id stBusy 0 []
      else
        let e := if test then wr e PWR_CTRL_IN_SERVICE 0
          else if t = 0 then wr e PWR_CTRL_IN_SERVICE 1 else e
        powerRequest (fwWrite e PWR_CMD (word (commanded * 2 ^ 30 + t))) t (some id)

/-! ## HOTLIST_READ (R422, R423) -/

/-- The words of a hotlist entry (R423). -/
def hotWords (h : HotEntry) : List Word := [word h.page, word (h.count % 2 ^ 24), word (h.err % 2 ^ 24)]

def mciHotlist (e : Engine) (c : Cmd) : Engine :=
  let ep := (c.w 1).toNat
  let start := c.f 2 12 0
  checked e c ⟨.reader, false, named c [0xFFFFFFFF, 0x1FFF, 0xFFFFFF], c.len == 4⟩ fun e =>
    let s := e.tel.snap
    if !on e TEL_HOT_STATE_SORTED then reply e c stBusy 0 []
    else if ep ≠ 2 ^ 32 - 1 ∧ ep ≠ e.tel.snapEpoch % 2 ^ 32 then reply e c stSuperseded 0 []
    else if start > s.length then reply e c stBadArg 0 []
    else
      let f := fun (x : Fld) => wordField e.tel.snapCtrl x.hi x.lo
      let res := s.length + rd e TEL_HOT_STATE_PARTIAL * 2 ^ 13 + f TEL_CTRL_PAGE_SZ * 2 ^ 14 +
        f TEL_CTRL_COUNT_MODE * 2 ^ 15 + f TEL_CTRL_SHIFT * 2 ^ 17
      let list := ((s.drop start).filter fun h => decide (h.count ≥ c.f 3 23 0)).take 20
      reply e c stOk res
        ([word e.tel.snapEpoch, word (min e.tel.snapSamples (2 ^ 32 - 1))] ++ list.flatMap hotWords)

/-! ## DUMP_READ and FAULT_CLEAR (R550, R554) -/

/-- The word of some bytes, least significant first. -/
def bytesWord (bs : List Byte) : Word := word (ofLE (bs.map (·.toNat)))

/-- `n` words of some bytes. -/
def bytesWords : Nat → List Byte → List Word
  | 0, _ => []
  | n + 1, bs => if bs.isEmpty then [] else bytesWord (bs.take 4) :: bytesWords n (bs.drop 4)

/-- The dump that is held under a number. -/
def findDump (e : Engine) (id : Nat) : Option Dump :=
  (e.flt.tun.toList ++ e.flt.dram.toList).find? fun (x : Dump) => x.id == id

def mciDumpRead (e : Engine) (c : Cmd) : Engine :=
  let off := (c.w 2).toNat
  checked e c ⟨.admin, false, named c [0xFFFF, 0xFFFFFFFF], c.len == 3 && off % 4 == 0⟩ fun e =>
    let id := if c.f 1 15 0 = 0 then rd e FLT_SAFE_DUMP_ID else c.f 1 15 0
    if rd e FLT_SAFE_PHASE = 1 ∨ rd e FLT_SAFE_PHASE = 2 then reply e c stBusy 0 []
    else match findDump e id with
      | none => reply e c stBadArg 0 []
      | some x =>
        if off ≥ x.bytes.length then reply e c stBadArg 0 []
        else reply e c stOk x.id ([word x.bytes.length, word off] ++ bytesWords 60 ((x.bytes.drop off).take 240))

def mciFaultClear (d : Dram) (e : Engine) (c : Cmd) : Engine :=
  checked e c ⟨.admin, false, named c [3], c.len == 2⟩ fun e =>
    let na := rd e FLT_SAFE_NO_AUTO
    if na = 2 ∨ na = 4 then reply e c stDenied 0 []
    else if isSafe e ∧ !on e FLT_SAFE_DUMP_DONE then reply e c stBusy 0 []
    else
      let e := reply { e with flt := { e.flt with tunHeld := false } } c stOk 0 []
      let e := if c.f 1 1 1 = 1 then
          { wr e FLT_RECOVERY_RECOVERY_COUNT 0 with flt := { e.flt with recent := [] } }
        else e
      if isSafe e ∧ c.f 1 0 0 = 1 then recover d e false else e

/-! ## SCRUB and SANITIZE (R267, R323) -/

def mciScrub (e : Engine) (c : Cmd) : Engine :=
  let all : Word := 0xFFFFFFFF
  checked e c ⟨.admin, true, named c [all, all, all, all], c.len == 5⟩ fun e =>
    ticketed e c fun e id =>
      let g := gcfg e
      match rangeOf c.words 1 (dumpBase g * sliceLines g) with
      | none => finish e id stBadArg 0 []
      | some (a, b) =>
        if !on e GC_GRIST_CTRL_GRIST_EN then finish e id stBusy 0 []
        else (List.range (2 ^ g.c)).foldl (fun e n =>
          let ch := getChan e n
          let p : Pass := ⟨a, a, b, 0, id⟩
          if (passNext e n p).isSome then syncLines (putChan e n { ch with pass := ch.pass ++ [p] }) n
          else e) e

def mciSanitize (e : Engine) (c : Cmd) : Engine :=
  let all : Word := 0xFFFFFFFF
  checked e c ⟨.priv, true, named c [0x10FFF, all, all, all, all], c.len == if c.f 1 16 16 = 1 then 6 else 2⟩ fun e =>
    ticketed e c fun e id => secCommand e id c.words

/-! ## FW_STAGE and FW_ACTIVATE (R524, R525) -/

/-- The largest payload of a KIND. -/
def payloadMax (kind : Nat) : Nat := if kind = 2 then 2 ^ 19 else if kind = 1 then 2 ^ 18 else 2 ^ 16

/-- The stage with a chunk at an offset; none for a gap or beyond `lim` bytes. -/
def stageChunk (old : Option FwStage) (kind off lim : Nat) (b : List Byte) : Option FwStage :=
  let base := if off = 0 then some [] else match old with
    | some s => if s.kind = kind ∧ s.bytes.length = off ∧ s.verified.isNone then some s.bytes else none
    | none => none
  match base with
  | some x => if (x ++ b).length ≤ lim then some ⟨kind, x ++ b, none⟩ else none
  | none => none

/-- FW_STAGE. While an image is verified a further chunk is answered with BUSY (DESIGN CHOICE: R524 names no case for it). -/
def mciFwStage (e : Engine) (c : Cmd) : Engine :=
  let kind := c.f 1 1 0
  let fin := (c.w 1).getLsbD 31
  let ok := decide (3 ≤ c.len) && decide (c.len ≤ 64) && kind != 0 && kind != 3
  let known := !(c.w 0).getLsbD 31 && c.w 1 &&& 0x7FFFFFFC == 0
  checked e c ⟨if kind = 1 then .priv else .admin, fin, known, ok⟩ fun e =>
    let (e, id) := if fin then
        let r := openTicket e c.box c.tag c.op (c.words.drop 1)
        (r.1, some r.2)
      else (e, none)
    let fail := fun st => match id with
      | some id => finish e id st 0 [0]
      | none => reply e c st 0 []
    let off := (c.w 2).toNat
    let b := wordBytes ((c.words.take c.len).drop 3)
    if e.flt.tunHeld || e.mci.verify.isSome then fail stBusy
    else match stageChunk e.boot.stageBuf kind off (260 + payloadMax kind + 3) b with
      | none => fail stBadArg
      | some s =>
        let e := putFwStage { e with flt := { e.flt with tun := none } } (some s)
        match id with
        | some id => mapMci e fun m => { m with verify := some id }
        | none => reply e c stOk 0 []

/-- The pair that runs a KIND of image. -/
def kindPair (kind : Nat) : Nat := if kind = 1 then 1 else 0

/-- Every open session that the pair serves has a version that the new image supports. -/
def sessionsServed (e : Engine) (p : Nat) (image : List Byte) : Bool :=
  e.mci.sessions.all fun x => match x.2 with
    | some s => boxPair e x.1 != p || Config.imageServes image s.ver
    | none => true

/-- The image of a KIND runs from now on. -/
def activateImage (e : Engine) (kind svn : Nat) (image : List Byte) : Engine :=
  let e := mapCore e (kindPair kind) fun c => { c with svn := svn, kick := e.clk.nominal }
  let e := if kind = 1 then wr e CRY_FW_SVN_RUN_SVN svn else e
  { e with boot := { e.boot with
      images := e.boot.images.filter (fun (x : Nat × Nat × List Byte) => x.1 != kind) ++ [(kind, svn, image)] } }

def mciFwActivate (e : Engine) (c : Cmd) : Engine :=
  let kind := c.f 1 1 0
  checked e c ⟨if kind = 1 then .priv else .admin, true, named c [3], c.len == 2 && kind != 0⟩ fun e =>
    ticketed e c fun e id =>
      let now := fun (e : Engine) => word (ownSvn e (kindPair kind))
      if e.mci.commit.isSome then finish e id stBusy 0 [now e]
      else match e.boot.stageBuf with
        | some ⟨k, b, some v⟩ =>
          let image := (stageImage ⟨k, b, some v⟩).drop 260
          if k ≠ kind then finish e id stBadArg 0 [now e]
          else if !sessionsServed e (kindPair kind) image then finish e id stDenied 0 [now e]
          else
            let e := activateImage (declare e id) kind v image
            finish e id stOk 0 [now e]
        | _ => finish e id stBadArg 0 [now e]

/-! ## Dispatch of a message (R510) -/

/-- The command that a message holds, whichever it is. A PPR of another engine's firmware finds no permission,
so that what its modules would answer does not matter. -/
def mciAny (d : Dram) (e : Engine) (c : Cmd) : Engine :=
  match c.op with
  | 0x0001 => mciBye e c
  | 0x0002 => mciAbort e c
  | 0x0100 => mciStage e c
  | 0x0101 => mciCommit e c
  | 0x0102 => mciRead e c
  | 0x0200 => mciRetrain e c
  | 0x0201 => mciSpare e c
  | 0x0202 => mciPpr e c false false
  | 0x0300 => mciCtxCreate e c
  | 0x0301 => mciCtxDestroy e c
  | 0x0302 => mciProtSet e c
  | 0x0303 => mciEnroll e c
  | 0x0400 => mciPower e c
  | 0x0500 => mciHotlist e c
  | 0x0600 => mciDumpRead e c
  | 0x0601 => mciFaultClear d e c
  | 0x0700 => mciScrub e c
  | 0x0701 => mciSanitize e c
  | 0x0800 => mciFwStage e c
  | 0x0801 => mciFwActivate e c
  | _ => mciHello e c

/-- RING_MCI_MESSAGE: firmware takes the first complete MCI message of another engine's firmware. -/
def ringMci (d : Dram) (e : Engine) (src : Nat) : Engine :=
  match e.ring.inbox.find? fun x => x.1 == src with
  | some x =>
    if pairRuns e 0 then
      let e := mapRing e fun r => { r with inbox := r.inbox.erase x }
      mciAny d e (cmdOf (64 + src) x.2)
    else e
  | none => e

end Sys2Proof.Machine
end

