-- ==== Sys2Proof/Machine/BringUp.lean ====
section
/-! DEFINITION. Bring-up (R587–R596): the boot ROM's loading, the boot configuration, and the stages from Config
to Open. -/

namespace Sys2Proof.Machine

def mapBoot (e : Engine) (f : Boot → Boot) : Engine := { e with boot := f e.boot }

/-! ## Loading (R587, R588) -/

/-- The records of a KIND 3 payload: KEY, SCOPE and VALUE. -/
def bootRecs : Nat → List Byte → List (Nat × Nat × Word)
  | 0, _ => []
  | n + 1, bs =>
    if bs.length < 8 then []
    else
      let w := bytesWord (bs.take 4)
      (wordField w 15 0, wordField w 23 16, bytesWord ((bs.drop 4).take 4)) :: bootRecs n (bs.drop 8)

/-- The verified image of a KIND: SVN and payload. -/
def bootImage (e : Engine) (kind : Nat) : Option (Nat × List Byte) :=
  (e.boot.images.find? fun (x : Nat × Nat × List Byte) => x.1 == kind).map (·.2)

/-- All three images have verified: each goes to its pair, and the pairs are released (R588). -/
def loadDone (e : Engine) : Engine :=
  match bootImage e 1, bootImage e 2, bootImage e 3 with
  | some s, some m, some b =>
    let e := mapCore e 1 fun c => { c with svn := s.1, released := true, kick := e.clk.nominal }
    let e := mapCore e 0 fun c => { c with svn := m.1, released := true, kick := e.clk.nominal }
    mapBoot (wr e CRY_FW_SVN_RUN_SVN s.1) fun x =>
      { x with stage := 2, recs := bootRecs (b.2.length / 8) b.2, stageBuf := none }
  | _, _, _ => e

/-- BOOT_FW_STAGE: the boot ROM takes a request from the boot mailbox. A message that is no FW_STAGE is answered
UNSUPPORTED (DESIGN CHOICE). -/
def bootFwStage (e : Engine) : Engine :=
  let c := cmdOf 0 ((List.range 64).map fun i => reg e (MBX_MB_D 0 i))
  if bootBox e 0 && boxState e 0 == 2 && e.boot.stage == 1 && pairRuns e 1 then
    let e := boxConsume e 0 .mc23
    let e := traceRec e 3 c.op (c.w 0)
    let kind := c.f 1 1 0
    let fin := (c.w 1).getLsbD 31
    let fail := fun (e : Engine) st => if fin then answer e 0 c.op c.tag st 0 [0, 0, 0] else reply e c st 0 []
    if c.op ≠ 0x0800 ∨ (c.w 0).getLsbD 31 ∨ c.w 1 &&& 0x7FFFFFFC ≠ 0 then reply e c stUnsupported 0 []
    else if c.len < 3 ∨ c.len > 64 ∨ kind = 0 then fail e stBadArg
    else match stageChunk e.boot.stageBuf kind (c.w 2).toNat (260 + payloadMax kind + 3)
        (wordBytes ((c.words.take c.len).drop 3)) with
      | none => fail e stBadArg
      | some s =>
        if fin then
          let e := putFwStage e none
          match verifyStage s with
          | none =>
            fail (mapBoot e fun x => { x with images := x.images.filter fun (y : Nat × Nat × List Byte) => y.1 != kind })
              stDenied
          | some i =>
            let e := mapBoot e fun x => { x with
              images := x.images.filter (fun (y : Nat × Nat × List Byte) => y.1 != kind) ++ [(kind, i.svn, i.payload)] }
            loadDone (answer e 0 c.op c.tag stOk 0 [word (stageImage s).length, 0, word i.svn])
        else reply (putFwStage e (some s)) c stOk 0 []
  else e

/-! ## The boot configuration (R591, R592) -/

abbrev BootRec := Nat × Nat × Word

/-- The first value of a KEY. -/
def bootVal (e : Engine) (k : Nat) : Option Word := (e.boot.recs.find? fun (x : BootRec) => x.1 == k).map (·.2.2)

/-- The configuration items among the records. -/
def bootItems (e : Engine) : List BootRec := e.boot.recs.filter fun x => decide (x.1 < 0x100)

/-- What Grist will map with. -/
def bootG (e : Engine) : GCfg :=
  gcfg (((bootItems e).filter fun x => between x.1 0x80 0xAB).foldl trialItem e)

/-- The channels to bring up. -/
def chMask (e : Engine) : Nat := match bootVal e 0x101 with
  | some v => v.toNat
  | none => 2 ^ 2 ^ (bootG e).c - 1

/-- The channels to bring up, without those that Steep has failed. -/
def bootChans (e : Engine) : List Nat :=
  (List.range 16).filter fun n => (chMask e).testBit n && !e.boot.failedChs.testBit n

/-- The values that a boot-only KEY admits; an item takes its own range. -/
def keyRange (e : Engine) (x : BootRec) : Bool :=
  let v := x.2.2
  match x.1 with
  | 0x100 => decide (v.toNat < 7)
  | 0x101 => v.toNat == 2 ^ 2 ^ (bootG e).c - 1
  | 0x102 => decide (v.toNat < 4096)
  | 0x103 => decide (v.toNat < 64)
  | 0x104 => v &&& ~~~0x030F0707 == 0
  | 0x105 => decide (v.toNat < 4096)
  | 0x106 => decide (v.toNat < 2 ^ 22)
  | 0x107 => decide (v.toNat < 8)
  | 0x108 => v &&& ~~~0x1FFF7F == 0 && v.getLsbD 5
  | 0x109 => decide (v.toNat < 2 ^ 18)
  | k => decide (k < 0x100) && (itemRoute k).isSome && scopeOk k x.2.1 && itemRange k v

/-- How often a KEY may occur. -/
def keyMax (k : Nat) : Nat :=
  if k = 0x105 ∨ k = 0x106 ∨ k = 0x108 ∨ k = 0x109 then 64 else if k < 0x100 then 2 ^ 13 else 1

/-- A HARD_PPR address is two records in a row. -/
def pairOk : List BootRec → Nat → Bool
  | rs, i =>
    let key := fun j => (rs[j]?).map (·.1)
    match key i with
    | some 0x108 => key (i + 1) == some 0x109
    | some 0x109 => decide (i ≥ 1) && key (i - 1) == some 0x108
    | _ => true

/-- The first record that Mulum rejects. -/
def badBootRec (e : Engine) : Option BootRec :=
  let rs := e.boot.recs
  (rs.zipIdx.find? fun p =>
    !keyRange e p.1 || !pairOk rs p.2 ||
      decide (((rs.take p.2).filter fun (y : BootRec) => y.1 == p.1.1).length ≥ keyMax p.1.1)).map (·.1)

/-- R592: MB0 is bound, with CORE 0. -/
def bindsMb0 (e : Engine) : Bool :=
  e.boot.recs.any fun x => x.1 == 0x106 && x.2.2.toNat % 128 == 0

/-! ## Stages (R593) -/

/-- How a stage ends: completed, not yet completed, or a failure with its status, channel and record. -/
inductive StageEnd where
  | done (e : Engine)
  | wait (e : Engine)
  | fail (e : Engine) (st ch : Nat) (r : Option BootRec)
  deriving DecidableEq, Repr

/-- R596: the boot record. -/
def bootRecord (e : Engine) (st stage ch : Nat) (r : Option BootRec) : Engine :=
  let w := match r with
    | some x => word (x.2.1 * 2 ^ 16 + x.1)
    | none => 0
  answer e 0 0xFFFF 0 st (ch * 2 ^ 8 + stage) [reg e GC_ID, word (e.boot.failedChs * 2 ^ 16 + e.boot.trained), w]

/-- An enable is set; the stage fails where it does not read 1. -/
def setOrFail (e : Engine) (p : RegPort) (a ch : Nat) : StageEnd :=
  let e := portWrite e p (a + 4) 0x80000000
  if (reg e a).getLsbD 31 then .done e else .fail e stBadArg ch none

def andThen (s : StageEnd) (f : Engine → StageEnd) : StageEnd :=
  match s with
  | .done e => f e
  | x => x

/-- The enables of some channels, one after the other. -/
def setEach (e : Engine) (ns : List Nat) (as : Nat → List Nat) : StageEnd :=
  ns.foldl (fun s n => (as n).foldl (fun s a => andThen s fun e => setOrFail e .mc01 a n) s) (.done e)

def stageConfig (e : Engine) : StageEnd :=
  let size := match bootImage e 3 with
    | some x => x.2.length % 8
    | none => 0
  match badBootRec e with
  | some r => .fail e stBadArg 0 (some r)
  | none =>
    if size ≠ 0 ∨ !bindsMb0 e then .fail e stBadArg 0 none
    else match e.boot.recs.find? fun (x : BootRec) => x.1 == 0x100 && x.2.2.toNat != e.clk.bin with
    | some r => .fail e stUnsupported 0 (some r)
    | none =>
      let admins := (e.boot.recs.filter fun (x : BootRec) => x.1 == 0x105).map fun x => x.2.2.toNat
      .done (mapMci e fun m => { m with admin := admins, priv := (bootVal e 0x102).map (·.toNat) })

/-- PWR_CH_PWR and QOS_SERVICE from CH_MASK. -/
def stagePower (e : Engine) : StageEnd :=
  let m := chMask e
  let e := fwWrite e PWR_CH_PWR (word (m * 2 ^ 16 + m))
  let e := fwWrite e QOS_SERVICE (word m)
  if reg e PWR_CH_PWR = word (m * 2 ^ 16 + m) then .done e else .fail e stBadArg 0 none

/-- Steep runs on every channel in parallel; a single failure may be spared (R594). -/
def stageSteep (e : Engine) : StageEnd :=
  let ns := (List.range 16).filter fun n => (chMask e).testBit n
  let ended := fun n => on e (CH_TRN_STATUS_DONE n) || on e (CH_TRN_STATUS_FAIL n)
  let fresh := ns.filter fun n => !on e (CH_TRN_STATE_BUSY n) && !ended n
  if !fresh.isEmpty then
    let g := bootG e
    .wait (fresh.foldl (fun e n =>
      fwWrite e (CH_TRN_CMD n) (word (2 ^ 31 + (2 ^ 2 ^ (g.slotBits + g.prankBits) - 1) * 2 ^ 20 + 0x7FF))) e)
  else if ns.any fun n => on e (CH_TRN_STATE_BUSY n) then .wait e
  else
    let bad := ns.filter fun n => on e (CH_TRN_STATUS_FAIL n)
    let g := bootG e
    let mask := fun (l : List Nat) => l.foldl (fun m n => m + 2 ^ n) 0
    let e := mapBoot e fun x => { x with failedChs := mask bad, trained := mask (ns.filter fun n => !bad.contains n) }
    match bad with
    | [] => .done e
    | [n] =>
      if g.spareRows ≠ 0 ∧ g.spareRows ≥ spareBound g g.c then .done e
      else .fail e (if on e (CH_TRN_STATUS_UNSUP_MOD n) then stUnsupported else stAborted) n none
    | n :: _ => .fail e (if on e (CH_TRN_STATUS_UNSUP_MOD n) then stUnsupported else stAborted) n none

/-- R62: an RDIMM channel runs at 4,800 to 8,000 MT/s, with two modules at up to 5,600; an MRDIMM channel runs at 8,800
or 12,800 MT/s with one module. -/
def rateFits (e : Engine) (n : Nat) : Bool :=
  let rate := binRate e.clk.bin
  let two := rd e (CH_PHY_SPD_SLOTS n) == 3 || (bootG e).slotBits != 0
  match rd e (CH_PHY_SPD_TYPE n) with
  | 1 => decide (rate ≤ if two then 5600 else 8000)
  | 2 => !two && decide (8800 ≤ rate)
  | _ => false

/-- The timing fields of a channel (R163), and whether each counts CTL cycles. -/
def timFields (n : Nat) : List (Fld × Bool) :=
  [(CH_TIM0_TRCD n, false), (CH_TIM0_TRP n, false), (CH_TIM0_TRTP n, false), (CH_TIM0_TWR n, false),
   (CH_TIM1_TRC n, false), (CH_TIM1_TRAS n, false), (CH_TIM1_TPPD n, false), (CH_TIM2_TRRD_S n, false),
   (CH_TIM2_TRRD_L n, false), (CH_TIM2_TFAW n, false), (CH_TIM2_TRRD_DLR n, false), (CH_TIM3_TCCD_S n, false),
   (CH_TIM3_TCCD_L n, false), (CH_TIM3_TCCD_L_WR n, false), (CH_TIM3_TCCD_DLR n, false), (CH_TIM4_TWTR_S n, false),
   (CH_TIM4_TWTR_L n, false), (CH_TIM4_TRTW n, false), (CH_TIM5_RL n, false), (CH_TIM5_WL n, false),
   (CH_TIM5_GAP_RANK n, false), (CH_TIM5_GAP_TURN n, false), (CH_TIM6_TRFC1 n, true), (CH_TIM6_TRFC2 n, true),
   (CH_TIM6_TRFCSB n, true), (CH_TIM7_TRFMAB n, true), (CH_TIM7_TDRFM n, true), (CH_TIM7_TXS n, true),
   (CH_TIM8_TZQCAL n, true), (CH_TIM8_TZQLAT n, true), (CH_TIM8_TMRD n, true), (CH_TIM8_TXP n, true),
   (CH_TIM9_TREFSBRD n, true), (CH_TIM9_TRFMSB n, true)]

/-- R161: a minimum time in ps as cycles of a data rate in MT/s: tCK is 2 / rate, and a CTL cycle has four. -/
def timCycles (rate ps : Nat) (ctl : Bool) : Nat :=
  let u := if ctl then 8000000 else 2000000
  (ps * rate + u - 1) / u

/-- Firmware writes one field of a register; a value beyond its width is written as the largest one. -/
def fwField (e : Engine) (f : Fld) (v : Nat) : Engine :=
  fwWrite e f.addr (setWordField (reg e f.addr) f.hi f.lo (min v (2 ^ (f.hi + 1 - f.lo) - 1)))

/-- R164: the fields that differ by the kind of module. At the bins of its table the value is the table's; at every bin
TCCD_S, TRRD_S and TCCD_DLR cover a burst of a rank, whose cycles do not depend on the rate (DEDUCED). -/
def kindTimes (e : Engine) (n : Nat) : Engine :=
  let v := fun (m r : Nat) => if isMrdimm e n then m else r
  let e := [CH_TIM3_TCCD_S n, CH_TIM2_TRRD_S n, CH_TIM3_TCCD_DLR n].foldl (fun e f => fwField e f (max (rd e f) (v 16 8))) e
  fwField e (CH_TIM5_GAP_RANK n) (v 0 4)

/-- The minimum time of a timing field of a channel in ps, from the modules' SPDs with the buffer delays: the command
names it, or it is a free value. -/
def minTime (times : List (Nat × Nat × Nat)) (n i : Nat) : Nat :=
  ((times.find? fun x => x.1 == n && x.2.1 == i).map (·.2.2)).getD (Config.moduleTime n i)

/-- R161, R164: every timing field of a channel at the running bin; `times` holds minimum times by channel and field. -/
def chanTimes (times : List (Nat × Nat × Nat)) (e : Engine) (n : Nat) : Engine :=
  kindTimes ((timFields n).zipIdx.foldl (fun e x =>
    fwField e x.1.1 (timCycles (binRate e.clk.bin) (minTime times n x.2) x.1.2)) e) n

/-- R226, R161: the channels have equal modules that run at the bin, and firmware computes their timing fields. -/
def stageGeometry (e : Engine) (times : List (Nat × Nat × Nat)) : StageEnd :=
  let ns := bootChans e
  let first := reg e (CH_PHY_SPD (ns.headD 0))
  match ns.find? fun n => reg e (CH_PHY_SPD n) != first with
  | some n => .fail (sqSet e (CH_TRN_STATUS n) [(CH_TRN_STATUS_GEOM_MISMATCH n, 1)]) stBadArg n none
  | none =>
    match ns.find? fun n => decide (rd e (CH_PHY_SPD_MAX_RATE n) < binRate e.clk.bin) || !rateFits e n with
    | some n => .fail e stUnsupported n none
    | none => .done (ns.foldl (chanTimes times) e)

/-- The first pair of HARD_PPR records, and the records without it. -/
def nextPpr (rs : List BootRec) : Option (Word × Word × List BootRec) :=
  match rs.findIdx? fun x => x.1 == 0x108 with
  | some i =>
    match rs[i]?, rs[i + 1]? with
    | some a, some b => some (a.2.2, b.2.2, rs.take i ++ rs.drop (i + 2))
    | _, _ => none
  | none => none

/-- The hard repairs of the records, one at a time; `resource` is what MRR of the next one's bank group shows. -/
def stageRepair (e : Engine) (resource : Bool) : StageEnd :=
  if (List.range 16).any fun n => (getChan e n).repair.isSome then .wait e
  else match nextPpr e.boot.recs with
    | none => .done e
    | some (a, b, rest) =>
      let g := bootG e
      let f := wordField a
      let n := f 3 0
      let l : Loc := ⟨n, f 4 4, f 15 12, f 18 16, f 20 19, wordField b 17 0, 0⟩
      if n ≥ 2 ^ g.c ∨ l.rank ≥ 2 ^ g.k ∨ l.row ≥ 2 ^ g.r ∨ (f 6 6 = 0 ∧ f 11 8 > 9) ∨ !resource then
        .fail e stAborted n (some (0x108, 0, a))
      else
        let e := mapBoot e fun x => { x with recs := rest }
        .wait (syncLines (startRepair e n l (if f 6 6 = 1 then none else some (f 11 8)) true none) n)

/-- R594: the channel that Steep has failed is spared without a copy. -/
def bootSpare (e : Engine) : Engine :=
  match (List.range 16).find? fun n => e.boot.failedChs.testBit n with
  | none => e
  | some n =>
    let w := setFields (reg e GC_SPARE_CTRL) [(GC_SPARE_CTRL_FAIL_CH, n), (GC_SPARE_CTRL_SCOPE, 0)]
    let e := setReg e GC_SPARE_CTRL w
    let p := unitLines (gcfg e) (spareCfg e)
    let e := setReg (setReg e GC_SPARE_PTR_LO (word p)) GC_SPARE_PTR_HI (word (p / 2 ^ 32 % 8))
    let e := sqSet (wr e GC_SPARE_CTRL_ACTIVE 1) GC_SPARE_STATUS [(GC_SPARE_STATUS_DONE, 1)]
    dropChannel e n

def stageGrist (e : Engine) : StageEnd :=
  let items := (bootItems e).filter fun x => between x.1 0x80 0xAB
  let e := gristDone (fwSet (items.foldl applyWords e) GC_GRIST_CTRL)
  if on e GC_GRIST_CTRL_GRIST_EN then .done (bootSpare e) else .fail e stBadArg 0 none

/-- The security firmware waits for the DRBG, enables crypto, and locks it when CTX 0 has its keys. -/
def stageCrypto (e : Engine) : StageEnd :=
  if !pairRuns e 1 then .wait e
  else if on e CRY_CTRL_CRY_EN then
    if e.sec.active.contains 0 then
      .done (mapBoot (portWrite e .mc23 (CRY_CTRL + 4) 0x40000000) fun x => { x with waitAt := none })
    else .wait e
  else if !seedReady e && !e.sec.drbg.seeded then
    .wait (mapBoot e fun x => { x with waitAt := some (x.waitAt.getD e.clk.nominal) })
  else
    let v := fun k => ((bootVal e k).map (·.toNat)).getD 0
    let e := if e.sec.drbg.seeded then e else drbgReseed e
    let e := portWrite e .mc23 CRY_CTRL (setFields (reg e CRY_CTRL)
      [(CRY_CTRL_PRIV_AGENT, v 0x102), (CRY_CTRL_FRESH_LOG2, v 0x103)])
    match setOrFail e .mc23 CRY_CTRL 0 with
    | .done e => .wait e
    | x => x

def stageChannels (e : Engine) : StageEnd :=
  let items := (bootItems e).filter fun x => itemScope x.1 == .chan
  setEach (items.foldl applyWords e) (bootChans e) fun n =>
    [CH_REF_CTRL n, CH_RG_CTRL n, CH_SCHED_CTRL n, CH_TRN_CTRL n]

/-- The reservations and targets of the records pass the admission check (R407). -/
def bootAdmitted (e : Engine) : Bool :=
  let t := ((bootItems e).filter fun x => isQosItem x.1).foldl trialItem e
  admits t (t.mci.resv.map resvOf)

def stageServices (e : Engine) : StageEnd :=
  let items := bootItems e
  let of := fun lo hi => items.filter fun x => between x.1 lo hi
  andThen (setEach e (bootChans e) fun n => [CH_SCRUB_CTRL n]) fun e =>
  let e := dirInitDone (fwSet ((of 0xB0 0xB0).foldl applyWords e) DIR_CTRL)
  if !on e DIR_CTRL_DIR_EN then .fail e stBadArg 0 none
  else
    let e := writeCaps e
    if !bootAdmitted e then .fail e stBadArg 0 ((of 0x50 0x53).head?)
    else
      let e := fwWrite ((of 0x50 0x53).foldl applyEngine e) QOS_CTRL (reg e QOS_CTRL ||| 0x40000000)
      andThen (setOrFail e .mc01 QOS_CTRL 0) fun e =>
      let e := (of 0x60 0x72).foldl (fun e x => if itemRoute x.1 = some .engine then applyEngine e x else applyWords e x) e
      let e := if items.any fun x => between x.1 0x70 0x72 then fwWrite e PWR_TB_SETC (reg e PWR_TB_SETC ||| 0x80000000)
        else e
      let e := fwWrite (fwWrite e MBX_IRQ_ROUTE 0) MBX_IRQ_EN 0x3F
      match bootVal e 0x104 with
      | none => .done e
      | some v =>
        let f := wordField v
        let e := fwWrite e RING_CTRL (setFields (reg e RING_CTRL)
          [(RING_CTRL_ENG_IDX, f 2 0), (RING_CTRL_TB_MASTER, f 10 8), (RING_CTRL_HB_MS, f 19 16),
           (RING_CTRL_FAULT_ACT, f 25 24)])
        setOrFail e .mc01 RING_CTRL 0

/-- The binding that a BIND record names. -/
def bindWord (v : Word) : Word :=
  let f := wordField v
  setFields 0 [(MBX_BIND_VALID 0, 1), (MBX_BIND_CORE 0, f 6 6), (MBX_BIND_IRQ 0, f 9 7), (MBX_BIND_AGENT 0, f 21 10)]

def stageLock (e : Engine) : StageEnd :=
  let dbg := ((bootVal e 0x107).map (·.toNat)).getD 0
  let e := if dbg = 0 then e else
    let e := fwWrite e GC_DBG_CTRL (setFields (reg e GC_DBG_CTRL)
      [(GC_DBG_CTRL_DBG_EN, dbg % 2), (GC_DBG_CTRL_TRACE_EN, dbg / 4 % 2)])
    if dbg / 2 % 2 = 1 then fwWrite e FLT_CTRL (setFields (reg e FLT_CTRL) [(FLT_CTRL_INJ_EN, 1)]) else e
  let e := (e.boot.recs.filter fun (x : BootRec) => x.1 == 0x106).foldl (fun e x =>
    fwWrite e (MBX_BIND (x.2.2.toNat % 64)) (bindWord x.2.2)) e
  setOrFail e .mc01 MBX_CTRL 0

def stageOpen (e : Engine) : StageEnd :=
  let items := (bootItems e).filter fun x => between x.1 0xB1 0xB2
  andThen (setOrFail (items.foldl applyWords e) .mc01 GC_ING_CTRL 0) fun e => .done (wr e PWR_CTRL_IN_SERVICE 1)

/-- R595: the Fill stage starts; it ends with its last line. -/
def stageFill (e : Engine) : StageEnd :=
  if e.sec.work = some .fill then .wait e
  else .wait (putRuns (mapSec e fun s => { s with work := some .fill }) (fillRuns e))

/-- The work of the current stage. -/
def stageRun (e : Engine) (times : List (Nat × Nat × Nat)) (resource : Bool) : StageEnd :=
  match e.boot.stage with
  | 2 => stageConfig e
  | 3 => stagePower e
  | 4 => stageSteep e
  | 5 => stageGeometry e times
  | 6 => stageRepair e resource
  | 7 => stageGrist e
  | 8 => stageCrypto e
  | 9 => stageChannels e
  | 10 => stageFill e
  | 11 => stageServices e
  | 12 => stageLock e
  | 13 => stageOpen e
  | _ => .wait e

/-- BRING_UP_STAGE: firmware goes on with the current stage, and takes the next one when it has completed; a failure
stops the boot with its record (R593, R596). -/
def bringUpStage (e : Engine) (times : List (Nat × Nat × Nat)) (resource : Bool) : Engine :=
  if clocked e && pairRuns e 0 && !e.boot.failed && !isSafe e then
    let k := e.boot.stage
    match stageRun e times resource with
    | .wait e => e
    | .done e =>
      let e := mapBoot e fun x => { x with stage := k + 1 }
      if k = 13 then bootRecord e stOk k 0 none else e
    | .fail e st ch r => bootRecord (mapBoot e fun x => { x with failed := true }) st k ch r
  else e

/-- ENTROPY_WAIT_EXPIRY: a CTX_CREATE, or the Crypto stage, has waited 10 ms (R320, R593). -/
def entropyExpiry (e : Engine) : Engine :=
  if !clocked e then e
  else match e.sec.waitKey, e.boot.waitAt with
    | (tk, ctx, t) :: rest, _ =>
      if ctx = 0 then
        if e.boot.stage = 8 ∧ !e.boot.failed then
          let e := tickTo e (t + msUnits 10)
          bootRecord (mapBoot (mapSec e fun s => { s with waitKey := rest }) fun x => { x with failed := true }) stBusy 8 0 none
        else e
      else finish (mapSec (tickTo e (t + msUnits 10)) fun s => { s with waitKey := rest }) tk stBusy 0 []
    | [], some t =>
      if e.boot.stage = 8 ∧ !e.boot.failed then
        bootRecord (mapBoot (tickTo e (t + msUnits 10)) fun x => { x with failed := true }) stBusy 8 0 none
      else e
    | [], none => e

end Sys2Proof.Machine
end

