-- ==== Sys2Proof/Machine/Events.lean ====
section
/-! DEFINITION. Events of several blocks: the directory's walks and its timeout (R353, R361), the channel
watchdogs (R188), the QoS timers (R146, R397, R409), telemetry epochs (R418, R419), core faults and record
delivery (R478, R512), and AgentReset (R46, R363, R490, R495, R509). -/

namespace Sys2Proof.Machine

/-! ## Walks (R353, R361) -/

/-- The syndrome of a walk's record: the agent and the lines poisoned (R364, R529). -/
def walkSyn (w : Walk) : Word :=
  synOf 0xFF (w.agent * 2 ^ 12 + if w.poisoned < 2 ^ 12 then w.poisoned else (Config.walkLines w.poisoned).toNat)

/-- R361, R364: a reclaim walk has visited the last set: its history record, which is not counted (R531), and
the AgentResets that waited for it. -/
def reclaimEnd (e : Engine) (w : Walk) : Engine :=
  let e := { e with dir := { e.dir with walks := e.dir.walks.erase w } }
  let e := raiseUncounted e 0x07 .contained (walkSyn w)
  match w.resets with
  | [] => e
  | p :: rest =>
    let e := agentResetEffect e p w.agent
    rest.foldl (fun e q => agentResetDir e q w.agent) e

/-- A walk as it stands now. -/
def walkNow (e : Engine) (unenroll : Bool) : Option Walk := e.dir.walks.find? fun (w : Walk) => w.unenroll == unenroll

/-- A walk replaced. -/
def putWalk (e : Engine) (w w' : Walk) : Engine :=
  { e with dir := { e.dir with walks := e.dir.walks.map fun (x : Walk) => if x = w then w' else x } }

/-- RECLAIM_WALK_STEP: one set of the first reclaim walk, in one DIR cycle. -/
def reclaimStep (e : Engine) : Engine :=
  match walkNow e false with
  | some w =>
    if clocked e && !isSafe e then
      let (e, ue) := wayMet (tick e 1) (lineOf w.set 0)
      if ue then e
      else
      let e := reclaimSet e w
      match walkNow e false with
      | some w =>
        let w' := { w with set := w.set + 1 }
        let e := putWalk e w w'
        if w'.set ≥ 2 ^ 18 then reclaimEnd e w' else e
      | none => e
    else e
  | none => e

/-- The ticket of an agent's unenroll walk. -/
def unenrollTicket (e : Engine) (a : Nat) : Option Ticket :=
  e.mci.tickets.find? fun (t : Ticket) => t.op == 0x0303 && t.body.headD 0 == word a

/-- UNENROLL_WALK_STEP: one set of the unenroll walk; it waits where an eviction entry or a line is not
free. After the last set an abort comes too late. -/
def unenrollStep (e : Engine) : Engine :=
  match walkNow e true with
  | some w =>
    if clocked e && !isSafe e && decide (w.set < 2 ^ 18) then
      let (e, ue) := wayMet (tick e 1) (lineOf w.set 0)
      let r := unenrollSet e w
      if ue then e
      else if r.2 then
        let e := putWalk r.1 w { w with set := w.set + 1 }
        match unenrollTicket e w.agent with
        | some t =>
          let e := setProgress e t.id (w.set + 1)
          if w.set + 1 = 2 ^ 18 then declare e t.id else e
        | none => e
      else r.1
    else e
  | none => e

/-- BI_TIMEOUT: the timer of the snoop with a BITAG reaches the limit that it was formed under (R361); the
dead agent's semaphores are abandoned (R495). -/
def biTimeout (e : Engine) (g : Nat) : Engine :=
  if clocked e && !isSafe e then
    match e.dir.snoops.find? fun (s : Snoop) => s.tag == some g with
    | some s =>
      let e := tickTo e (s.since + s.limit)
      semAbandonAll (declareDead e s.agent) 0 s.agent 3
    | none => e
  else e

/-! ## AgentReset (R46, R363, R490, R495, R509) -/

/-- The mailboxes and sessions of an agent that has been reset. -/
def resetBoxes (e : Engine) (a : Nat) : Engine :=
  (agentBoxes e a).foldl (fun e m => endSession (boxAgentReset e m) m) e

/-- AGENT_RESET: its class 0 credit is due when it takes effect in the directory. -/
def agentReset (e : Engine) (p a : Nat) : Engine :=
  arrive e p 0 fun e => semAbandonAll (resetBoxes (agentResetDir e p a) a) 0 a 1

/-! ## Watchdogs of a channel (R188) -/

/-- The most overdue physical rank. -/
def worstRank (e : Engine) (n : Nat) : Nat :=
  (List.range (pranks e)).foldl (fun m i => if debt e n i > debt e n m then i else m) 0

/-- The detail of the fault of MEn: the rank, with the mark of a saturated debt (R198). -/
def meBiteSyn (e : Engine) (n : Nat) : Word :=
  let i := worstRank e n
  synOf (CH_ARB_STATUS_WD_MAINT n).lo (if debt e n i < 15 then i else (Config.satMark i).toNat)

/-- TSn's sequencer is reset: the incomplete step is discarded and rerun from its start (R188, R28). Lines that it has
saved stay in the save buffer, and go back before the rerun. -/
def resetTrain (e : Engine) (n : Nat) : Engine :=
  let c := getChan e n
  let e := putChan e n { c with missed := c.missed.filter fun m => m.use.kind != 4 }
  mapTrain e n fun t => { t with units := 0, slice := none, probe := [], rerun := false, track := none }

/-- What a bite does to its block and which fault it raises. -/
def biteBlock (e : Engine) (n h : Nat) : Engine :=
  if h = 1 then
    let e := sqSet (dropGrant e n) (CH_ARB_STATUS n) [(CH_ARB_STATUS_WD_DATA n, 1)]
    raise e (0x20 + n) .fatal (synOf (CH_ARB_STATUS_WD_DATA n).lo 0)
  else if h = 2 then
    let e := sqSet (dropGrant e n) (CH_ARB_STATUS n) [(CH_ARB_STATUS_WD_MAINT n, 1)]
    judgeAll (raise e (0x30 + n) .contained (meBiteSyn e n)) n
  else
    let e := sqSet (dropGrant e n) (CH_ARB_STATUS n) [(CH_ARB_STATUS_WD_TRAIN n, 1)]
    let e := raise e (0x40 + n) .contained
      (synOf (CH_ARB_STATUS_WD_TRAIN n).lo (rd e (CH_TRN_STATE_STEP n) * 2 ^ 7))
    resetTrain e n

/-- R178, R188: the nominal time since which the holder has reached no preemption point. The scheduler's lie at the end of
every CTL cycle in which no command of its is partly on a CA bus. -/
def wdSince (e : Engine) (n : Nat) : Nat :=
  let w := (getChan e n).arb.wd
  if holder e n = 1 ∧ busCrossing e n e.clk.cyc = false then max w e.clk.nominal else w

/-- WATCHDOG_BITE of the block that holds a channel: it has held it for its limit without a command, a
preemption point or a release. -/
def watchdogBite (e : Engine) (n : Nat) : Engine :=
  let h := holder e n
  if clocked e && h != 0 then
    let e := tickTo e (wdSince e n + wdLimit e n)
    syncLines (biteBlock e n h) n
  else e

/-! ## QoS timers (R146, R397, R409) -/

/-- Time passes to the next TBS cycle, in which TB moves on (R440). -/
def nextTbs (e : Engine) : Engine := tick e (16 - e.clk.cyc % 16)

/-- PRI_RAMP_UPDATE: at TB's next tick every held or queued agent read takes its PRI. -/
def priRamp (e : Engine) : Engine := if clocked e then rampUpdate (nextTbs e) else e

/-- AGE_PROMOTE: the next CTL cycle finds entries of a channel that have reached AGE_CAP. -/
def agePromote (e : Engine) (n : Nat) : Engine := if clocked e then promoteScan (tick e 1) n else e

/-- SHED_RECOMPUTE: a recomputation that a change has asked for. -/
def shedStep (e : Engine) : Engine := if clocked e && e.qos.shedDue then shedRecompute e else e

/-! ## Telemetry (R418, R419) -/

/-- HOTLIST_UPDATE. -/
def hotStep (e : Engine) : Engine := if clocked e && on e TEL_CTRL_TEL_EN then hotTake e else e

/-- EPOCH_END: EPOCH_MS after its start. -/
def epochStep (e : Engine) : Engine :=
  if clocked e && on e TEL_CTRL_TEL_EN then
    epochEnd (tickTo e (e.tel.epochAt + msUnits (rd e TEL_CTRL_EPOCH_MS)))
  else e

/-- HOTLIST_SORT_DONE: firmware has sorted the snapshot. -/
def sortDone (e : Engine) : Engine :=
  if pairRuns e 0 && decide (e.tel.epoch > 0) && !on e TEL_HOT_STATE_SORTED then
    wr { e with tel := { e.tel with snap := hotSort e.tel.snap } } TEL_HOT_STATE_SORTED 1
  else e

/-! ## Clocks and cores (R445, R478, R512) -/

/-- KILN_CALIBRATION: AON ends a window of 16,384 ticks, `n` CTL cycles after the last event. -/
def kilnCal (e : Engine) (n : Nat) : Engine :=
  if e.pins.supply && !e.pins.porst then kilnWindow e n else e

/-- CORE_FAULT: a lockstep mismatch, or an uncorrectable error in local memory. -/
def coreFaultStep (e : Engine) (p : Nat) (mem : Bool) : Engine :=
  if coreLive e p then coreFault e p (if mem then MBX_STATUS_CORE_MEM_UE else MBX_STATUS_LOCKSTEP) else e

/-- The firmware of a mailbox runs: its pair, or the boot ROM (R587). -/
def boxServed (e : Engine) (m : Nat) : Bool :=
  if m < 64 then clocked e && (bootBox e m || pairRuns e (boxCore e m)) else pairRuns e 0

/-- RECORD_DELIVERY. -/
def deliverStep (e : Engine) (m : Nat) : Engine := if boxServed e m then deliverRec e m else e

/-! ## Commands in a CTL cycle -/

/-- ARB_CONTEST in the CTL cycle `wait` cycles on. -/
def arbCmd (e : Engine) (n wait : Nat) : Engine := if clocked e then arbContest (tick e wait) n else e

/-- SCHED_COMMAND in CA slot `pos` of the CTL cycle `wait` cycles on. -/
def schedCmd (d : Dram) (e : Engine) (n sc wait pos : Nat) : Engine :=
  if clocked e then
    let e := tick e wait
    schedCommand d e n sc (4 * e.clk.cyc + pos)
  else e

/-- PAGE_IDLE_CLOSE in CA slot `pos` of the CTL cycle `wait` cycles on. -/
def pageCmd (e : Engine) (n sc wait pos : Nat) : Engine :=
  if clocked e then
    let e := tick e wait
    pageIdle e n sc (4 * e.clk.cyc + pos)
  else e

/-! ## Words of register commands -/

/-- A word with the bits of a list set. -/
def setBits (bs : List Nat) (w : Word) : Word := bs.foldl (fun w b => w ||| BitVec.ofNat 32 (2 ^ b)) w

/-- A word with the bits of a list cleared. -/
def clrBits (bs : List Nat) (w : Word) : Word := bs.foldl (fun w b => w &&& ~~~ (BitVec.ofNat 32 (2 ^ b))) w

/-- A write of a SEQ to a status register (R8). -/
def seqWord (q : BitVec 8) : Word := BitVec.ofNat 32 (q.toNat * 2 ^ 24)

/-- CH_TRN_CMD with GO 1 and a MODE. -/
def goWord (mode : Nat) (w : Word) : Word := setWordField (setBits [31] w) 25 24 mode

/-- An operation of R494: its action bit, KIND and ID. -/
def semWord (b : Nat) (kind : Bool) (id : BitVec 12) : Word :=
  BitVec.ofNat 32 (2 ^ b + (if kind then 2 ^ 12 else 0) + id.toNat)

/-- A supply leaves its range in SLEEP or DEEP (R468). -/
def offFromSleep (e : Engine) : Bool := e.pins.supply && (pwrState e == 2 || pwrState e == 3)

/-! ## Idling -/

/-- Nothing is commanded: one CTL cycle passes while the root runs, one Kiln tick while it is stopped and the
AON domain is supplied. -/
def idleTime (e : Engine) : Engine :=
  if e.clk.root = .locked then tick e 1
  else if e.pins.supply && !e.pins.porst then kilnTicks e 1
  else e

/-- A step on an empty queue: only time passes, in which RING_OUT sends what waits for it (R122). -/
def State.idle (s : State) : State := { s with e := ringPump (idleTime s.fresh) }

/-! ## The DRAM of a channel that loses its power (R65, R474) -/

/-- The slots of channels whose PD_PHYn goes off are lost: nothing refreshes them (R474). -/
def Dram.dropOff (d : Dram) (old new : Word) : Dram :=
  (List.range 16).foldl (fun d n => if old.getLsbD (n + 16) && !new.getLsbD (n + 16) then d.loseChan n else d) d

/-- The machine after a register write that has taken the engine to `e`, with the DRAM of the channels that it
powered off. -/
def State.afterWrite (s : State) (e : Engine) : State :=
  let t := s.after e
  { t with dram := t.dram.dropOff (reg s.e PWR_CH_PWR) (reg t.e PWR_CH_PWR) }

/-- A register write. -/
def State.runWrite (s : State) (f : Dram → Engine → Engine) : State := s.afterWrite (f s.dram s.fresh)

end Sys2Proof.Machine
end

