-- ==== Sys2Proof/Machine/ExecBlocks.lean ====
section
/-! DEFINITION. The meanings of the commands of walks, checks, sweeps and calibrations. -/

namespace Sys2Proof.Machine

/-- RECLAIM_WALK_STEP (R361): the reclaim walk visits a set. -/
def execReclaimWalkStep (s : State) : Host.Outcome State Fault Refusal :=
  .next (s.run fun _ e => reclaimStep e)

/-- UNENROLL_WALK_STEP (R353): the unenroll walk visits a set. -/
def execUnenrollWalkStep (s : State) : Host.Outcome State Fault Refusal :=
  .next (s.run fun _ e => unenrollStep e)

/-- BI_TIMEOUT (R361): the timer of a snoop reaches its limit. -/
def execBiTimeout (bitag : BitVec 12) (s : State) : Host.Outcome State Fault Refusal :=
  .next (s.run fun _ e => biTimeout e bitag.toNat)

/-- DIR_INIT_COMPLETE (R349): the initialisation ends. -/
def execDirInitComplete (s : State) : Host.Outcome State Fault Refusal :=
  .next (s.run fun _ e => dirInitDone e)

/-- GRIST_CHECK_COMPLETE (R103): the check ends. -/
def execGristCheckComplete (s : State) : Host.Outcome State Fault Refusal :=
  .next (s.run fun _ e => gristDone e)

/-- WRW_CAPTURE (R574): the capture of a port's bank of the wide-read window. -/
def execWrwCapture (bank : RegPort) (s : State) : Host.Outcome State Fault Refusal :=
  .next (s.run fun _ e => wrwDone e (wrwIx bank))

/-- PARITY_SWEEP (R571): the sweep checks every register. -/
def execParitySweep (s : State) : Host.Outcome State Fault Refusal :=
  .next (s.run fun _ e => paritySweep e)

/-- DRBG_RESEED (R320): the DRBG reseeds. -/
def execDrbgReseed (s : State) : Host.Outcome State Fault Refusal :=
  .next (s.run fun _ e => drbgReseedCmd e)

/-- KILN_CALIBRATION (R445): a window of 16,384 ticks ends, `elapsed` CTL cycles on. -/
def execKilnCalibration (elapsed : Nat) (s : State) : Host.Outcome State Fault Refusal :=
  .next (s.run fun _ e => kilnCal e elapsed)

end Sys2Proof.Machine
end

