-- ==== Sys2Proof/Machine/ExecChannel.lean ====
section
/-! DEFINITION. The meanings of the commands of the channel back ends: arbiter, scheduler, MEn, TSn. -/

namespace Sys2Proof.Machine

/-- ARB_CONTEST (R172): the contest of the CTL cycle `wait` cycles on. -/
def execArbContest (ch : Fin 16) (wait : Nat) (s : State) : Host.Outcome State Fault Refusal :=
  .next (s.run fun _ e => arbCmd e ch wait)

/-- SCHED_COMMAND (R147): CA slot `pos` of the CTL cycle `wait` cycles on. -/
def execSchedCommand (ch : Fin 16) (sc : Fin 2) (wait : Nat) (pos : Fin 4)
    (s : State) : Host.Outcome State Fault Refusal :=
  .next (s.run fun d e => schedCmd d e ch sc wait pos)

/-- DEFERRED_COMMAND (R200): the deferred DRFM of a physical rank. -/
def execDeferredCommand (ch : Fin 16) (prank : Fin 4) (s : State) : Host.Outcome State Fault Refusal :=
  .next (s.run fun _ e => deferredCmd e ch prank)

/-- READ_BURST_CAPTURE (R224): the next burst of a subchannel; `err` is what the devices and lanes turned over in it. -/
def execReadBurstCapture (ch : Fin 16) (sc : Fin 2) (preamble : Bool) (err : BitVec 640)
    (s : State) : Host.Outcome State Fault Refusal :=
  .next (s.run fun _ e => burstCapture e ch sc preamble err)

/-- OPPORTUNISTIC_DRAIN (R150): a subchannel has had no queued read for IDLE_DRAIN. -/
def execOpportunisticDrain (ch : Fin 16) (sc : Fin 2) (s : State) : Host.Outcome State Fault Refusal :=
  .next (s.run fun _ e => oppDrain e ch sc)

/-- PAGE_IDLE_CLOSE (R144): CA slot `pos` of the CTL cycle `wait` cycles on. -/
def execPageIdleClose (ch : Fin 16) (sc : Fin 2) (wait : Nat) (pos : Fin 4)
    (s : State) : Host.Outcome State Fault Refusal :=
  .next (s.run fun _ e => pageCmd e ch sc wait pos)

/-- REFRESH_TICK (R197): the interval tick of a physical rank. -/
def execRefreshTick (ch : Fin 16) (prank : Fin 4) (s : State) : Host.Outcome State Fault Refusal :=
  .next (s.run fun _ e => refTick e ch prank)

/-- OPPORTUNISTIC_REFRESH (R198): a physical rank has been unaddressed for IDLE_REF. -/
def execOpportunisticRefresh (ch : Fin 16) (prank : Fin 4) (s : State) : Host.Outcome State Fault Refusal :=
  .next (s.run fun _ e => oppRefresh e ch prank)

/-- REFRESH_OPERATION (R198): the refresh operation of a physical rank. -/
def execRefreshOperation (ch : Fin 16) (prank : Fin 4) (s : State) : Host.Outcome State Fault Refusal :=
  .next (s.run fun _ e => refreshOp e ch prank)

/-- MITIGATION_OPERATION (R207): the mitigation of a bank. -/
def execMitigationOperation (ch : Fin 16) (sc : Fin 2) (rank : Fin 16) (bg : Fin 8) (bank : Fin 4)
    (s : State) : Host.Outcome State Fault Refusal :=
  .next (s.run fun _ e => mitigationOp e ch ⟨ch, sc, rank, bg, bank, 0, 0⟩)

/-- RFM_OPERATION (R213): the RFMsb of a bank index. -/
def execRfmOperation (ch : Fin 16) (sc : Fin 2) (rank : Fin 16) (bank : Fin 4)
    (s : State) : Host.Outcome State Fault Refusal :=
  .next (s.run fun _ e => rfmOp e ch sc rank bank)

/-- RG_EPOCH_END (R208): a physical rank has 16,384 credits. -/
def execRgEpochEnd (ch : Fin 16) (prank : Fin 4) (s : State) : Host.Outcome State Fault Refusal :=
  .next (s.run fun _ e => rgEpochEnd e ch prank)

/-- SCRUB_OPERATION (R262): a scrub operation; `back` is what its reads of four slots find. -/
def execScrubOperation (ch : Fin 16) (back : ReadBack 2560) (s : State) : Host.Outcome State Fault Refusal :=
  .next (s.run fun d e => scrubOp d e ch back.err back.miss)

/-- UE_REREAD (R265): the second read of an uncorrectable slot. -/
def execUeReread (ch : Fin 16) (back : ReadBack 640) (s : State) : Host.Outcome State Fault Refusal :=
  .next (s.run fun d e => ueReread d e ch back.err back.miss)

/-- ECS_POLL (R269): the ECS counts, 16 bits by rank, subchannel and device. -/
def execEcsPoll (ch : Fin 16) (counts : BitVec 5120) (s : State) : Host.Outcome State Fault Refusal :=
  .next (s.run fun _ e => ecsPoll e ch counts)

/-- ECC_WINDOW_RESTART (R260): WIN_MS have passed. -/
def execEccWindowRestart (ch : Fin 16) (s : State) : Host.Outcome State Fault Refusal :=
  .next (s.run fun _ e => eccWindow e ch)

/-- TEMP_POLL (R201): hub temperatures by slot and MR4 by physical rank. -/
def execTempPoll (ch : Fin 16) (temps : BitVec 16) (mr4 : BitVec 8)
    (s : State) : Host.Outcome State Fault Refusal :=
  .next (s.run fun _ e => tempPoll e ch temps.toNat mr4.toNat)

/-- MNT_TIME_INTERVAL (R216): the end of a 1 ms interval. -/
def execMntTimeInterval (ch : Fin 16) (s : State) : Host.Outcome State Fault Refusal :=
  .next (s.run fun _ e => mntInterval e ch)

/-- POWER_DOWN_ENTRY (R464): a physical rank has been unaddressed for PDE_IDLE. -/
def execPowerDownEntry (ch : Fin 16) (prank : Fin 4) (s : State) : Host.Outcome State Fault Refusal :=
  .next (s.run fun _ e => powerDown e ch prank)

/-- TRAINING_UNIT (R231): a training unit and what it measures. -/
def execTrainingUnit (ch : Fin 16) (sweeps : List Sweep) (vals : List LaneVal) (fail : Option LaneFail)
    (counts : BitVec 800) (s : State) : Host.Outcome State Fault Refusal :=
  .next (s.run fun d e => trainingUnit d e ch sweeps vals fail counts)

/-- SLICE_GAP_EXPIRY (R231): GAP has passed. -/
def execSliceGapExpiry (ch : Fin 16) (s : State) : Host.Outcome State Fault Refusal :=
  .next (s.run fun _ e => sliceGap e ch)

/-- DRIFT_MEASURE (R234): the oscillator counts, 10 bits by physical rank, subchannel and device. -/
def execDriftMeasure (ch : Fin 16) (counts : BitVec 800) (s : State) : Host.Outcome State Fault Refusal :=
  .next (s.run fun _ e => driftMeasure e ch counts)

/-- RETRAIN_PERIOD (R233): PERIOD has passed. -/
def execRetrainPeriod (ch : Fin 16) (s : State) : Host.Outcome State Fault Refusal :=
  .next (s.run fun _ e => retrainPeriod e ch)

/-- STEEP_STEP_COMPLETE (R225): an attempt of a Steep step ends; `spd` is what step 0 read and `lat` the alert latency of step 3. -/
def execSteepStepComplete (ch : Fin 16) (sweeps : List Sweep) (vals : List LaneVal)
    (fail : Option LaneFail) (counts : BitVec 800) (spd : Word) (lat : BitVec 8) (s : State) : Host.Outcome State Fault Refusal :=
  .next (s.run fun d e => steepStep d e ch sweeps vals fail counts spd lat.toNat)

/-- STEEP_TIMEOUT (R227): 1 s has passed. -/
def execSteepTimeout (ch : Fin 16) (s : State) : Host.Outcome State Fault Refusal :=
  .next (s.run fun _ e => steepTimeout e ch)

/-- OFFLINE_TIMEOUT (R236): 10 ms have passed. -/
def execOfflineTimeout (ch : Fin 16) (s : State) : Host.Outcome State Fault Refusal :=
  .next (s.run fun _ e => offlineTimeout e ch)

/-- WATCHDOG_BITE (R188): the watchdog of the holder reaches its limit. -/
def execWatchdogBite (ch : Fin 16) (s : State) : Host.Outcome State Fault Refusal :=
  .next (s.run fun _ e => watchdogBite e ch)

/-- SPARE_COPY_LINE (R112): the next line of the sparing copy. -/
def execSpareCopyLine (back : ReadBack 640) (s : State) : Host.Outcome State Fault Refusal :=
  .next (s.runWrite fun d e => spareCopy d e back.err back.miss)

/-- PPR_REPAIR_STEP (R272): the next phase of a repair. -/
def execPprRepairStep (ch : Fin 16) (back : ReadBack 2560) (s : State) : Host.Outcome State Fault Refusal :=
  .next (s.run fun d e => pprStep d e ch back.err back.miss)

end Sys2Proof.Machine
end

