-- ==== Sys2Proof/Machine/ExecManage.lean ====
section
/-! DEFINITION. The meanings of the commands of telemetry epochs, cores, power and firmware. -/

namespace Sys2Proof.Machine

/-- EPOCH_END (R419): EPOCH_MS has passed. -/
def execEpochEnd (s : State) : Host.Outcome State Fault Refusal :=
  .next (s.run fun _ e => epochStep e)

/-- HOTLIST_SORT_DONE (R419): firmware has sorted the snapshot. -/
def execHotlistSortDone (s : State) : Host.Outcome State Fault Refusal :=
  .next (s.run fun _ e => sortDone e)

/-- CLAIM_EXPIRY (R487): CLAIM_TO has passed for a claimed mailbox. -/
def execClaimExpiry (m : Fin 64) (s : State) : Host.Outcome State Fault Refusal :=
  .next (s.run fun _ e => claimExpiry e m)

/-- CORE_WATCHDOG_EXPIRY (R478): CORE_WD has passed. -/
def execCoreWatchdogExpiry (pair : Fin 2) (s : State) : Host.Outcome State Fault Refusal :=
  .next (s.run fun _ e => coreWatchdog e pair)

/-- CORE_FAULT (R478): `mem` for local memory, else a lockstep mismatch. -/
def execCoreFault (pair : Fin 2) (mem : Bool) (s : State) : Host.Outcome State Fault Refusal :=
  .next (s.run fun _ e => coreFaultStep e pair mem)

/-- CORE_RESTART_COMPLETE (R480): `ok` when the repeated check of the image passes. -/
def execCoreRestartComplete (pair : Fin 2) (ok : Bool) (s : State) : Host.Outcome State Fault Refusal :=
  .next (s.run fun _ e => coreRestart e pair ok)

/-- HANDSHAKE_ANSWER (R459): a block of R460 answers; `us` is the time it asks for when it delays. -/
def execHandshakeAnswer (block : Fin 32) (us : Nat) (s : State) : Host.Outcome State Fault Refusal :=
  .next (s.run fun _ e => handshakeAnswer e block us)

/-- HANDSHAKE_REASK (R459): a block's delay has passed. -/
def execHandshakeReask (block : Fin 32) (s : State) : Host.Outcome State Fault Refusal :=
  .next (s.run fun _ e => handshakeReask e block)

/-- HANDSHAKE_DELAY_LIMIT (R459): a block has delayed for 10 ms. -/
def execHandshakeDelayLimit (block : Fin 32) (s : State) : Host.Outcome State Fault Refusal :=
  .next (s.run fun _ e => handshakeLimit e block)

/-- YIELD_TIMEOUT (R90): 100 µs without a yield. -/
def execYieldTimeout (port : Fin 128) (s : State) : Host.Outcome State Fault Refusal :=
  .next (s.run fun _ e => yieldTimeout e port)

/-- POWER_STEP (R460): the step's actions. -/
def execPowerStep (s : State) : Host.Outcome State Fault Refusal :=
  .next (s.runLosing (fun t => pwrStep s.fresh == 8 && pwrStep t == 0) fun d e => powerStep d e)

/-- WAKE_STAGE (R465): a stage's ready signal, `ticks` Kiln ticks on. -/
def execWakeStage (ticks : Nat) (s : State) : Host.Outcome State Fault Refusal :=
  .next (s.run fun _ e => wakeStage e ticks)

/-- DUMP_COMPLETE (R548): `us` µs after SAFE, with at most `k` sections. -/
def execDumpComplete (us : Fin 20001) (k : Fin 33) (s : State) : Host.Outcome State Fault Refusal :=
  .next (s.run fun d e => dumpComplete d e us k)

/-- QUIET_PERIOD_EXPIRY (R551): QUIET_MS has passed. -/
def execQuietPeriodExpiry (s : State) : Host.Outcome State Fault Refusal :=
  .next (s.run fun d e => quietExpiry d e)

/-- ROLL_CHANNEL (R520): firmware goes on with a roll, or with the drain of an offline RETRAIN. -/
def execRollChannel (s : State) : Host.Outcome State Fault Refusal :=
  .next (s.run fun _ e => rollStep e)

/-- ROLL_ROLLBACK (R522): firmware goes on with a rollback. -/
def execRollRollback (s : State) : Host.Outcome State Fault Refusal :=
  .next (s.run fun _ e => rollRollback e)

/-- QUIESCE_STEP (R523): firmware goes on with a quiesced commit. -/
def execQuiesceStep (s : State) : Host.Outcome State Fault Refusal :=
  .next (s.runWrite fun _ e => quiesceStep e)

/-- RECORD_DELIVERY (R512): the next record of a mailbox, or from 64 on of a ring source. -/
def execRecordDelivery (box : Fin 72) (s : State) : Host.Outcome State Fault Refusal :=
  .next (s.run fun _ e => deliverStep e box)

/-- ZEROIZE_RECOVERY (R312): firmware recovers from a zeroization. -/
def execZeroizeRecovery (s : State) : Host.Outcome State Fault Refusal :=
  .next (s.run fun _ e => zeroizeRecovery e)

/-- BRING_UP_STAGE (R593): firmware goes on with the boot: the minimum times of the modules in ps, by channel and timing field, and whether a hard repair finds a resource. -/
def execBringUpStage (times : List (Fin 16 × Fin 34 × Nat)) (resource : Bool)
    (s : State) : Host.Outcome State Fault Refusal :=
  .next (s.runWrite fun _ e => bringUpStage e (times.map fun x => (x.1.val, x.2.1.val, x.2.2)) resource)

/-- BOOT_FW_STAGE (R588): the boot ROM takes a request. -/
def execBootFwStage (s : State) : Host.Outcome State Fault Refusal :=
  .next (s.run fun _ e => bootFwStage e)

end Sys2Proof.Machine
end

