-- ==== Sys2Proof/Machine/ExecMulum.lean ====
section
/-! DEFINITION. The meanings of the commands of the Mulum Command Interface. -/

namespace Sys2Proof.Machine

/-- HELLO (R507): firmware takes the request of a mailbox. -/
def execHello (m : Fin 64) (s : State) : Host.Outcome State Fault Refusal :=
  .next (s.run fun _ e => takeCmd e m (fun op => op == 0 || !(opcodes.contains op)) fun e c => mciHello e c)

/-- BYE (R509): firmware takes the request of a mailbox. -/
def execBye (m : Fin 64) (s : State) : Host.Outcome State Fault Refusal :=
  .next (s.run fun _ e => takeCmd e m (· == 0x0001) fun e c => mciBye e c)

/-- ABORT (R513): firmware takes the request of a mailbox. -/
def execAbort (m : Fin 64) (s : State) : Host.Outcome State Fault Refusal :=
  .next (s.run fun _ e => takeCmd e m (· == 0x0002) fun e c => mciAbort e c)

/-- CONFIG_STAGE (R517): firmware takes the request of a mailbox. -/
def execConfigStage (m : Fin 64) (s : State) : Host.Outcome State Fault Refusal :=
  .next (s.run fun _ e => takeCmd e m (· == 0x0100) fun e c => mciStage e c)

/-- CONFIG_COMMIT (R519): firmware takes the request of a mailbox. -/
def execConfigCommit (m : Fin 64) (s : State) : Host.Outcome State Fault Refusal :=
  .next (s.run fun _ e => takeCmd e m (· == 0x0101) fun e c => mciCommit e c)

/-- CONFIG_READ (R516): firmware takes the request of a mailbox. -/
def execConfigRead (m : Fin 64) (s : State) : Host.Outcome State Fault Refusal :=
  .next (s.run fun _ e => takeCmd e m (· == 0x0102) fun e c => mciRead e c)

/-- RETRAIN (R516): firmware takes the request of a mailbox. -/
def execRetrain (m : Fin 64) (s : State) : Host.Outcome State Fault Refusal :=
  .next (s.run fun _ e => takeCmd e m (· == 0x0200) fun e c => mciRetrain e c)

/-- SPARE (R276): firmware takes the request of a mailbox. -/
def execSpare (m : Fin 64) (s : State) : Host.Outcome State Fault Refusal :=
  .next (s.run fun _ e => takeCmd e m (· == 0x0201) fun e c => mciSpare e c)

/-- PPR (R271): firmware takes the request of a mailbox; `resource` is what MRR of the bank group shows, and `fast` whether the devices repair within the time of a soft repair. -/
def execPpr (m : Fin 64) (resource : Bool) (fast : Bool) (s : State) : Host.Outcome State Fault Refusal :=
  .next (s.run fun _ e => takeCmd e m (· == 0x0202) fun e c => mciPpr e c resource fast)

/-- CTX_CREATE (R321): firmware takes the request of a mailbox. -/
def execCtxCreate (m : Fin 64) (s : State) : Host.Outcome State Fault Refusal :=
  .next (s.run fun _ e => takeCmd e m (· == 0x0300) fun e c => mciCtxCreate e c)

/-- CTX_DESTROY (R322): firmware takes the request of a mailbox. -/
def execCtxDestroy (m : Fin 64) (s : State) : Host.Outcome State Fault Refusal :=
  .next (s.run fun _ e => takeCmd e m (· == 0x0301) fun e c => mciCtxDestroy e c)

/-- PROT_SET (R315): firmware takes the request of a mailbox. -/
def execProtSet (m : Fin 64) (s : State) : Host.Outcome State Fault Refusal :=
  .next (s.run fun _ e => takeCmd e m (· == 0x0302) fun e c => mciProtSet e c)

/-- ENROLL_AGENT (R350): firmware takes the request of a mailbox. -/
def execEnrollAgent (m : Fin 64) (s : State) : Host.Outcome State Fault Refusal :=
  .next (s.run fun _ e => takeCmd e m (· == 0x0303) fun e c => mciEnroll e c)

/-- PWR_REQ (R455): firmware takes the request of a mailbox. -/
def execPwrReq (m : Fin 64) (s : State) : Host.Outcome State Fault Refusal :=
  .next (s.run fun _ e => takeCmd e m (· == 0x0400) fun e c => mciPower e c)

/-- HOTLIST_READ (R422): firmware takes the request of a mailbox. -/
def execHotlistRead (m : Fin 64) (s : State) : Host.Outcome State Fault Refusal :=
  .next (s.run fun _ e => takeCmd e m (· == 0x0500) fun e c => mciHotlist e c)

/-- DUMP_READ (R550): firmware takes the request of a mailbox. -/
def execDumpRead (m : Fin 64) (s : State) : Host.Outcome State Fault Refusal :=
  .next (s.run fun _ e => takeCmd e m (· == 0x0600) fun e c => mciDumpRead e c)

/-- FAULT_CLEAR (R554): firmware takes the request of a mailbox. -/
def execFaultClear (m : Fin 64) (s : State) : Host.Outcome State Fault Refusal :=
  .next (s.run fun d e => takeCmd e m (· == 0x0601) fun e c => mciFaultClear d e c)

/-- SCRUB (R267): firmware takes the request of a mailbox. -/
def execScrub (m : Fin 64) (s : State) : Host.Outcome State Fault Refusal :=
  .next (s.run fun _ e => takeCmd e m (· == 0x0700) fun e c => mciScrub e c)

/-- SANITIZE (R323): firmware takes the request of a mailbox. -/
def execSanitize (m : Fin 64) (s : State) : Host.Outcome State Fault Refusal :=
  .next (s.run fun _ e => takeCmd e m (· == 0x0701) fun e c => mciSanitize e c)

/-- FW_STAGE (R524): firmware takes the request of a mailbox. -/
def execFwStage (m : Fin 64) (s : State) : Host.Outcome State Fault Refusal :=
  .next (s.run fun _ e => takeCmd e m (· == 0x0800) fun e c => mciFwStage e c)

/-- FW_ACTIVATE (R525): firmware takes the request of a mailbox. -/
def execFwActivate (m : Fin 64) (s : State) : Host.Outcome State Fault Refusal :=
  .next (s.run fun _ e => takeCmd e m (· == 0x0801) fun e c => mciFwActivate e c)

/-- RING_MCI_MESSAGE (R510): firmware takes the first complete message of another engine. -/
def execRingMciMessage (src : Fin 8) (s : State) : Host.Outcome State Fault Refusal :=
  .next (s.run fun d e => ringMci d e src)

end Sys2Proof.Machine
end

