-- ==== Sys2Proof/Machine/ExecPins.lean ====
section
/-! DEFINITION. The meanings of the commands of pins, clocks, alerts and the sideband. -/

namespace Sys2Proof.Machine

/-- PORST_ASSERT (R55): PORST_N falls. -/
def execPorstAssert (s : State) : Host.Outcome State Fault Refusal :=
  .next (s.runLosing (fun _ => true) fun _ e => porstAssert e)

/-- PORST_RELEASE (R439): PORST_N rises. -/
def execPorstRelease (s : State) : Host.Outcome State Fault Refusal :=
  .next (s.run fun _ e => porstRelease e)

/-- SRST_ASSERT (R55): SRST_N falls. -/
def execSrstAssert (s : State) : Host.Outcome State Fault Refusal :=
  .next (s.runLosing (fun _ => true) fun _ e => srstAssert e)

/-- SRST_RELEASE (R439): SRST_N rises. -/
def execSrstRelease (s : State) : Host.Outcome State Fault Refusal :=
  .next (s.run fun _ e => srstRelease e)

/-- ENG_PRESENT_LOW (R37): ENG_PRESENT falls. -/
def execEngPresentLow (s : State) : Host.Outcome State Fault Refusal :=
  .next (s.runLosing (fun _ => true) fun _ e => engPresentLow e)

/-- CLOCK_LOSS (R436): a clock is lost; `ref` when the REFCLK monitor reports it, else the lock detector. -/
def execClockLoss (ref : Bool) (s : State) : Host.Outcome State Fault Refusal :=
  .next (s.runLosing (fun _ => canLoseClock s.fresh ref) fun _ e => clockLoss e ref)

/-- PLL_LOCK (R439): the root PLL locks. -/
def execPllLock (s : State) : Host.Outcome State Fault Refusal :=
  .next (s.run fun _ e => pllLock e)

/-- SUPPLY_OUT_OF_RANGE (R468): a supply monitor leaves its range. -/
def execSupplyOutOfRange (s : State) : Host.Outcome State Fault Refusal :=
  .next (s.runLosing (fun _ => offFromSleep s.fresh) fun _ e => supplyOut e)

/-- WAKE_N (R52): WAKE_N has stood asserted for a number of ns, or is released where there is none. -/
def execWakeN (held : Option Nat) (s : State) : Host.Outcome State Fault Refusal :=
  .next (s.run fun _ e => wakeN e held)

/-- DOORBELL (R48): a pulse on MB_DB_IN[m]. -/
def execDoorbell (m : Fin 64) (s : State) : Host.Outcome State Fault Refusal :=
  .next (s.run fun _ e => doorbell e m)

/-- ENTROPY_SAMPLE (R53): a raw sample crosses the entropy port. -/
def execEntropySample (x : BitVec 16) (s : State) : Host.Outcome State Fault Refusal :=
  .next (s.run fun _ e => entropySample e x)

/-- ALERT_ASSERT (R240): CHn_ALERT_N of a module slot is sampled asserted. -/
def execAlertAssert (ch : Fin 16) (slot : Fin 2) (s : State) : Host.Outcome State Fault Refusal :=
  .next (s.run fun _ e => alertAssert e ch slot)

/-- ALERT_CLASSIFY (R214): the assertion has lasted `width` CTL cycles, or longer. -/
def execAlertClassify (ch : Fin 16) (slot : Fin 2) (width : Nat)
    (s : State) : Host.Outcome State Fault Refusal :=
  .next (s.run fun _ e => alertClassify e ch slot width)

/-- CA_PARITY_RECOVERY (R241): the recovery of a module slot. -/
def execCaParityRecovery (ch : Fin 16) (slot : Fin 2) (s : State) : Host.Outcome State Fault Refusal :=
  .next (s.run fun _ e => parityRecovery e ch slot)

/-- ALERT_BACKOFF_RFM (R214): the RFM commands of a back-off. -/
def execAlertBackoffRfm (ch : Fin 16) (slot : Fin 2) (s : State) : Host.Outcome State Fault Refusal :=
  .next (s.run fun _ e => alertBackoff e ch slot)

/-- TEMP_IBI (R201): hub `hub` of a bus reports a temperature in-band. -/
def execTempIbi (bus : Fin 8) (hub : Fin 4) (temp : BitVec 8)
    (s : State) : Host.Outcome State Fault Refusal :=
  .next (s.run fun _ e => tempIbiBus e bus hub temp.toNat)

/-- I3C_TRANSACTION (R245): one sideband transaction: whether the hub acknowledges, whether an RCD log contradicts the alert (R214), and the bytes read. -/
def execI3cTransaction (bus : Fin 8) (ack : Bool) (bad : Bool) (data : Word)
    (s : State) : Host.Outcome State Fault Refusal :=
  .next (s.run fun _ e => i3cTransaction e bus ack bad data)

end Sys2Proof.Machine
end

