-- ==== Sys2Proof/Machine/ExecPorts.lean ====
section
/-! DEFINITION. The meanings of the commands of the request ports, the directory and the path to the channels. -/

namespace Sys2Proof.Machine

/-- PACKET_REWIND (R79): a packet ends with Pn_IN_BAD high. -/
def execPacketRewind (port : Fin 128) (flits : List Flit) (s : State) : Host.Outcome State Fault Refusal :=
  .next (s.run fun _ e => packetRewind e port flits)

/-- FRAMING_ERROR (R70): a packet breaks the framing. -/
def execFramingError (port : Fin 128) (flits : List Flit) (s : State) : Host.Outcome State Fault Refusal :=
  .next (s.run fun _ e => framingError e port flits)

/-- MEM_RD (R375): a committed class 3 packet; `way` is what the directory ways read as. -/
def execMemRd (h : Hdr) (reqSt : Fin 4) (way : WayErr) (s : State) : Host.Outcome State Fault Refusal :=
  .next (s.run fun _ e => arrive e h.port 3 fun e => takeReq e (reqOf .memRd h reqSt false 0 0 0) way)

/-- MEM_RD_DATA (R375): a committed class 3 packet; `way` is what the directory ways read as. -/
def execMemRdData (h : Hdr) (reqSt : Fin 4) (way : WayErr) (s : State) : Host.Outcome State Fault Refusal :=
  .next (s.run fun _ e => arrive e h.port 3 fun e => takeReq e (reqOf .memRdData h reqSt false 0 0 0) way)

/-- MEM_INV (R375): a committed class 3 packet; `way` is what the directory ways read as. -/
def execMemInv (h : Hdr) (reqSt : Fin 4) (way : WayErr) (s : State) : Host.Outcome State Fault Refusal :=
  .next (s.run fun _ e => arrive e h.port 3 fun e => takeReq e (reqOf .memInv h reqSt false 0 0 0) way)

/-- MEM_INV_NT (R40): a committed class 3 packet; `way` is what the directory ways read as. -/
def execMemInvNt (h : Hdr) (reqSt : Fin 4) (way : WayErr) (s : State) : Host.Outcome State Fault Refusal :=
  .next (s.run fun _ e => arrive e h.port 3 fun e => takeReq e (reqOf .memInvNT h reqSt false 0 0 0) way)

/-- MEM_CLN_EVCT (R375): a committed class 3 packet; `way` is what the directory ways read as. -/
def execMemClnEvct (h : Hdr) (reqSt : Fin 4) (way : WayErr) (s : State) : Host.Outcome State Fault Refusal :=
  .next (s.run fun _ e => arrive e h.port 3 fun e => takeReq e (reqOf .memClnEvct h reqSt false 0 0 0) way)

/-- MEM_WR (R21): a committed full-line write. -/
def execMemWr (h : Hdr) (poison : Bool) (data : Line) (way : WayErr)
    (s : State) : Host.Outcome State Fault Refusal :=
  .next (s.run fun _ e => arrive e h.port 0 fun e => takeReq e (reqOf .memWr h 0 poison (BitVec.allOnes 64) 0 data) way)

/-- MEM_WR_PTL (R80): a committed partial write. -/
def execMemWrPtl (h : Hdr) (poison : Bool) (mask : BitVec 64) (data : Line) (way : WayErr)
    (s : State) : Host.Outcome State Fault Refusal :=
  .next (s.run fun _ e => arrive e h.port 0 fun e => takeReq e (reqOf .memWrPtl h 0 poison mask 0 data) way)

/-- PLACE_WR (R381): a committed placement write. -/
def execPlaceWr (h : Hdr) (poison : Bool) (target : Fin 4096) (data : Line) (way : WayErr)
    (s : State) : Host.Outcome State Fault Refusal :=
  .next (s.run fun _ e => arrive e h.port 0 fun e => takeReq e (reqOf .placeWr h 0 poison (BitVec.allOnes 64) target data) way)

/-- AGENT_RESET (R363): a committed agent reset notification. -/
def execAgentReset (port : Fin 128) (agent : Fin 4096) (s : State) : Host.Outcome State Fault Refusal :=
  .next (s.run fun _ e => agentReset e port agent)

/-- CREDIT_YIELD (R90): a CreditYield with its three counts. -/
def execCreditYield (port : Fin 128) (y0 : BitVec 5) (y1 : BitVec 5) (y3 : BitVec 5)
    (s : State) : Host.Outcome State Fault Refusal :=
  .next (s.run fun _ e => creditYield e port y0.toNat y1.toNat y3.toNat)

/-- BI_RSP_I (R384): a committed class 1 packet. -/
def execBiRspI (port : Fin 128) (agent : Fin 4096) (bitag : BitVec 12)
    (s : State) : Host.Outcome State Fault Refusal :=
  .next (s.run fun _ e => takeClass1 e .rspI port agent bitag.toNat)

/-- BI_RSP_S (R384): a committed class 1 packet. -/
def execBiRspS (port : Fin 128) (agent : Fin 4096) (bitag : BitVec 12)
    (s : State) : Host.Outcome State Fault Refusal :=
  .next (s.run fun _ e => takeClass1 e .rspS port agent bitag.toNat)

/-- BI_CONFLICT (R385): a committed class 1 packet. -/
def execBiConflict (port : Fin 128) (agent : Fin 4096) (bitag : BitVec 12)
    (s : State) : Host.Outcome State Fault Refusal :=
  .next (s.run fun _ e => takeClass1 e .conflict port agent bitag.toNat)

/-- BI_RSP_E (R40): a committed class 1 packet. -/
def execBiRspE (port : Fin 128) (agent : Fin 4096) (bitag : BitVec 12)
    (s : State) : Host.Outcome State Fault Refusal :=
  .next (s.run fun _ e => takeClass1 e .rspE port agent bitag.toNat)

/-- BI_RSP_I_BLK (R40): a committed class 1 packet. -/
def execBiRspIBlk (port : Fin 128) (agent : Fin 4096) (bitag : BitVec 12)
    (s : State) : Host.Outcome State Fault Refusal :=
  .next (s.run fun _ e => takeClass1 e .rspIBlk port agent bitag.toNat)

/-- BI_RSP_S_BLK (R40): a committed class 1 packet. -/
def execBiRspSBlk (port : Fin 128) (agent : Fin 4096) (bitag : BitVec 12)
    (s : State) : Host.Outcome State Fault Refusal :=
  .next (s.run fun _ e => takeClass1 e .rspSBlk port agent bitag.toNat)

/-- BI_RSP_E_BLK (R40): a committed class 1 packet. -/
def execBiRspEBlk (port : Fin 128) (agent : Fin 4096) (bitag : BitVec 12)
    (s : State) : Host.Outcome State Fault Refusal :=
  .next (s.run fun _ e => takeClass1 e .rspEBlk port agent bitag.toNat)

/-- INBOUND_CREDIT_RETURN (R87): a due credit of a class is pulsed. -/
def execInboundCreditReturn (port : Fin 128) (cls : Fin 4) (s : State) : Host.Outcome State Fault Refusal :=
  .next (s.run fun _ e => creditReturn e port cls)

/-- OUTBOUND_CREDIT (R88): a pulse on Pn_OUT_CRED. -/
def execOutboundCredit (port : Fin 128) (cls : Fin 4) (s : State) : Host.Outcome State Fault Refusal :=
  .next (s.run fun _ e => outboundCredit e port cls)

/-- OUTBOUND_SEND (R91): the outbound arbiter of a port sends. -/
def execOutboundSend (port : Fin 128) (s : State) : Host.Outcome State Fault Refusal :=
  .next (s.run fun _ e => outboundSend e port)

/-- QOS_RELEASE (R399): a channel releases heads of its hold queues. -/
def execQosRelease (ch : Fin 16) (s : State) : Host.Outcome State Fault Refusal :=
  .next (s.run fun _ e => qosRelease e ch)

/-- WRITE_QUEUE_ENTRY (R21): the next write of a channel enters its write queue. -/
def execWriteQueueEntry (ch : Fin 16) (s : State) : Host.Outcome State Fault Refusal :=
  .next (s.run fun d e => writeQueueEntry d e ch)

/-- RETRY_RELEASE (R357): the retry buffer looks at the entries of a set. -/
def execRetryRelease (set : Fin 262144) (s : State) : Host.Outcome State Fault Refusal :=
  .next (s.run fun _ e => retryRelease e set)

/-- PLACEMENT_PUSH (R381): the next placement push goes on. -/
def execPlacementPush (s : State) : Host.Outcome State Fault Refusal :=
  .next (s.run fun _ e => placementPush e)

/-- PARTNER_READ_RETURN (R297): the next partner read has returned. -/
def execPartnerReadReturn (s : State) : Host.Outcome State Fault Refusal :=
  .next (s.run fun d e => partnerReadReturn d e)

/-- MERGE_READ_RETURN (R80): the next merge read has returned. -/
def execMergeReadReturn (s : State) : Host.Outcome State Fault Refusal :=
  .next (s.run fun d e => mergeReadReturn d e)

/-- METADATA_READ_RETURN (R337): the next metadata read has returned. -/
def execMetadataReadReturn (s : State) : Host.Outcome State Fault Refusal :=
  .next (s.run fun _ e => metadataReturn e)

/-- SIZE_CLASS_REBUILD (R305): the rebuild of a size-class slot goes on, with the reads of at most `asks` further pairs. -/
def execSizeClassRebuild (asks : Fin 257) (s : State) : Host.Outcome State Fault Refusal :=
  .next (s.run fun _ e => sizeClassRebuild e asks)

/-- COUNTER_REBUILD (R334): the next lost counter line is rebuilt. -/
def execCounterRebuild (s : State) : Host.Outcome State Fault Refusal :=
  .next (s.run fun d e => counterRebuild d e)

/-- SHED_RECOMPUTE (R409): the shed sets are recomputed. -/
def execShedRecompute (s : State) : Host.Outcome State Fault Refusal :=
  .next (s.run fun _ e => shedStep e)

/-- PRI_RAMP_UPDATE (R397): the priority ramp moves on. -/
def execPriRampUpdate (s : State) : Host.Outcome State Fault Refusal :=
  .next (s.run fun _ e => priRamp e)

/-- AGE_PROMOTE (R146): entries of a channel have reached AGE_CAP. -/
def execAgePromote (ch : Fin 16) (s : State) : Host.Outcome State Fault Refusal :=
  .next (s.run fun _ e => agePromote e ch)

/-- HOTLIST_UPDATE (R418): the hotlist takes a sample. -/
def execHotlistUpdate (s : State) : Host.Outcome State Fault Refusal :=
  .next (s.run fun _ e => hotStep e)

end Sys2Proof.Machine
end

