-- ==== Sys2Proof/Machine/ExecRegister.lean ====
section
/-! DEFINITION. The meanings of the commands of the register window. -/

namespace Sys2Proof.Machine

/-- REGISTER_WRITE (R8): a write access of a byte address. -/
def execRegisterWrite (rp : RegPort) (addr : BitVec 24) (data : Word)
    (s : State) : Host.Outcome State Fault Refusal :=
  .next (s.runWrite fun _ e => portWrite e rp (addr.toNat) data)

/-- SEQ_CLEAR (R8): a write of a SEQ to the status register at an address. -/
def execSeqClear (rp : RegPort) (addr : BitVec 24) (seq : BitVec 8)
    (s : State) : Host.Outcome State Fault Refusal :=
  .next (s.runWrite fun _ e => portWrite e rp (valueAddr addr.toNat) (seqWord seq))

/-- WM_NOTICE_CLEAR (R428): a write of a SEQ to TEL_WMk_STATUS. -/
def execWmNoticeClear (rp : RegPort) (k : Fin 16) (seq : BitVec 8)
    (s : State) : Host.Outcome State Fault Refusal :=
  .next (s.runWrite fun _ e => portWrite e rp (TEL_WM_STATUS k) (seqWord seq))

/-- QOS_DEGRADED_CLEAR (R411): a write of a SEQ to QOS_DEGRADED. -/
def execQosDegradedClear (rp : RegPort) (seq : BitVec 8) (s : State) : Host.Outcome State Fault Refusal :=
  .next (s.runWrite fun _ e => portWrite e rp (QOS_DEGRADED) (seqWord seq))

/-- ING_ENABLE (R86): a write of GC_ING_CTRL with ING_EN 1. -/
def execIngEnable (rp : RegPort) (data : Word) (s : State) : Host.Outcome State Fault Refusal :=
  .next (s.runWrite fun _ e => portWrite e rp (GC_ING_CTRL) (setBits [31] data))

/-- GRIST_ENABLE (R103): a write of GC_GRIST_CTRL with GRIST_EN 1. -/
def execGristEnable (rp : RegPort) (data : Word) (s : State) : Host.Outcome State Fault Refusal :=
  .next (s.runWrite fun _ e => portWrite e rp (GC_GRIST_CTRL) (setBits [31] data))

/-- SPARE_ACTIVATE (R276): a write of GC_SPARE_CTRL with ACTIVE 1. -/
def execSpareActivate (rp : RegPort) (data : Word) (s : State) : Host.Outcome State Fault Refusal :=
  .next (s.runWrite fun _ e => portWrite e rp (GC_SPARE_CTRL) (setBits [31] data))

/-- WRW_SELECT (R574): a write of GC_WRW_SEL. -/
def execWrwSelect (rp : RegPort) (data : Word) (s : State) : Host.Outcome State Fault Refusal :=
  .next (s.runWrite fun _ e => portWrite e rp (GC_WRW_SEL) data)

/-- PARITY_INJECT_ARM (R573): a write of GC_PAR_INJ with ARM 1. -/
def execParityInjectArm (rp : RegPort) (data : Word) (s : State) : Host.Outcome State Fault Refusal :=
  .next (s.runWrite fun _ e => portWrite e rp (GC_PAR_INJ) (setBits [31] data))

/-- DBG_ENABLE (R579): a write of GC_DBG_CTRL. -/
def execDbgEnable (rp : RegPort) (data : Word) (s : State) : Host.Outcome State Fault Refusal :=
  .next (s.runWrite fun _ e => portWrite e rp (GC_DBG_CTRL) data)

/-- DBG_HALT (R580): a write of GC_DBG_CORE with HALT 1. -/
def execDbgHalt (rp : RegPort) (data : Word) (s : State) : Host.Outcome State Fault Refusal :=
  .next (s.runWrite fun _ e => portWrite e rp (GC_DBG_CORE) (setBits [31] data))

/-- DBG_STEP (R580): a write of GC_DBG_CORE with STEP 1. -/
def execDbgStep (rp : RegPort) (data : Word) (s : State) : Host.Outcome State Fault Refusal :=
  .next (s.runWrite fun _ e => portWrite e rp (GC_DBG_CORE) (setBits [30] data))

/-- DBG_RESUME (R580): a write of GC_DBG_CORE with RESUME 1. -/
def execDbgResume (rp : RegPort) (data : Word) (s : State) : Host.Outcome State Fault Refusal :=
  .next (s.runWrite fun _ e => portWrite e rp (GC_DBG_CORE) (setBits [29] data))

/-- FAULT_INJECT (R557): a write of FLT_INJECT with GO 1. -/
def execFaultInject (rp : RegPort) (data : Word) (s : State) : Host.Outcome State Fault Refusal :=
  .next (s.runWrite fun _ e => portWrite e rp (FLT_INJECT) (setBits [31] data))

/-- HIST_POP (R536): a write of p to FLT_HIST_POP. -/
def execHistPop (rp : RegPort) (p : BitVec 6) (s : State) : Host.Outcome State Fault Refusal :=
  .next (s.runWrite fun _ e => portWrite e rp (FLT_HIST_POP) (p.setWidth 32))

/-- TEL_SNAP (R425): a write of TEL_CTRL with SNAP 1. -/
def execTelSnap (rp : RegPort) (data : Word) (s : State) : Host.Outcome State Fault Refusal :=
  .next (s.runWrite fun _ e => portWrite e rp (TEL_CTRL) (setBits [30] data))

/-- TEL_CNT_CLR (R425): a write of TEL_CTRL with CNT_CLR 1. -/
def execTelCntClr (rp : RegPort) (data : Word) (s : State) : Host.Outcome State Fault Refusal :=
  .next (s.runWrite fun _ e => portWrite e rp (TEL_CTRL) (setBits [29] data))

/-- TEL_ENABLE (R420): a write of TEL_CTRL. -/
def execTelEnable (rp : RegPort) (data : Word) (s : State) : Host.Outcome State Fault Refusal :=
  .next (s.runWrite fun _ e => portWrite e rp (TEL_CTRL) data)

/-- WM_CONFIG_WRITE (R429): a write of TEL_WMk_CFG. -/
def execWmConfigWrite (rp : RegPort) (k : Fin 16) (data : Word)
    (s : State) : Host.Outcome State Fault Refusal :=
  .next (s.runWrite fun _ e => portWrite e rp (TEL_WM_CFG k) data)

/-- ECC_CNT_CLR (R280): a write of CH_ECC_CTRL with CNT_CLR 1. -/
def execEccCntClr (rp : RegPort) (ch : Fin 16) (data : Word) (s : State) : Host.Outcome State Fault Refusal :=
  .next (s.runWrite fun _ e => portWrite e rp (CH_ECC_CTRL ch) (setBits [30] data))

/-- ECC_MARK_WRITE (R258): a write of CH_ECC_MARKm. -/
def execEccMarkWrite (rp : RegPort) (ch : Fin 16) (mk : Fin 8) (data : Word)
    (s : State) : Host.Outcome State Fault Refusal :=
  .next (s.runWrite fun _ e => portWrite e rp (CH_ECC_MARK ch mk) data)

/-- STEEP_START (R225): a write of CH_TRN_CMD with GO 1 and MODE 0. -/
def execSteepStart (rp : RegPort) (ch : Fin 16) (data : Word)
    (s : State) : Host.Outcome State Fault Refusal :=
  .next (s.runWrite fun _ e => portWrite e rp (CH_TRN_CMD ch) (goWord 0 data))

/-- ONLINE_RUN_START (R230): a write of CH_TRN_CMD with GO 1 and MODE 1. -/
def execOnlineRunStart (rp : RegPort) (ch : Fin 16) (data : Word)
    (s : State) : Host.Outcome State Fault Refusal :=
  .next (s.runWrite fun _ e => portWrite e rp (CH_TRN_CMD ch) (goWord 1 data))

/-- OFFLINE_RUN_START (R235): a write of CH_TRN_CMD with GO 1 and MODE 2. -/
def execOfflineRunStart (rp : RegPort) (ch : Fin 16) (data : Word)
    (s : State) : Host.Outcome State Fault Refusal :=
  .next (s.runWrite fun _ e => portWrite e rp (CH_TRN_CMD ch) (goWord 2 data))

/-- I3C_GO (R251): a write of CH_I3C_CMD with GO 1. -/
def execI3cGo (rp : RegPort) (bus : Fin 8) (data : Word) (s : State) : Host.Outcome State Fault Refusal :=
  .next (s.runWrite fun _ e => portWrite e rp (CH_I3C_CMD bus) (setBits [31] data))

/-- SCHED_ENABLE (R168): a write of CH_SCHED_CTRL with SCHED_EN 1. -/
def execSchedEnable (rp : RegPort) (ch : Fin 16) (data : Word)
    (s : State) : Host.Outcome State Fault Refusal :=
  .next (s.runWrite fun _ e => portWrite e rp (CH_SCHED_CTRL ch) (setBits [31] data))

/-- SCHED_DISABLE (R166): a write of CH_SCHED_CTRL with SCHED_EN 0. -/
def execSchedDisable (rp : RegPort) (ch : Fin 16) (data : Word)
    (s : State) : Host.Outcome State Fault Refusal :=
  .next (s.runWrite fun _ e => portWrite e rp (CH_SCHED_CTRL ch) (clrBits [31] data))

/-- REF_ENABLE (R197): a write of CH_REF_CTRL with REF_EN 1. -/
def execRefEnable (rp : RegPort) (ch : Fin 16) (data : Word) (s : State) : Host.Outcome State Fault Refusal :=
  .next (s.runWrite fun _ e => portWrite e rp (CH_REF_CTRL ch) (setBits [31] data))

/-- RG_ENABLE (R212): a write of CH_RG_CTRL with RG_EN 1. -/
def execRgEnable (rp : RegPort) (ch : Fin 16) (data : Word) (s : State) : Host.Outcome State Fault Refusal :=
  .next (s.runWrite fun _ e => portWrite e rp (CH_RG_CTRL ch) (setBits [31] data))

/-- TRN_ENABLE (R248): a write of CH_TRN_CTRL with TRN_EN 1. -/
def execTrnEnable (rp : RegPort) (ch : Fin 16) (data : Word) (s : State) : Host.Outcome State Fault Refusal :=
  .next (s.runWrite fun _ e => portWrite e rp (CH_TRN_CTRL ch) (setBits [31] data))

/-- SCRUB_ENABLE (R280): a write of CH_SCRUB_CTRL with SCRUB_EN 1. -/
def execScrubEnable (rp : RegPort) (ch : Fin 16) (data : Word)
    (s : State) : Host.Outcome State Fault Refusal :=
  .next (s.runWrite fun _ e => portWrite e rp (CH_SCRUB_CTRL ch) (setBits [31] data))

/-- DIR_ENABLE (R349): a write of DIR_CTRL with DIR_EN 1. -/
def execDirEnable (rp : RegPort) (data : Word) (s : State) : Host.Outcome State Fault Refusal :=
  .next (s.runWrite fun _ e => portWrite e rp (DIR_CTRL) (setBits [31] data))

/-- CRY_ENABLE (R341): a write of CRY_CTRL with CRY_EN 1. -/
def execCryEnable (rp : RegPort) (data : Word) (s : State) : Host.Outcome State Fault Refusal :=
  .next (s.runWrite fun _ e => portWrite e rp (CRY_CTRL) (setBits [31] data))

/-- CRY_LOCK (R340): a write of CRY_CTRL with LOCK 1. -/
def execCryLock (rp : RegPort) (data : Word) (s : State) : Host.Outcome State Fault Refusal :=
  .next (s.runWrite fun _ e => portWrite e rp (CRY_CTRL) (setBits [30] data))

/-- QOS_ENABLE (R398): a write of QOS_CTRL with QOS_EN 1. -/
def execQosEnable (rp : RegPort) (data : Word) (s : State) : Host.Outcome State Fault Refusal :=
  .next (s.runWrite fun _ e => portWrite e rp (QOS_CTRL) (setBits [31] data))

/-- QOS_COMMIT (R413): a write of QOS_CTRL with COMMIT 1. -/
def execQosCommit (rp : RegPort) (data : Word) (s : State) : Host.Outcome State Fault Refusal :=
  .next (s.runWrite fun _ e => portWrite e rp (QOS_CTRL) (setBits [30] data))

/-- RING_ENABLE (R130): a write of RING_CTRL with RING_EN 1. -/
def execRingEnable (rp : RegPort) (data : Word) (s : State) : Host.Outcome State Fault Refusal :=
  .next (s.runWrite fun _ e => portWrite e rp (RING_CTRL) (setBits [31] data))

/-- ARB_PRIO_WRITE (R182): a write of CH_ARB_PRIO. -/
def execArbPrioWrite (rp : RegPort) (ch : Fin 16) (data : Word)
    (s : State) : Host.Outcome State Fault Refusal :=
  .next (s.runWrite fun _ e => portWrite e rp (CH_ARB_PRIO ch) data)

/-- ARB_CTRL_WRITE (R184): a write of CH_ARB_CTRL. -/
def execArbCtrlWrite (rp : RegPort) (ch : Fin 16) (data : Word)
    (s : State) : Host.Outcome State Fault Refusal :=
  .next (s.runWrite fun _ e => portWrite e rp (CH_ARB_CTRL ch) data)

/-- TB_SET (R444): a write of PWR_TB_SETC with GO 1. -/
def execTbSet (rp : RegPort) (data : Word) (s : State) : Host.Outcome State Fault Refusal :=
  .next (s.runWrite fun _ e => portWrite e rp (PWR_TB_SETC) (setBits [31] data))

/-- PWR_CMD_GO (R455): a write of PWR_CMD with GO 1. -/
def execPwrCmdGo (rp : RegPort) (data : Word) (s : State) : Host.Outcome State Fault Refusal :=
  .next (s.runWrite fun _ e => portWrite e rp (PWR_CMD) (setBits [31] data))

/-- MAILBOX_PAYLOAD_WRITE (R485): a write of a payload word. -/
def execMailboxPayloadWrite (rp : RegPort) (m : Fin 64) (ix : Fin 64) (data : Word)
    (s : State) : Host.Outcome State Fault Refusal :=
  .next (s.runWrite fun _ e => portWrite e rp (MBX_MB_D m ix) data)

/-- MAILBOX_CONSUME (R485): a write of MBX_MBm_CMD with CONSUME 1. -/
def execMailboxConsume (rp : RegPort) (m : Fin 64) (s : State) : Host.Outcome State Fault Refusal :=
  .next (s.runWrite fun _ e => portWrite e rp (MBX_MB_CMD m) (setBits [31] 0))

/-- MAILBOX_RING (R485): a write of MBX_MBm_CMD with RING 1. -/
def execMailboxRing (rp : RegPort) (m : Fin 64) (s : State) : Host.Outcome State Fault Refusal :=
  .next (s.runWrite fun _ e => portWrite e rp (MBX_MB_CMD m) (setBits [30] 0))

/-- MAILBOX_RELEASE (R485): a write of MBX_MBm_CMD with RELEASE 1. -/
def execMailboxRelease (rp : RegPort) (m : Fin 64) (s : State) : Host.Outcome State Fault Refusal :=
  .next (s.runWrite fun _ e => portWrite e rp (MBX_MB_CMD m) (setBits [29] 0))

/-- MBX_LOCK (R482): a write of MBX_CTRL with LOCK 1. -/
def execMbxLock (rp : RegPort) (data : Word) (s : State) : Host.Outcome State Fault Refusal :=
  .next (s.runWrite fun _ e => portWrite e rp (MBX_CTRL) (setBits [31] data))

/-- CORE_KICK (R478): a write of MBX_CORE_KICK with KICK 1. -/
def execCoreKick (rp : RegPort) (data : Word) (s : State) : Host.Outcome State Fault Refusal :=
  .next (s.runWrite fun _ e => portWrite e rp (MBX_CORE_KICK) (setBits [0] data))

/-- SEM_ACQ (R494): a write of MBX_SEMs_OP with ACQ 1, KIND and ID. -/
def execSemAcq (rp : RegPort) (sem : Fin 64) (kind : Bool) (id : BitVec 12)
    (s : State) : Host.Outcome State Fault Refusal :=
  .next (s.runWrite fun _ e => portWrite e rp (MBX_SEM_OP sem) (semWord 31 kind id))

/-- SEM_REL (R494): a write of MBX_SEMs_OP with REL 1, KIND and ID. -/
def execSemRel (rp : RegPort) (sem : Fin 64) (kind : Bool) (id : BitVec 12)
    (s : State) : Host.Outcome State Fault Refusal :=
  .next (s.runWrite fun _ e => portWrite e rp (MBX_SEM_OP sem) (semWord 30 kind id))

/-- SEM_CLR_ABN (R494): a write of MBX_SEMs_OP with CLR_ABN 1, KIND and ID. -/
def execSemClrAbn (rp : RegPort) (sem : Fin 64) (kind : Bool) (id : BitVec 12)
    (s : State) : Host.Outcome State Fault Refusal :=
  .next (s.runWrite fun _ e => portWrite e rp (MBX_SEM_OP sem) (semWord 29 kind id))

end Sys2Proof.Machine
end

