-- ==== Sys2Proof/Machine/ExecRing.lean ====
section
/-! DEFINITION. The meanings of the commands of the management ring. -/

namespace Sys2Proof.Machine

/-- TB_SYNC_SEND (R125): PERIOD_US has passed. -/
def execTbSyncSend (s : State) : Host.Outcome State Fault Refusal :=
  .next (s.run fun _ e => syncPeriod e)

/-- TB_SYNC_LOST (R127): four periods have passed; `lower` when a present engine of a lower index has a valid epoch. -/
def execTbSyncLost (lower : Bool) (s : State) : Host.Outcome State Fault Refusal :=
  .next (s.run fun _ e => syncLost e lower)

/-- RING_MGMT (R124): consecutive valid words on RING_IN, the first one `wait` REG cycles on. -/
def execRingMgmt (words : List (BitVec 16)) (wait : Nat) (s : State) : Host.Outcome State Fault Refusal :=
  .next (s.run fun _ e => ringIn e (fun t => t == 0 || decide (4 < t)) words wait)

/-- RING_MGMT_ACK (R124): consecutive valid words on RING_IN, the first one `wait` REG cycles on. -/
def execRingMgmtAck (words : List (BitVec 16)) (wait : Nat) (s : State) : Host.Outcome State Fault Refusal :=
  .next (s.run fun _ e => ringIn e (· == 1) words wait)

/-- RING_TB_SYNC (R126): consecutive valid words on RING_IN, the first one `wait` REG cycles on. -/
def execRingTbSync (words : List (BitVec 16)) (wait : Nat) (s : State) : Host.Outcome State Fault Refusal :=
  .next (s.run fun _ e => ringIn e (· == 2) words wait)

/-- RING_FAULT (R128): consecutive valid words on RING_IN, the first one `wait` REG cycles on. -/
def execRingFault (words : List (BitVec 16)) (wait : Nat) (s : State) : Host.Outcome State Fault Refusal :=
  .next (s.run fun _ e => ringIn e (· == 3) words wait)

/-- RING_PRESENCE (R130): consecutive valid words on RING_IN, the first one `wait` REG cycles on. -/
def execRingPresence (words : List (BitVec 16)) (wait : Nat) (s : State) : Host.Outcome State Fault Refusal :=
  .next (s.run fun _ e => ringIn e (· == 4) words wait)

/-- MGMT_RESEND (R124): 20 µs without an acknowledgement. -/
def execMgmtResend (dst : Fin 8) (s : State) : Host.Outcome State Fault Refusal :=
  .next (s.run fun _ e => mgmtResend e dst)

/-- FAULT_REPEAT (R128): 1 µs after a FAULT. -/
def execFaultRepeat (s : State) : Host.Outcome State Fault Refusal :=
  .next (s.run fun _ e => faultRepeat e)

/-- PRESENCE_HEARTBEAT (R130): HB_MS has passed. -/
def execPresenceHeartbeat (s : State) : Host.Outcome State Fault Refusal :=
  .next (s.run fun _ e => heartbeat e)

/-- HEARTBEAT_MISS (R131): three heartbeats of an engine are missed. -/
def execHeartbeatMiss (eng : Fin 8) (s : State) : Host.Outcome State Fault Refusal :=
  .next (s.run fun _ e => heartbeatMiss e eng)

/-- PRESENCE_TIMEOUT (R132): 100 µs without the own PRESENCE. -/
def execPresenceTimeout (s : State) : Host.Outcome State Fault Refusal :=
  .next (s.run fun _ e => presenceTimeout e)

end Sys2Proof.Machine
end

