-- ==== Sys2Proof/Machine/ExecTimers.lean ====
section
/-! DEFINITION. The meanings of the commands of supplies and the remaining timers. -/

namespace Sys2Proof.Machine

/-- PAR_WIN_EXPIRY (R224): PAR_WIN has passed after a burst without a preamble. -/
def execParWinExpiry (ch : Fin 16) (sc : Fin 2) (s : State) : Host.Outcome State Fault Refusal :=
  .next (s.run fun _ e => parWinExpiry e ch sc)

/-- ENTROPY_WAIT_EXPIRY (R320): 10 ms without healthy entropy. -/
def execEntropyWaitExpiry (s : State) : Host.Outcome State Fault Refusal :=
  .next (s.run fun _ e => entropyExpiry e)

/-- RECOVERY_WINDOW_EXPIRY (R553): an automatic recovery leaves the last 86,400 s. -/
def execRecoveryWindowExpiry (s : State) : Host.Outcome State Fault Refusal :=
  .next (s.run fun _ e => recoveryWindow e)

/-- SUPPLIES_RISE (R469): the supplies enter their ranges. -/
def execSuppliesRise (s : State) : Host.Outcome State Fault Refusal :=
  .next (s.run fun _ e => suppliesRise e)

/-- SUPPLY_LOSS (R56): the supplies are lost. -/
def execSupplyLoss (s : State) : Host.Outcome State Fault Refusal :=
  .next (s.runLosing (fun _ => true) fun _ e => supplyLoss e)

end Sys2Proof.Machine
end

