-- ==== Sys2Proof/Machine/Dispatch.lean ====
section
/-! DEFINITION. The dispatch of a command to its meaning. -/

namespace Sys2Proof.Machine

/-- The effect of a command on everything but the queue. -/
def exec (i : Instr) (s : State) : Host.Outcome State Fault Refusal :=
  match i with
  | .porstAssert => Sys2Proof.Machine.execPorstAssert s
  | .porstRelease => Sys2Proof.Machine.execPorstRelease s
  | .srstAssert => Sys2Proof.Machine.execSrstAssert s
  | .srstRelease => Sys2Proof.Machine.execSrstRelease s
  | .engPresentLow => Sys2Proof.Machine.execEngPresentLow s
  | .clockLoss ref => Sys2Proof.Machine.execClockLoss ref s
  | .pllLock => Sys2Proof.Machine.execPllLock s
  | .supplyOutOfRange => Sys2Proof.Machine.execSupplyOutOfRange s
  | .wakeN held => Sys2Proof.Machine.execWakeN held s
  | .doorbell m => Sys2Proof.Machine.execDoorbell m s
  | .entropySample x => Sys2Proof.Machine.execEntropySample x s
  | .alertAssert ch slot => Sys2Proof.Machine.execAlertAssert ch slot s
  | .alertClassify ch slot width => Sys2Proof.Machine.execAlertClassify ch slot width s
  | .caParityRecovery ch slot => Sys2Proof.Machine.execCaParityRecovery ch slot s
  | .alertBackoffRfm ch slot => Sys2Proof.Machine.execAlertBackoffRfm ch slot s
  | .tempIbi bus hub temp => Sys2Proof.Machine.execTempIbi bus hub temp s
  | .i3cTransaction bus ack bad data => Sys2Proof.Machine.execI3cTransaction bus ack bad data s
  | .packetRewind port flits => Sys2Proof.Machine.execPacketRewind port flits s
  | .framingError port flits => Sys2Proof.Machine.execFramingError port flits s
  | .memRd h reqSt way => Sys2Proof.Machine.execMemRd h reqSt way s
  | .memRdData h reqSt way => Sys2Proof.Machine.execMemRdData h reqSt way s
  | .memInv h reqSt way => Sys2Proof.Machine.execMemInv h reqSt way s
  | .memInvNt h reqSt way => Sys2Proof.Machine.execMemInvNt h reqSt way s
  | .memClnEvct h reqSt way => Sys2Proof.Machine.execMemClnEvct h reqSt way s
  | .memWr h poison data way => Sys2Proof.Machine.execMemWr h poison data way s
  | .memWrPtl h poison mask data way => Sys2Proof.Machine.execMemWrPtl h poison mask data way s
  | .placeWr h poison target data way => Sys2Proof.Machine.execPlaceWr h poison target data way s
  | .agentReset port agent => Sys2Proof.Machine.execAgentReset port agent s
  | .creditYield port y0 y1 y3 => Sys2Proof.Machine.execCreditYield port y0 y1 y3 s
  | .biRspI port agent bitag => Sys2Proof.Machine.execBiRspI port agent bitag s
  | .biRspS port agent bitag => Sys2Proof.Machine.execBiRspS port agent bitag s
  | .biConflict port agent bitag => Sys2Proof.Machine.execBiConflict port agent bitag s
  | .biRspE port agent bitag => Sys2Proof.Machine.execBiRspE port agent bitag s
  | .biRspIBlk port agent bitag => Sys2Proof.Machine.execBiRspIBlk port agent bitag s
  | .biRspSBlk port agent bitag => Sys2Proof.Machine.execBiRspSBlk port agent bitag s
  | .biRspEBlk port agent bitag => Sys2Proof.Machine.execBiRspEBlk port agent bitag s
  | .inboundCreditReturn port cls => Sys2Proof.Machine.execInboundCreditReturn port cls s
  | .outboundCredit port cls => Sys2Proof.Machine.execOutboundCredit port cls s
  | .outboundSend port => Sys2Proof.Machine.execOutboundSend port s
  | .qosRelease ch => Sys2Proof.Machine.execQosRelease ch s
  | .writeQueueEntry ch => Sys2Proof.Machine.execWriteQueueEntry ch s
  | .retryRelease set => Sys2Proof.Machine.execRetryRelease set s
  | .placementPush => Sys2Proof.Machine.execPlacementPush s
  | .partnerReadReturn => Sys2Proof.Machine.execPartnerReadReturn s
  | .mergeReadReturn => Sys2Proof.Machine.execMergeReadReturn s
  | .metadataReadReturn => Sys2Proof.Machine.execMetadataReadReturn s
  | .sizeClassRebuild asks => Sys2Proof.Machine.execSizeClassRebuild asks s
  | .counterRebuild => Sys2Proof.Machine.execCounterRebuild s
  | .shedRecompute => Sys2Proof.Machine.execShedRecompute s
  | .priRampUpdate => Sys2Proof.Machine.execPriRampUpdate s
  | .agePromote ch => Sys2Proof.Machine.execAgePromote ch s
  | .hotlistUpdate => Sys2Proof.Machine.execHotlistUpdate s
  | .arbContest ch wait => Sys2Proof.Machine.execArbContest ch wait s
  | .schedCommand ch sc wait pos => Sys2Proof.Machine.execSchedCommand ch sc wait pos s
  | .deferredCommand ch prank => Sys2Proof.Machine.execDeferredCommand ch prank s
  | .readBurstCapture ch sc preamble err => Sys2Proof.Machine.execReadBurstCapture ch sc preamble err s
  | .opportunisticDrain ch sc => Sys2Proof.Machine.execOpportunisticDrain ch sc s
  | .pageIdleClose ch sc wait pos => Sys2Proof.Machine.execPageIdleClose ch sc wait pos s
  | .refreshTick ch prank => Sys2Proof.Machine.execRefreshTick ch prank s
  | .opportunisticRefresh ch prank => Sys2Proof.Machine.execOpportunisticRefresh ch prank s
  | .refreshOperation ch prank => Sys2Proof.Machine.execRefreshOperation ch prank s
  | .mitigationOperation ch sc rank bg bank => Sys2Proof.Machine.execMitigationOperation ch sc rank bg bank s
  | .rfmOperation ch sc rank bank => Sys2Proof.Machine.execRfmOperation ch sc rank bank s
  | .rgEpochEnd ch prank => Sys2Proof.Machine.execRgEpochEnd ch prank s
  | .scrubOperation ch back => Sys2Proof.Machine.execScrubOperation ch back s
  | .ueReread ch back => Sys2Proof.Machine.execUeReread ch back s
  | .ecsPoll ch counts => Sys2Proof.Machine.execEcsPoll ch counts s
  | .eccWindowRestart ch => Sys2Proof.Machine.execEccWindowRestart ch s
  | .tempPoll ch temps mr4 => Sys2Proof.Machine.execTempPoll ch temps mr4 s
  | .mntTimeInterval ch => Sys2Proof.Machine.execMntTimeInterval ch s
  | .powerDownEntry ch prank => Sys2Proof.Machine.execPowerDownEntry ch prank s
  | .trainingUnit ch sweeps vals fail counts => Sys2Proof.Machine.execTrainingUnit ch sweeps vals fail counts s
  | .sliceGapExpiry ch => Sys2Proof.Machine.execSliceGapExpiry ch s
  | .driftMeasure ch counts => Sys2Proof.Machine.execDriftMeasure ch counts s
  | .retrainPeriod ch => Sys2Proof.Machine.execRetrainPeriod ch s
  | .steepStepComplete ch sweeps vals fail counts spd lat => Sys2Proof.Machine.execSteepStepComplete ch sweeps vals fail counts spd lat s
  | .steepTimeout ch => Sys2Proof.Machine.execSteepTimeout ch s
  | .offlineTimeout ch => Sys2Proof.Machine.execOfflineTimeout ch s
  | .watchdogBite ch => Sys2Proof.Machine.execWatchdogBite ch s
  | .spareCopyLine back => Sys2Proof.Machine.execSpareCopyLine back s
  | .pprRepairStep ch back => Sys2Proof.Machine.execPprRepairStep ch back s
  | .reclaimWalkStep => Sys2Proof.Machine.execReclaimWalkStep s
  | .unenrollWalkStep => Sys2Proof.Machine.execUnenrollWalkStep s
  | .biTimeout bitag => Sys2Proof.Machine.execBiTimeout bitag s
  | .dirInitComplete => Sys2Proof.Machine.execDirInitComplete s
  | .gristCheckComplete => Sys2Proof.Machine.execGristCheckComplete s
  | .wrwCapture bank => Sys2Proof.Machine.execWrwCapture bank s
  | .paritySweep => Sys2Proof.Machine.execParitySweep s
  | .drbgReseed => Sys2Proof.Machine.execDrbgReseed s
  | .kilnCalibration elapsed => Sys2Proof.Machine.execKilnCalibration elapsed s
  | .tbSyncSend => Sys2Proof.Machine.execTbSyncSend s
  | .tbSyncLost lower => Sys2Proof.Machine.execTbSyncLost lower s
  | .ringMgmt words wait => Sys2Proof.Machine.execRingMgmt words wait s
  | .ringMgmtAck words wait => Sys2Proof.Machine.execRingMgmtAck words wait s
  | .ringTbSync words wait => Sys2Proof.Machine.execRingTbSync words wait s
  | .ringFault words wait => Sys2Proof.Machine.execRingFault words wait s
  | .ringPresence words wait => Sys2Proof.Machine.execRingPresence words wait s
  | .mgmtResend dst => Sys2Proof.Machine.execMgmtResend dst s
  | .faultRepeat => Sys2Proof.Machine.execFaultRepeat s
  | .presenceHeartbeat => Sys2Proof.Machine.execPresenceHeartbeat s
  | .heartbeatMiss eng => Sys2Proof.Machine.execHeartbeatMiss eng s
  | .presenceTimeout => Sys2Proof.Machine.execPresenceTimeout s
  | .epochEnd => Sys2Proof.Machine.execEpochEnd s
  | .hotlistSortDone => Sys2Proof.Machine.execHotlistSortDone s
  | .claimExpiry m => Sys2Proof.Machine.execClaimExpiry m s
  | .coreWatchdogExpiry pair => Sys2Proof.Machine.execCoreWatchdogExpiry pair s
  | .coreFault pair mem => Sys2Proof.Machine.execCoreFault pair mem s
  | .coreRestartComplete pair ok => Sys2Proof.Machine.execCoreRestartComplete pair ok s
  | .handshakeAnswer block us => Sys2Proof.Machine.execHandshakeAnswer block us s
  | .handshakeReask block => Sys2Proof.Machine.execHandshakeReask block s
  | .handshakeDelayLimit block => Sys2Proof.Machine.execHandshakeDelayLimit block s
  | .yieldTimeout port => Sys2Proof.Machine.execYieldTimeout port s
  | .powerStep => Sys2Proof.Machine.execPowerStep s
  | .wakeStage ticks => Sys2Proof.Machine.execWakeStage ticks s
  | .dumpComplete us k => Sys2Proof.Machine.execDumpComplete us k s
  | .quietPeriodExpiry => Sys2Proof.Machine.execQuietPeriodExpiry s
  | .rollChannel => Sys2Proof.Machine.execRollChannel s
  | .rollRollback => Sys2Proof.Machine.execRollRollback s
  | .quiesceStep => Sys2Proof.Machine.execQuiesceStep s
  | .recordDelivery box => Sys2Proof.Machine.execRecordDelivery box s
  | .zeroizeRecovery => Sys2Proof.Machine.execZeroizeRecovery s
  | .bringUpStage times resource => Sys2Proof.Machine.execBringUpStage times resource s
  | .bootFwStage => Sys2Proof.Machine.execBootFwStage s
  | .hello m => Sys2Proof.Machine.execHello m s
  | .bye m => Sys2Proof.Machine.execBye m s
  | .abort m => Sys2Proof.Machine.execAbort m s
  | .configStage m => Sys2Proof.Machine.execConfigStage m s
  | .configCommit m => Sys2Proof.Machine.execConfigCommit m s
  | .configRead m => Sys2Proof.Machine.execConfigRead m s
  | .retrain m => Sys2Proof.Machine.execRetrain m s
  | .spare m => Sys2Proof.Machine.execSpare m s
  | .ppr m resource fast => Sys2Proof.Machine.execPpr m resource fast s
  | .ctxCreate m => Sys2Proof.Machine.execCtxCreate m s
  | .ctxDestroy m => Sys2Proof.Machine.execCtxDestroy m s
  | .protSet m => Sys2Proof.Machine.execProtSet m s
  | .enrollAgent m => Sys2Proof.Machine.execEnrollAgent m s
  | .pwrReq m => Sys2Proof.Machine.execPwrReq m s
  | .hotlistRead m => Sys2Proof.Machine.execHotlistRead m s
  | .dumpRead m => Sys2Proof.Machine.execDumpRead m s
  | .faultClear m => Sys2Proof.Machine.execFaultClear m s
  | .scrub m => Sys2Proof.Machine.execScrub m s
  | .sanitize m => Sys2Proof.Machine.execSanitize m s
  | .fwStage m => Sys2Proof.Machine.execFwStage m s
  | .fwActivate m => Sys2Proof.Machine.execFwActivate m s
  | .ringMciMessage src => Sys2Proof.Machine.execRingMciMessage src s
  | .registerWrite rp addr data => Sys2Proof.Machine.execRegisterWrite rp addr data s
  | .seqClear rp addr seq => Sys2Proof.Machine.execSeqClear rp addr seq s
  | .wmNoticeClear rp k seq => Sys2Proof.Machine.execWmNoticeClear rp k seq s
  | .qosDegradedClear rp seq => Sys2Proof.Machine.execQosDegradedClear rp seq s
  | .ingEnable rp data => Sys2Proof.Machine.execIngEnable rp data s
  | .gristEnable rp data => Sys2Proof.Machine.execGristEnable rp data s
  | .spareActivate rp data => Sys2Proof.Machine.execSpareActivate rp data s
  | .wrwSelect rp data => Sys2Proof.Machine.execWrwSelect rp data s
  | .parityInjectArm rp data => Sys2Proof.Machine.execParityInjectArm rp data s
  | .dbgEnable rp data => Sys2Proof.Machine.execDbgEnable rp data s
  | .dbgHalt rp data => Sys2Proof.Machine.execDbgHalt rp data s
  | .dbgStep rp data => Sys2Proof.Machine.execDbgStep rp data s
  | .dbgResume rp data => Sys2Proof.Machine.execDbgResume rp data s
  | .faultInject rp data => Sys2Proof.Machine.execFaultInject rp data s
  | .histPop rp p => Sys2Proof.Machine.execHistPop rp p s
  | .telSnap rp data => Sys2Proof.Machine.execTelSnap rp data s
  | .telCntClr rp data => Sys2Proof.Machine.execTelCntClr rp data s
  | .telEnable rp data => Sys2Proof.Machine.execTelEnable rp data s
  | .wmConfigWrite rp k data => Sys2Proof.Machine.execWmConfigWrite rp k data s
  | .eccCntClr rp ch data => Sys2Proof.Machine.execEccCntClr rp ch data s
  | .eccMarkWrite rp ch mk data => Sys2Proof.Machine.execEccMarkWrite rp ch mk data s
  | .steepStart rp ch data => Sys2Proof.Machine.execSteepStart rp ch data s
  | .onlineRunStart rp ch data => Sys2Proof.Machine.execOnlineRunStart rp ch data s
  | .offlineRunStart rp ch data => Sys2Proof.Machine.execOfflineRunStart rp ch data s
  | .i3cGo rp bus data => Sys2Proof.Machine.execI3cGo rp bus data s
  | .schedEnable rp ch data => Sys2Proof.Machine.execSchedEnable rp ch data s
  | .schedDisable rp ch data => Sys2Proof.Machine.execSchedDisable rp ch data s
  | .refEnable rp ch data => Sys2Proof.Machine.execRefEnable rp ch data s
  | .rgEnable rp ch data => Sys2Proof.Machine.execRgEnable rp ch data s
  | .trnEnable rp ch data => Sys2Proof.Machine.execTrnEnable rp ch data s
  | .scrubEnable rp ch data => Sys2Proof.Machine.execScrubEnable rp ch data s
  | .dirEnable rp data => Sys2Proof.Machine.execDirEnable rp data s
  | .cryEnable rp data => Sys2Proof.Machine.execCryEnable rp data s
  | .cryLock rp data => Sys2Proof.Machine.execCryLock rp data s
  | .qosEnable rp data => Sys2Proof.Machine.execQosEnable rp data s
  | .qosCommit rp data => Sys2Proof.Machine.execQosCommit rp data s
  | .ringEnable rp data => Sys2Proof.Machine.execRingEnable rp data s
  | .arbPrioWrite rp ch data => Sys2Proof.Machine.execArbPrioWrite rp ch data s
  | .arbCtrlWrite rp ch data => Sys2Proof.Machine.execArbCtrlWrite rp ch data s
  | .tbSet rp data => Sys2Proof.Machine.execTbSet rp data s
  | .pwrCmdGo rp data => Sys2Proof.Machine.execPwrCmdGo rp data s
  | .mailboxPayloadWrite rp m ix data => Sys2Proof.Machine.execMailboxPayloadWrite rp m ix data s
  | .mailboxConsume rp m => Sys2Proof.Machine.execMailboxConsume rp m s
  | .mailboxRing rp m => Sys2Proof.Machine.execMailboxRing rp m s
  | .mailboxRelease rp m => Sys2Proof.Machine.execMailboxRelease rp m s
  | .mbxLock rp data => Sys2Proof.Machine.execMbxLock rp data s
  | .coreKick rp data => Sys2Proof.Machine.execCoreKick rp data s
  | .semAcq rp sem kind id => Sys2Proof.Machine.execSemAcq rp sem kind id s
  | .semRel rp sem kind id => Sys2Proof.Machine.execSemRel rp sem kind id s
  | .semClrAbn rp sem kind id => Sys2Proof.Machine.execSemClrAbn rp sem kind id s
  | .parWinExpiry ch sc => Sys2Proof.Machine.execParWinExpiry ch sc s
  | .entropyWaitExpiry => Sys2Proof.Machine.execEntropyWaitExpiry s
  | .recoveryWindowExpiry => Sys2Proof.Machine.execRecoveryWindowExpiry s
  | .suppliesRise => Sys2Proof.Machine.execSuppliesRise s
  | .supplyLoss => Sys2Proof.Machine.execSupplyLoss s

end Sys2Proof.Machine
end

