-- ==== Sys2Proof/WellFormed.lean ====
section
/-! DEFINITION. Which commands the engine's surroundings can send: the relations between operands that their
types leave open. -/

namespace Sys2Proof

/-- The codes of a sweep rise, and each has the ranges of the strobe's four lanes (R228). -/
def Sweep.wf (w : Sweep) : Bool :=
  w.codes.all (fun c => c.2.length == 4) &&
    ((w.codes.map (·.1.val)).zip ((w.codes.map (·.1.val)).drop 1)).all fun p => decide (p.1 < p.2)

/-- An inbound class of R66: 0, 1 or 3. -/
def inboundClass (c : Fin 4) : Bool := c != 2

/-- An outbound class of R83: 0 or 2. -/
def outboundClass (c : Fin 4) : Bool := c == 0 || c == 2

/-- The flits of one packet: LAST stands on the last of them only (R69). -/
def endsPacket (fs : List Flit) : Bool :=
  !fs.isEmpty && fs.map (·.last) == List.replicate (fs.length - 1) false ++ [true]

/-- A run of words on RING_IN whose first word has a TYPE that the event takes (R119). -/
def ringWords (ty : Nat → Bool) : List (BitVec 16) → Bool
  | [] => false
  | w :: _ => ty (w.toNat / 2 ^ 13)

/-- The register at an address has a SEQ that guards status fields (R565). -/
def hasSeq (a : Nat) : Bool :=
  match Machine.findIn a (Machine.registerMap a) with
  | some d => d.fields.any fun f => f.acc == .sq && f.hi == 31 && f.lo == 24
  | none => false

/-- A block that a power step asks (R460): 0 to 9, and 16 upward for the channels. -/
def powerBlock (b : Fin 32) : Bool := decide (b.val < 10) || decide (16 ≤ b.val)

/-- The checks. -/
def Instr.wf : Instr → Bool
  | .packetRewind _ fs => endsPacket fs && Machine.lastBad fs
  | .framingError _ fs => endsPacket fs && !Machine.lastBad fs && (Machine.framed fs).isNone
  | .inboundCreditReturn _ c => inboundClass c
  | .outboundCredit _ c => outboundClass c
  | .trainingUnit _ ws _ _ _ => ws.all Sweep.wf
  | .steepStepComplete _ ws _ _ _ _ _ => ws.all Sweep.wf
  | .ringMgmt ws _ => ringWords (fun t => t == 0 || decide (4 < t)) ws
  | .ringMgmtAck ws _ => ringWords (· == 1) ws
  | .ringTbSync ws _ => ringWords (· == 2) ws
  | .ringFault ws _ => ringWords (· == 3) ws
  | .ringPresence ws _ => ringWords (· == 4) ws
  | .handshakeAnswer b _ | .handshakeReask b | .handshakeDelayLimit b => powerBlock b
  | .seqClear _ a _ => hasSeq (a.toNat / 16 * 16)
  | .bringUpStage ts _ => (ts.map fun x => (x.1, x.2.1)).Nodup
  | _ => true

end Sys2Proof
end

