-- ==== Sys2Proof/Safety.lean ====
section
/-! DEFINITION. What a sound state of the machine is, in the terms that the claims use. -/

namespace Sys2Proof.Machine

/-- The register file is in its canonical form: rising addresses, and no entry at its reset value. -/
def Engine.regsOk (e : Engine) : Prop := twf resetOf e.regs = true

/-- The DRAM is in its canonical form: rising locations, and no entry equal to what power-up left there. -/
def Dram.ok (d : Dram) : Prop := twf (dramDefault d) d.cells = true

/-- What every step keeps: the DRAM's canonical form, and no slot left to be stored. -/
structure State.Ok (s : State) : Prop where
  dram : s.dram.ok
  store : s.e.store = []

/-! ## What a command answers -/

/-- The command answers the machine that its effect, the engine `e`, leaves: `State.after` adds what follows in the
same step (the reactions to a fatal event, the waiting work of the security firmware, watermarks, halted pairs)
and stores the written slots. `after_calm` says when nothing follows. -/
def Answers (i : Instr) (s : State) (e : Engine) : Prop := exec i s = .next (s.after e)

/-- The same for a register write, which also loses the contents of a channel that it powers off. -/
def AnswersWrite (i : Instr) (s : State) (e : Engine) : Prop := exec i s = .next (s.afterWrite e)

/-- The same for a command after which no module holds its contents. -/
def AnswersLost (i : Instr) (s : State) (e : Engine) : Prop := exec i s = .next (s.afterLoss e)

/-- Nothing follows a command that leaves the engine `e`: it has not entered the safe state, and in it every channel
sleeps; no unenroll walk is in progress, the engine is neither at rest in IDLE nor at the end of an entry to it, no work
waits in the firmware of either pair, no watermark monitor is enabled, no packet waits in a class 3 FIFO, nothing waits to be
sent on the ring, no request waits for the DRBG, and no failed delivery has been reported to firmware. -/
structure Calm (s : State) (e : Engine) : Prop where
  safe : isSafe s.e = true ∨ isSafe e = false
  asleep : isSafe e = false ∨ allAsleep e = true
  walks : ∀ w ∈ e.dir.walks, w.unenroll = false
  idle : (pwrState e ≠ 1 ∨ inTrans e = true) ∧ haltsNow e = false
  work : on e CRY_PT_VER_DRAINING = false ∧ e.sec.work = none ∧ e.sec.memRuns = [] ∧ e.sec.waiting = [] ∧ e.sec.line = none
  acts : e.mci.acts = [] ∧ e.mci.verify = none
  drbg : e.tel.seedWait = false ∧ e.ring.noNonce = false
  marks : ∀ k < 16, on e (TEL_WM_CFG_WM_EN k) = false
  fifos : fifoCount e = 0
  ring : e.ring.transit = [] ∧ e.ring.own = []
  failed : s.e.ring.failed = []

/-- Registers of the address list `as` apart, two engines hold the same in every register. -/
def SameRegs (e e' : Engine) (as : List Nat) : Prop := ∀ a, a ∉ as → reg e' a = reg e a

end Sys2Proof.Machine
end

