-- ==== Sys2Proof/Certificates/Slice0/Obligations.lean ====
section
/-! DEFINITION. The statements about the engine that the provers are asked to prove. -/

open Sys2Proof Sys2Proof.Machine
namespace Sys2Proof.Machine

/-- The engine in which the sender of a port has used one credit of a class. -/
def useCredit (e : Engine) (p c : Nat) : Engine :=
  putPort e p { getPort e p with held := setNth (getPort e p).held c (nth (getPort e p).held c 0 - 1) }

/-- A packet of a class can arrive on a port: the port takes packets, and the sender holds a credit. -/
def CanArrive (s : State) (p c : Nat) : Prop :=
  portTakes s.fresh p = true ∧ nth (getPort s.fresh p).held c 0 ≠ 0

end Sys2Proof.Machine

namespace Sys2Proof.Machine

/-- A request that the check of R314–R316 passes: it is bound to the current table, is well formed, and its agent is
alive where that counts (R362). -/
def Passes (e : Engine) (r : Req) : Prop :=
  isSafe e = false ∧ denied e r = false ∧ malformed e r = false ∧
    ((getEnroll e r.agent).dead && (isClass3 r.op || isHdmDb e r.la)) = false ∧ ¬ (r.op = .memWrPtl ∧ r.mask = 0)

/-- The committed request's transaction. -/
def asTxn (e : Engine) (r : Req) : Txn := (newTxn e r e.clk.tb).2

/-- The engine with the committed request as a new transaction that the sampler has seen (R417). -/
def committed (e : Engine) (r : Req) : Engine := telSample (newTxn e r e.clk.tb).1 r.op r.la

/-- The class 3 packet waits in its port's FIFO: behind another, or because the directory takes none (R67, R359). -/
def FifoHolds (e : Engine) (r : Req) : Prop :=
  isClass3 r.op = true ∧ ((getPort e r.port).fifo3 ≠ [] ∨ stalls e r = true)

/-- What ingress does with a request that uses a credit of class `c`: it waits in its FIFO, or, where it passes, it goes
to the QoS stage from an HDM-H region, and to the directory's lookup from an HDM-DB region, where no uncorrectable error
stands in the ways. -/
def Commits (i : WayErr → Instr) (s : State) (c : Nat) (r : Req) : Prop :=
  let e := useCredit s.fresh r.port c
  let x := fun (w : WayErr) => wayError (committed e r) r.la w
  CanArrive s r.port c → ∀ w,
    (FifoHolds e r → Answers (i w) s (putPort e r.port
      { getPort e r.port with fifo3 := (getPort e r.port).fifo3 ++ [⟨r, e.clk.tb, w⟩] })) ∧
    (¬ FifoHolds e r → Passes (newTxn e r e.clk.tb).1 r →
      (isHdmDb (committed e r) r.la = false → Answers (i w) s (toQos (committed e r) { asTxn e r with cacheless := true })) ∧
      (isHdmDb (committed e r) r.la = true → w = .ue → Answers (i w) s (x w)) ∧
      (isHdmDb (committed e r) r.la = true → w ≠ .ue →
        (isClass3 r.op = false → Answers (i w) s (lookup0 (x w) (asTxn e r))) ∧
        (isClass3 r.op = true → Answers (i w) s (lookup3 (x w) (asTxn e r)))))

end Sys2Proof.Machine

/-- R20, R67, R72, R77, R314–R316, R359, R365, R417: a request that the protection check passes uses one credit of its
class and becomes a transaction; in an HDM-H region it goes to the QoS stage, and in an HDM-DB region it is looked up in
the directory, unless an uncorrectable error in the ways is found. A class 3 packet waits in its port's FIFO behind
another one, and while the retry buffer is full. MemInv, MemInvNT and MemClnEvct pass only in HDM-DB regions.
Where the spec leaves it open, this rests on the model's choices in the log entry 8. -/
def Obligations.RequestsPassIngress : Prop :=
  ∀ (s : State) (h : Hdr) (st : Fin 4) (po : Bool) (m : BitVec 64) (tg : Fin 4096) (d : Line),
    Commits (.memRd h st) s 3 (reqOf .memRd h st false 0 0 0) ∧
    Commits (.memRdData h st) s 3 (reqOf .memRdData h st false 0 0 0) ∧
    Commits (.memInv h st) s 3 (reqOf .memInv h st false 0 0 0) ∧
    Commits (.memInvNt h st) s 3 (reqOf .memInvNT h st false 0 0 0) ∧
    Commits (.memClnEvct h st) s 3 (reqOf .memClnEvct h st false 0 0 0) ∧
    Commits (.memWr h po d) s 0 (reqOf .memWr h 0 po (BitVec.allOnes 64) 0 d) ∧
    Commits (.memWrPtl h po m d) s 0 (reqOf .memWrPtl h 0 po m 0 d) ∧
    Commits (.placeWr h po tg d) s 0 (reqOf .placeWr h 0 po (BitVec.allOnes 64) tg d)

/-- R14, R84, R85: a request that the protection check denies uses its credit and is answered with ERRCODE denied on
the port that it came from, MemData-NXM for a read and Cmp otherwise; CRY_CNT_DENY counts it, and no directory, channel
or sampler sees it. A class 3 packet behind another one waits for it first (`RequestsPassIngress`).
Where the spec leaves it open, this rests on the model's choices in the log entry 8. -/
def Obligations.DeniedRequestIsAnsweredOnItsPort : Prop :=
  ∀ (s : State) (h : Hdr) (st : Fin 4) (po : Bool) (d : Line) (way : WayErr),
    let rd := reqOf .memRd h st false 0 0 0
    let wr := reqOf .memWr h 0 po (BitVec.allOnes 64) 0 d
    let ans := fun (c : Nat) (r : Req) =>
      let e := useCredit s.fresh h.port c
      let x := inc (newTxn e r e.clk.tb).1 CRY_CNT_DENY
      s.after (sendPkt (putTxn x (asTxn e r)) h.port
        (mkResp x r (if c = 3 then 0x44 else 0x40) (some 0) false 0 0 none (some s.fresh.nextId)))
    (CanArrive s h.port 3 → isSafe s.e = false → (getPort s.fresh h.port).fifo3 = [] →
      denied (useCredit s.fresh h.port 3) rd = true → exec (.memRd h st way) s = .next (ans 3 rd)) ∧
    (CanArrive s h.port 0 → isSafe s.e = false → denied (useCredit s.fresh h.port 0) wr = true →
      exec (.memWr h po d way) s = .next (ans 0 wr))

namespace Sys2Proof.Machine

/-- The port after its arbiter has sent the packet `k`. -/
def portSent (v : Port) (k : OutPkt) : Port :=
  { v with
    outq := v.outq.erase k
    out := setNth v.out k.cls (nth v.out k.cls 0 - 1)
    run0 := if k.cls = 0 ∧ (v.outq.any fun q => q.cls == 2) = true then v.run0 + 1 else 0
    lastOut := some k }

end Sys2Proof.Machine

/-- R69, R70, R79, R87, R88, R90, R92: a packet whose last flit is bad is rewound: GC_ING_REWIND_CNT counts it; a packet
that breaks the framing sets FRAMING with its port and raises the fault of source 0x02 instead. Either uses a credit of its
class, which is due again at once, except a CreditYield, which uses none; a due inbound credit that nothing withholds goes back to its sender; a pulse of an outbound
credit adds one up to 63; a CreditYield after a CreditRecall that names what the sender holds takes every credit.
R91: the outbound arbiter of a port sends the oldest packet of class 0 for which it holds a credit, or of class 2
when none waits or 16 packets of class 0 have passed a waiting one; the packet uses a credit of its class, and a
response ends its transaction as R87 and R374 say.
R46, R363, R490, R495, R509: an AgentReset uses its credit, and then acts on the directory, on the mailboxes and
sessions of the agent, and on its semaphores, which become abandoned with cause 0b01.
Where the spec leaves it open, this rests on the model's choices in the log entries 2, 22 and 128. -/
def Obligations.PortCommandsAct : Prop :=
  (∀ (s : State) (p : Fin 128) (h : Flit) (fs : List Flit),
    let taken := creditDue (useCredit s.fresh p h.cls) p h.cls
    (lastBad (h :: fs) = true →
      (usesCredit h = true → CanArrive s p h.cls → Answers (.packetRewind p (h :: fs)) s (inc taken GC_ING_REWIND_CNT)) ∧
      (usesCredit h = false → portTakes s.fresh p = true →
        Answers (.packetRewind p (h :: fs)) s (inc s.fresh GC_ING_REWIND_CNT))) ∧
    (lastBad (h :: fs) = false → framed (h :: fs) = none →
      (usesCredit h = true → CanArrive s p h.cls →
        Answers (.framingError p (h :: fs)) s (ingressFault taken p GC_ING_STATUS_FRAMING)) ∧
      (usesCredit h = false → portTakes s.fresh p = true →
        Answers (.framingError p (h :: fs)) s (ingressFault s.fresh p GC_ING_STATUS_FRAMING)))) ∧
  (∀ (s : State) (p : Fin 128) (c : Fin 4),
    (clocked s.fresh = true → nth (getPort s.fresh p).due c 0 ≠ 0 → withheld s.fresh p c = false →
      Answers (.inboundCreditReturn p c) s (putPort s.fresh p { getPort s.fresh p with
        due := setNth (getPort s.fresh p).due c (nth (getPort s.fresh p).due c 0 - 1)
        held := setNth (getPort s.fresh p).held c (nth (getPort s.fresh p).held c 0 + 1)
        lastCred := setNth [0, 0, 0, 0] c 1 })) ∧
    (portTakes s.fresh p = true → nth (getPort s.fresh p).out c 0 < 63 →
      Answers (.outboundCredit p c) s (putPort s.fresh p { getPort s.fresh p with
        out := setNth (getPort s.fresh p).out c (nth (getPort s.fresh p).out c 0 + 1) })) ∧
    (portTakes s.fresh p = true → nth (getPort s.fresh p).out c 0 ≥ 63 →
      Answers (.outboundCredit p c) s (ingressFault s.fresh p GC_ING_STATUS_CRED_OVERFLOW)) ∧
    (∀ (t : Nat) (y0 y1 y3 : BitVec 5), portTakes s.fresh p = true → (getPort s.fresh p).recallAt = some t →
      nth (getPort s.fresh p).held 0 0 = y0.toNat → nth (getPort s.fresh p).held 1 0 = y1.toNat →
      nth (getPort s.fresh p).held 3 0 = y3.toNat →
      Answers (.creditYield p y0 y1 y3) s
        (putPort s.fresh p { getPort s.fresh p with held := [0, 0, 0, 0], recallAt := none }))) ∧
  (∀ (s : State) (p : Fin 128) (k : OutPkt), clocked s.fresh = true → nextOut s.fresh (getPort s.fresh p) = some k →
    (k.txn.bind (getTxn s.fresh) = none →
      Answers (.outboundSend p) s (telSent (putPort s.fresh p (portSent (getPort s.fresh p) k)) k false none)) ∧
    (∀ t, k.txn.bind (getTxn s.fresh) = some t →
      Answers (.outboundSend p) s (packetLeft (putPort s.fresh p (portSent (getPort s.fresh p) k)) p k t)) ∧
    (k.cls = 0 → nth (getPort s.fresh p).out 0 0 > 0 ∧
      (getPort s.fresh p).outq.find? (fun q => q.cls == 0) = some k) ∧
    (k.cls = 2 → nth (getPort s.fresh p).out 2 0 > 0 ∧
      ((getPort s.fresh p).run0 ≥ 16 ∨ nth (getPort s.fresh p).out 0 0 = 0 ∨
        (getPort s.fresh p).outq.find? (fun q => q.cls == 0) = none))) ∧
  (∀ (s : State) (p : Fin 128) (a : Fin 4096), CanArrive s p 0 →
    Answers (.agentReset p a) s (semAbandonAll (resetBoxes (agentResetDir (useCredit s.fresh p 0) p a) a) 0 a 1))

/-- R98, R99, R103: where Grist's check passes, the mapping is one to one: two line addresses of the populated capacity
that reach one location are the same line. The ROW, COL and, beyond them, the hashed outputs together determine the
address. -/
def Obligations.GristMapsNoTwoLinesToOneLocation : Prop :=
  ∀ (g : GCfg), (gristCheck g).ok = true → ∀ a b : Nat, a < capLines g → b < capLines g →
    gristMap g a = gristMap g b → a = b

/-- R98, R99, R106: the ROW output is the home field of the address, so a line below the data top lies in a data row, and
no data row lies at or above the data top.
R103, R106: when the check of a set GRIST_EN completes, MATRIX_RANK takes the rank found. Where no flag's condition
holds, GRIST_EN sets and DATA_ROWS takes the rows left to data; where one holds, its flag sets and the attempt is
recorded with CAUSE 0b01.
Where the spec leaves it open, this rests on the model's choices in the log entries 30 and 97. -/
def Obligations.GristChecksItsConfigurationAndBands : Prop :=
  (∀ (g : GCfg) (la : Nat), (gristCheck g).ok = true → la < capLines g →
    ((gristMap g la).row < dataRows g ↔ la < dataTop g)) ∧
  (∀ (s : State) (t : Nat) (int : Bool), s.fresh.dbg.gristEnd = some (t, int) → clocked s.fresh = true →
    let e := tick s.fresh (t - s.fresh.clk.cyc)
    let g := gcfg s.fresh
    let k := gristCheck g
    let ranked := wr e GC_GRIST_STATUS_MATRIX_RANK (matrixRank g)
    let fs := ((([(GC_GRIST_STATUS_WIDTH, k.width), (GC_GRIST_STATUS_MASK_RANGE, k.maskRange),
      (GC_GRIST_STATUS_SINGULAR, k.singular), (GC_GRIST_STATUS_CARVE, k.carve),
      (GC_GRIST_STATUS_SPARE_SHORT, k.spareShort)] : List (Fld × Bool)).filter (·.2)).map fun f => (f.1, 1))
    let flagged := sqSet ranked GC_GRIST_STATUS fs
    (k.ok = true → Answers .gristCheckComplete s
      (wr (wr { ranked with dbg := { ranked.dbg with gristEnd := none } } GC_GRIST_CTRL_GRIST_EN 1)
        GC_DATA_ROWS_DATA_ROWS (dataRows g))) ∧
    (k.ok = false → Answers .gristCheckComplete s
      (reject { flagged with dbg := { flagged.dbg with gristEnd := none } } (if int = true then .mc01 else .ext)
        GC_GRIST_CTRL 1)))

namespace Sys2Proof.Machine

/-- A message whose fields fit their header fields, with a payload of at most 32 words (R119). -/
def RingMsg.Fits (m : RingMsg) : Prop :=
  m.typ < 8 ∧ m.src < 8 ∧ m.dst < 8 ∧ m.seq < 256 ∧ m.hops < 8 ∧ m.payload.length ≤ 32

end Sys2Proof.Machine

/-- R119, R120: the burst of a message, header words, payload and CRC, is received as exactly that message: no field is
dropped or moved, and its CRC agrees. A message whose type does not go with its BCAST and LEN sets BAD_TYPE. -/
def Obligations.RingBurstIsReceivedAsItsMessage : Prop :=
  ∀ (e : Engine) (m : RingMsg), m.Fits →
    ringMsgOf (ringBurst m) = m ∧
    takeBurst e (ringBurst m) = if typeGood m = true then takeMsg e m else ringFlag e RING_STATUS_BAD_TYPE

namespace Sys2Proof.Machine

/-- A broadcast of another engine that this one consumes and forwards. -/
def Passing (e : Engine) (m : RingMsg) : Prop :=
  m.Fits ∧ m.bcast = true ∧ m.src ≠ ownIdx e ∧ m.hops < 7

/-- A unicast for this engine. -/
def Own (e : Engine) (m : RingMsg) : Prop := m.Fits ∧ m.bcast = false ∧ m.dst = ownIdx e

/-- The receiver acknowledges an MGMT message with its own SEQ (R124). -/
def acked (e : Engine) (m : RingMsg) : Engine := queueOwn e ⟨1, ownIdx e, m.src, false, m.seq, 0, []⟩

end Sys2Proof.Machine

/-- R120: a burst that ends before its LEN says, or whose LEN is above 32, sets TRUNC, and one with another CRC sets CRC;
nothing else of it is used.
R121, R124–R126, R128, R130: what an active ring interface does with a correct burst of each type. An MGMT for this
engine is acknowledged with its own SEQ, and delivered unless its SEQ repeats; an MGMT_ACK that matches ends the wait for
it; TB_SYNC, FAULT and PRESENCE of another engine are forwarded with HOPS + 1 and consumed.
R122, R125: a transit message joins the transit buffer of 70 words or is dropped whole; of the waiting messages that can
start first, one of the first group of R122 is sent; an own message waits until the transit buffer holds 35 words or
fewer; and a transit TB_SYNC leaves with the link delay and its own forwarding latency added to ACC.
R57, R118: through the closed relay, or while RING_EN is 0, every word passes unchanged and nothing is consumed.
R124, R125, R127, R128, R130–R132: the ring's own timers. Each moves time to its moment and then acts: TB_SYNC is
sent, TB_LOST sets, an unacknowledged MGMT is sent again with its SEQ (after three resends UNREACH names its
destination, and firmware is told), the second copy of a FAULT goes out, PRESENCE is broadcast, an engine that missed
three heartbeats leaves RING_PRESENT, and BROKEN raises a contained fault of source 0x0A; a LEAVING that has not returned stays awaited.
Where the spec leaves it open, this rests on the model's choices in the log entries 9, 21, 33, 74, 129 and 140. -/
def Obligations.RingCommandsAct : Prop :=
  (∀ (s : State) (ws : List (BitVec 16)) (wait : Nat), ws ≠ [] → hfield (ws.headD 0) 15 13 = 0 →
    let e := regCycles s.fresh wait
    let len := hfield (ws.headD 0) 5 0
    ringActive e = true →
    ((len > 32 ∨ ws.length < len + 3) → Answers (.ringMgmt ws wait) s (ringFlag e RING_STATUS_TRUNC)) ∧
    (len ≤ 32 → len + 3 ≤ ws.length → ws.getD (len + 2) 0 ≠ ringCrc (ws.take (len + 2)) →
      Answers (.ringMgmt ws wait) s (ringFlag e RING_STATUS_CRC))) ∧
  (∀ (s : State) (m : RingMsg) (wait : Nat),
    let e := regCycles s.fresh wait
    ringActive e = true → typeGood m = true →
    (m.typ = 0 → Own e m → e.ring.lastSeq.contains (m.src, m.seq) = false →
      Answers (.ringMgmt (ringBurst m) wait) s (takeFragment (mapRing (acked e m) fun r => { r with
        lastSeq := (m.src, m.seq) :: r.lastSeq.filter fun (p : Nat × Nat) => p.1 != m.src }) m.src m.payload)) ∧
    (m.typ = 0 → Own e m → e.ring.lastSeq.contains (m.src, m.seq) = true →
      Answers (.ringMgmt (ringBurst m) wait) s (acked e m)) ∧
    (m.typ = 1 → Own e m → e.ring.unacked.any (fun u => u.msg.dst == m.src && u.msg.seq == m.seq) = true →
      Answers (.ringMgmtAck (ringBurst m) wait) s (sendWaiting (mapRing e fun r => { r with
        unacked := r.unacked.filter fun u => !(u.msg.dst == m.src && u.msg.seq == m.seq) }) m.src)) ∧
    (m.typ = 2 → Passing e m → Answers (.ringTbSync (ringBurst m) wait) s (takeSync (forward e m) m)) ∧
    (m.typ = 3 → Passing e m → Answers (.ringFault (ringBurst m) wait) s (takeFault (forward e m) m)) ∧
    (m.typ = 4 → Passing e m → Answers (.ringPresence (ringBurst m) wait) s (takePresence (forward e m) m))) ∧
  ((∀ (e : Engine) (m : RingMsg),
    (transitWords e.ring (regNow e) + burstLen m ≤ 70 → forward e m =
      mapRing e fun r => { r with transit := r.transit ++ [⟨regNow e, { m with hops := m.hops + 1 }⟩] }) ∧
    (70 < transitWords e.ring (regNow e) + burstLen m → forward e m =
      inc (ringFlag e RING_STATUS_DROP) RING_DROP_CNT)) ∧
  (∀ (r : Ring) (x : NextMsg), ringNext r = some x →
    x ∈ ringWaiting r ∧ (∀ y ∈ ringWaiting r, x.start ≤ y.start ∧ (x.start = y.start → x.group ≤ y.group)) ∧
    (∀ t m, x = .own t m → transitWords r r.outFree ≤ 35)) ∧
  (∀ (e : Engine) (t : Nat) (x : Transit), x.msg.typ = 2 →
    let acc := BitVec.ofNat 16 ((nth x.msg.payload 6 0).toNat + linkDelay e + (t - x.at_))
    ringStart e (.transit t x) = drive (mapRing e fun r => { r with transit := r.transit.erase x })
      { x.msg with payload := setNth x.msg.payload 6 acc } t (decide (t > x.at_ + 4)))) ∧
  (∀ (s : State) (ws : List (BitVec 16)) (wait : Nat), ws ≠ [] →
    let e := regCycles s.fresh wait
    let out := mapRing e fun r => { r with sent := r.sent ++ [ws] }
    ringActive e = false →
    (hfield (ws.headD 0) 15 13 = 0 ∨ 4 < hfield (ws.headD 0) 15 13 → Answers (.ringMgmt ws wait) s out) ∧
    (hfield (ws.headD 0) 15 13 = 1 → Answers (.ringMgmtAck ws wait) s out) ∧
    (hfield (ws.headD 0) 15 13 = 2 → Answers (.ringTbSync ws wait) s out) ∧
    (hfield (ws.headD 0) 15 13 = 3 → Answers (.ringFault ws wait) s out) ∧
    (hfield (ws.headD 0) 15 13 = 4 → Answers (.ringPresence ws wait) s out)) ∧
  (∀ (s : State), ringActive s.fresh = true →
    let e := s.fresh
    (isSyncSender e = true →
      Answers .tbSyncSend s (sendSync (tickTo e (e.ring.sentAt + usUnits (rd e RING_TB_CFG_PERIOD_US))))) ∧
    (let t := tickTo e (e.ring.syncAt + 4 * usUnits (rd e RING_TB_CFG_PERIOD_US));
      let l := mapRing (ringFlag t RING_STATUS_TB_LOST) fun r => { r with syncAt := t.clk.nominal };
      Answers (.tbSyncLost true) s l ∧
      (e.clk.epochInvalid = true → Answers (.tbSyncLost false) s l) ∧
      (e.clk.epochInvalid = false →
        Answers (.tbSyncLost false) s (sendSync (mapRing l fun r => { r with sender := true })))) ∧
    (∀ (dst : Fin 8) (u : Unacked), e.ring.unacked.find? (fun u => u.msg.dst == dst.val) = some u →
      let t := tickTo e (u.at_ + usUnits 20)
      let rest := e.ring.unacked.filter fun v => v.msg.dst != dst.val
      (u.resends < 3 → Answers (.mgmtResend dst) s (mapRing (queueOwn t u.msg) fun r => { r with
        unacked := rest ++ [⟨u.msg, t.clk.nominal, u.resends + 1⟩] })) ∧
      (3 ≤ u.resends → Answers (.mgmtResend dst) s (mapRing (ringFlagPeer t RING_STATUS_UNREACH dst) fun r => { r with
        unacked := rest, waiting := r.waiting.filter (fun m => m.dst != dst.val), failed := r.failed ++ [dst.val] }))) ∧
    (∀ (t : Nat) (m : RingMsg) (rest : List (Nat × RingMsg)), e.ring.copies = (t, m) :: rest →
      Answers .faultRepeat s (mapRing (queueOwn (tickTo e t) m) fun r => { r with copies := rest })) ∧
    (let t := tickTo e (e.ring.beatAt + msUnits (rd e RING_CTRL_HB_MS));
      Answers .presenceHeartbeat s (broadcastPresence (mapRing t fun r => { r with beatAt := t.clk.nominal }) false false)) ∧
    (∀ (i : Fin 8), presentBit e i = true → Answers (.heartbeatMiss i) s (ringFlagPeer (setPresent
      (tickTo e (tget 0 e.ring.beats i + 3 * msUnits (rd e RING_CTRL_HB_MS))) i false) RING_STATUS_LEFT i)) ∧
    (∀ (l : Lap), e.ring.laps.find? (fun l => !l.late) = some l →
      let rest := e.ring.laps.erase l
      Answers .presenceTimeout s (raise (ringFlag (mapRing (tickTo e (l.at_ + usUnits 100)) fun r => { r with
        laps := if l.leave = true then { l with late := true } :: rest else rest }) RING_STATUS_BROKEN) 0x0A
        .contained (synOf 4 (ownIdx e)))))

/-- R136, R163: the slot that the timing-rule engine gives a command is the first one, from the slot asked for on, that
keeps the distance to every logged command of the subchannel and the TFAW window of its logical rank. -/
def Obligations.TimingRulesGiveTheFirstLegalSlot : Prop :=
  ∀ (cb : Nat) (log : List DCmd) (b : DCmd) (t u : Nat),
    earliest cb log b t ≤ u ↔ t ≤ u ∧ fawFrom log b ≤ u ∧ ∀ a ∈ log, a.t + gap cb a b ≤ u

/-- R136, R140, R147–R149: the command chosen in a CA slot serves an entry of the current direction, is legal in that
slot, is no ACT that is refused, does not overtake an older read of its slot, and delays no promoted entry; it serves a
promoted entry whenever a legal command does. -/
def Obligations.SchedulerChoosesALegalCommand : Prop :=
  ∀ (e : Engine) (n sc t : Nat) (k : Cand), chooseCmd e n sc t = some k →
    let c := getChan e n
    let all := inDirection e c sc
    let kind := fun (k : Cand) => if kindRank k.kind = 0 then casKind e n c all k else k.kind
    let legal := fun (k : Cand) => orderHolds c k = false ∧ allowed e n sc (kind k) k.loc t = true
    k ∈ all ∧ legal k ∧ delays e n sc c t k = false ∧
    (kind k = .act → actRefused e n .sched c k.loc t = false) ∧
    (∀ a ∈ (getSub c sc).log, a.t + gap (cidBits e) a (mkCmd e n (kind k) k.loc t) ≤ t) ∧
    ((∃ p ∈ all, legal p ∧ p.promoted = true) → k.promoted = true)

namespace Sys2Proof.Machine

/-- A channel whose scheduler is enabled, in CA slot `pos` of the CTL cycle `wait` cycles on: deferred commands whose
slot has come go first, reads that have reached AGE_CAP are promoted, and the grant yields where the arbiter has another
request waiting. -/
def slotEngine (e : Engine) (n wait pos : Nat) : Engine :=
  let t := tick e wait
  schedYield (promoteScan (placeDeferred t n (4 * t.clk.cyc + pos)) n) n

end Sys2Proof.Machine

/-- R143, R144, R147, R150, R224: what the commands of the scheduler do: a CA slot issues the chosen command; an idle
open row is closed with PRE; an opportunistic drain starts and is counted; a captured burst with its preamble goes to
ECC and the return path, and one without it waits for PAR_WIN.
Where the spec leaves it open, this rests on the model's choices in the log entries 9, 12 and 130. -/
def Obligations.SchedulerCommandsAct : Prop :=
  ∀ (s : State) (n : Fin 16) (sc : Fin 2), clocked s.fresh = true →
    (∀ (wait : Nat) (pos : Fin 4) (k : Cand),
      let e := slotEngine s.fresh n wait pos
      let t := 4 * (tick s.fresh wait).clk.cyc + pos
      on e (CH_SCHED_CTRL_SCHED_EN n) = true → schedHolds e n t = true → chooseCmd (spargeLook e n) n sc t = some k →
      Answers (.schedCommand n sc wait pos) s
        (syncLines (spargeLook (issueCand s.dram (spargeLook e n) n sc t k) n) n)) ∧
    (∀ (wait : Nat) (pos : Fin 4) (l : Loc),
      let t := 4 * (tick s.fresh wait).clk.cyc + pos
      let e := schedYield (placeDeferred (tick s.fresh wait) n t) n
      on e (CH_SCHED_CTRL_SCHED_EN n) = true → rd e (CH_SCHED_CTRL_PAGE_POL n) = 2 → schedHolds e n t = true →
      idleRow e n sc t = some l → Answers (.pageIdleClose n sc wait pos) s (issueCmd e n sc (mkCmd e n .pre l t))) ∧
    (let c := getChan s.fresh n
      let w := rd s.fresh (CH_SPARGE_IDLE_DRAIN n)
      let e := tick s.fresh ((getSub c sc).idleSince + w - s.fresh.clk.cyc)
      on e (CH_SCHED_CTRL_SCHED_EN n) = true → w ≠ 0 → queuedReads c sc = [] → queuedWrites c sc ≠ [] →
      drainKind c sc = none → Answers (.opportunisticDrain n sc) s
        (syncLines (putChan (inc e (CH_CNT_DRAIN n)) n
          (mapDrain (getChan e n) sc fun d => { d with
            kind := some .opportunistic, tail := none, tailLeft := 0, casSince := 0 })) n)) ∧
    (∀ (r : RqEntry) (at_ : Nat) (err : BitVec 640), nextBurst (getChan s.fresh n) sc = some r → r.issued = some at_ →
      let e := toPhy s.fresh (at_ + rd s.fresh (CH_TIM5_RL n) + 8)
      Answers (.readBurstCapture n sc true err) s (captured e n r (r.data ^^^ err)) ∧
      Answers (.readBurstCapture n sc false err) s (putChan e n { getChan e n with
        rq := (getChan e n).rq.map fun (q : RqEntry) => if q.seq = r.seq then { q with miss := true } else q }))

/-- R172, R173, R175–R177: a holder that has nothing left to issue, or whose preemption point has come, gives the channel up
first. A contest of a free channel grants it to the highest score, MEn before TSn before the scheduler on
equal scores; a contest of a held channel sets preemption pending exactly when a waiter's score exceeds the holder's and
the holder's bit of CH_ARB_CTRL is 1.
R178, R188: the watchdog of the holder bites at its limit, counted from its last command or preemption point: the grant drops, its flag sets, and the fault is fatal for the
scheduler and contained for MEn, which then judges every refresh again, and for TSn, whose step starts anew.
R180: a bid that was posted 1,793 CTL cycles ago has a score above 7 × 256, and so outranks any holder of the
channel, as long as no queued read holds a PRI above 7.
Where the spec leaves it open, this rests on the model's choices in the log entries 9, 15, 16 and 156. -/
def Obligations.ContestGrantsAndWatchdogBites : Prop :=
  (∀ (s : State) (n : Fin 16) (wait : Nat), clocked s.fresh = true →
    let w := tick s.fresh wait
    let e := syncLines (blockYield (schedYieldAt w n (w.clk.cyc + 1)) n) n
    let b := bids e n
    let t := wr e (CH_ARB_STATE_TOP_SCORE n) (topScore b)
    let out := fun (r : Engine) => Answers (.arbContest n wait) s (wr r (CH_ARB_STATE_HOLD_PRIO n) (holdPrio r n))
    (holder e n = 0 →
      (b.me = some (topScore b) → out (syncLines (grantTo t n 2) n)) ∧
      (b.me ≠ some (topScore b) → b.ts = some (topScore b) → out (syncLines (grantTo t n 3) n)) ∧
      (b.me ≠ some (topScore b) → b.ts ≠ some (topScore b) → b.sched = some (topScore b) →
        out (syncLines (grantTo t n 1) n)) ∧
      (b.me = none → b.ts = none → b.sched = none → out t)) ∧
    (holder e n ≠ 0 →
      let p := decide (topScore b > holdPrio t n * 256) && preemptOk t n
      out (wr (mapArb t n fun a => { a with pend := if p then some (a.pend.getD t.clk.cyc) else none })
        (CH_ARB_STATE_PREEMPT_PEND n) (bit p)))) ∧
  (∀ (s : State) (n : Fin 16), clocked s.fresh = true →
    let e := tickTo s.fresh (wdSince s.fresh n + wdLimit s.fresh n)
    let flag := fun (f : Fld) => sqSet (dropGrant e n) (CH_ARB_STATUS n) [(f, 1)]
    (holder s.fresh n = 1 → Answers (.watchdogBite n) s (syncLines
      (raise (flag (CH_ARB_STATUS_WD_DATA n)) (0x20 + n) .fatal (synOf 0 0)) n)) ∧
    (holder s.fresh n = 2 → Answers (.watchdogBite n) s (syncLines
      (judgeAll (raise (flag (CH_ARB_STATUS_WD_MAINT n)) (0x30 + n) .contained
        (meBiteSyn (flag (CH_ARB_STATUS_WD_MAINT n)) n)) n) n)) ∧
    (holder s.fresh n = 3 → Answers (.watchdogBite n) s (syncLines
      (resetTrain (raise (flag (CH_ARB_STATUS_WD_TRAIN n)) (0x40 + n) .contained
        (synOf 2 (rd (flag (CH_ARB_STATUS_WD_TRAIN n)) (CH_TRN_STATE_STEP n) * 2 ^ 7))) n) n))) ∧
  (∀ (e : Engine) (n : Nat), n < 16 → (∀ r ∈ (getChan e n).rq, r.pri ≤ 7) →
    let a := (getChan e n).arb
    ∀ t, t + 1793 ≤ e.clk.cyc → (a.me = some t ∨ a.ts = some t ∨ nth a.park 0 none = some t ∨ nth a.park 1 none = some t) →
      1792 < topScore (bids e n) ∧ holdPrio e n * 256 < topScore (bids e n))

/-- R197: D of a physical rank is a signed number of five bits: what is written is read back, and no other rank's D moves. -/
def Obligations.DebtIsKeptPerRank : Prop :=
  ∀ (e : Engine) (n i j : Nat) (d : Int), i < 4 → j < 4 → -16 ≤ d → d ≤ 15 →
    debt (setDebt e n i d) n i = d ∧ (j ≠ i → debt (setDebt e n i d) n j = debt e n j)

namespace Sys2Proof.Machine

/-- The sum of the counts of a Row Guard table. -/
def countSum (t : List RgRow) : Nat := (t.map (·.count)).sum

/-- A table of Row Guard: at most 64 entries, no row twice. -/
def rgWf (t : List RgRow) : Prop := t.length ≤ 64 ∧ (t.map (·.row)).Nodup

end Sys2Proof.Machine

/-- R205 and the note to R210: an ACT leaves a table of at most 64 rows, adds 1 to the sum of its counts, and the row's
own entry then holds one more than it held, or one more than the lowest count where a full table did not hold it; no
other row's count changes except that of the entry replaced. The lowest count of a full table never exceeds the sum
divided by 64. -/
def Obligations.RowGuardCountsEveryActivation : Prop :=
  ∀ (row : Nat) (t : List RgRow), rgWf t →
    let u := rgCount row t
    rgWf u ∧ countSum u = countSum t + 1 ∧
    (∀ r ∈ t, r.row = row → { r with count := r.count + 1 } ∈ u) ∧
    ((∀ r ∈ t, r.row ≠ row) → t.length < 64 → ⟨row, 1, false, false⟩ ∈ u) ∧
    ((∀ r ∈ t, r.row ≠ row) → t.length = 64 → ⟨row, lowCount t + 1, false, false⟩ ∈ u) ∧
    (∀ r ∈ u, r.row ≠ row → r ∈ t) ∧
    (t.length = 64 → lowCount t * 64 ≤ countSum t)

/-- R194, R197, R198, R208: what the refresh schedule does. A tick adds 1 to D up to 15 and the rank is judged again; a
rank that no entry has addressed for IDLE_REF becomes due for an opportunistic refresh; the refresh operation issues
under MEn's grant; a deferred DRFM issues; and 16,384 credits end the Row Guard epoch of the rank.
R207, R213, R464: under MEn's grant, the mitigation of a pending bank and the RFMsb of a bank index whose count has
reached RAAIMT issue and release the channel; in IDLE a precharged rank that nothing addresses enters power-down, unless PDE_IDLE is 0.
R201–R203, R216, R219, R245: the temperature poll asks the hubs over the sideband and reads MR4 of every physical rank
under MEn's grant, and the in-band interrupt of a hub, which waits while a transaction is queued on its bus, updates the
channel's sources and its temperature state; the end of a millisecond reports the busy time, without what is still to come of it, and asks
for shedding exactly when the excess over the charge has changed.
R214, R240–R242: an alert starts with its uncertain window; its width classifies it as CA parity, back-off or
unidentified, which raises a contained fault; under URGENT each round of a back-off sends RFMab to every rank of the slot that serves, and after RFM_CNT rounds ACTs
are refused until TRFMAB has passed since the last;
and the parity recovery sends the error-clear word and PREab, replays the window and lifts the hold.
Where the spec leaves it open, this rests on the model's choices in the log entries 9, 11, 13, 72, 131, 132 and 133. -/
def Obligations.MaintenanceActs : Prop :=
  ((∀ (s : State) (n : Fin 16) (i : Fin 4), chanLive s.fresh n = true →
    let p := getPRank (getChan s.fresh n) i
    (rankServes s.fresh n i = true →
      let e := tick s.fresh (p.tickAt - s.fresh.clk.cyc)
      let m := mapPRank e n i fun p => { p with tickAt := nextTick e n i p.tickAt }
      Answers (.refreshTick n i) s (syncLines (judge (setDebt m n i (min 15 (debt m n i + 1))) n i) n)) ∧
    (rankServes s.fresh n i = true → on s.fresh (CH_REF_CTRL_REF_EN n) = true →
      rankQueued s.fresh (getChan s.fresh n) i = false →
      -(rd s.fresh (CH_REF_CTRL_PULL_MAX n) : Int) < debt s.fresh n i →
      Answers (.opportunisticRefresh n i) s (syncLines (mapPRank (tick s.fresh
        (p.lastUse + rd s.fresh (CH_REF_CTRL_IDLE_REF n) - s.fresh.clk.cyc)) n i fun p => { p with opp := true }) n)) ∧
    (let t := toGrant s.fresh n;
      holder s.fresh n = 2 → (rd s.fresh (CH_ARB_STATE_ME_KIND n) = 1 ∨ rd s.fresh (CH_ARB_STATE_ME_KIND n) = 5) →
      refreshWanted t n i = true →
      let w := wakeRank t n i
      (modeDiffers w n i = true → Answers (.refreshOperation n i) s (meDone (writeMode w n i) n)) ∧
      (modeDiffers w n i = false → on w (urgentF n i) = false →
        Answers (.refreshOperation n i) s (meDone (refreshCmd w n i) n)) ∧
      (modeDiffers w n i = false → on w (urgentF n i) = true →
        Answers (.refreshOperation n i) s (meDone (deferDrfm (refreshCmd w n i) n i
          (if gran (refreshCmd w n i) n = 2 then some (getPRank (getChan w n) i).unit else none)) n))) ∧
    (∀ (l : Loc), p.deferred = some l →
      let c := getChan s.fresh n
      let u := earliest (cidBits s.fresh) (getSub c l.sc).log (mkCmd s.fresh n .drfm l 0) (nowPhy s.fresh)
      heldAt s.fresh c l.rank u = false →
      Answers (.deferredCommand n i) s (syncLines (inc (mapPRank (insertAt s.fresh n l.sc .drfm l) n i fun p =>
        { p with deferred := none }) (CH_CNT_MIT n)) n)) ∧
    (p.credits ≥ 16384 → Answers (.rgEpochEnd n i) s (syncLines (putChan s.fresh n (mapBanks
      (putPRank (getChan s.fresh n) i { p with credits := p.credits - 16384 })
      ([0, 1].flatMap fun sc => rankBanks s.fresh n sc i) fun b => { b with rg := [], n := 0, capped := false })) n))) ∧
  (∀ (s : State) (n : Fin 16), chanLive s.fresh n = true →
    let t := toGrant s.fresh n
    let granted := holder s.fresh n = 2 ∧
      (rd s.fresh (CH_ARB_STATE_ME_KIND n) = 2 ∨ rd s.fresh (CH_ARB_STATE_ME_KIND n) = 5)
    (∀ (sc : Fin 2) (rank : Fin 16) (bg : Fin 8) (bank : Fin 4), granted →
      let l : Loc := ⟨n, sc, rank, bg, bank, 0, 0⟩
      canMitigate t n l = true → Answers (.mitigationOperation n sc rank bg bank) s
        (meDone (mitigate (wakeRank t n (prankIx s.fresh rank)) n l) n)) ∧
    (∀ (sc : Fin 2) (rank : Fin 16) (bank : Fin 4) (g : Fin 8), granted →
      let l : Loc := ⟨n, sc, rank, 0, bank, 0, 0⟩
      meMay t n (prankIx s.fresh rank) = true → on t (CH_RG_CTRL_RG_EN n) = true →
      on t (CH_RG_RFM_RFM_REQ n) = true →
      (bankAt (getChan t n) { l with bg := g }).raa ≥ rd t (CH_RG_RFM_RAAIMT n) →
      let w := wakeRank t n (prankIx s.fresh rank)
      let isOpen := (rankBanks w n sc (prankIx s.fresh rank)).any fun b =>
        b.bank == bank && (bankAt (getChan w n) b).row.isSome
      Answers (.rfmOperation n sc rank bank) s
        (meDone (inc (issueAt (if isOpen then issueAt w n sc .presb l else w) n sc .rfmsb l) (CH_CNT_RFM n)) n)) ∧
    (∀ (i : Fin 4), rankServes s.fresh n i = true → rd s.fresh PWR_STATE_STATE = 1 →
      rankOpen s.fresh n i none = false → rankQueued s.fresh (getChan s.fresh n) i = false →
      (getPRank (getChan s.fresh n) i).pd = false → rankFree s.fresh n i = true → rd s.fresh PWR_CTRL_PDE_IDLE ≠ 0 →
      let e := tick s.fresh (lastUsed s.fresh n i + rd s.fresh PWR_CTRL_PDE_IDLE - s.fresh.clk.cyc)
      Answers (.powerDownEntry n i) s
        (mapPRank (issueBoth e n .pde (rankLoc e n i 0)) n i fun p => { p with pd := true })))) ∧
  ((∀ (s : State) (n : Fin 16), clocked s.fresh = true →
    (∀ (temps : BitVec 16) (mr4 : BitVec 8), chanLive s.fresh n = true →
      ((getChan s.fresh n).mrrWant = false → Answers (.tempPoll n temps mr4) s (startPoll s.fresh n temps.toNat)) ∧
      ((getChan s.fresh n).mrrWant = true → holder s.fresh n = 2 → rd s.fresh (CH_ARB_STATE_ME_KIND n) = 1 →
        let t := toGrant s.fresh n
        let is := awakeRanks t n
        (∀ i ∈ is, rankFree t n i = true) →
        let r := is.foldl (fun e i => issueBoth (wakeRank e n i) n .mrr (rankLoc e n i 0)) t
        let v := putChan r n { getChan r n with mrrWant := false, mr4 := is.map fun i => (i, mr4.toNat / 2 ^ (2 * i) % 4) }
        Answers (.tempPoll n temps mr4) s (meDone (is.foldl (fun e i =>
          if mr4.toNat / 2 ^ (2 * i) % 4 ≥ 2 then thermCrit e n else e) (tempUpdate v n)) n))) ∧
    (∀ (bus : Fin 8) (hub : Fin 4) (x : BitVec 8), n.val = 2 * bus.val + hub.val / 2 → chanLive s.fresh n = true →
      ((getChan s.fresh (2 * bus.val)).i3c.queue = [] →
        Answers (.tempIbi bus hub x) s (tempTrigger (tempUpdate (putChan s.fresh n { getChan s.fresh n with
          hubs := tinsert (hub.val % 2) x.toNat (getChan s.fresh n).hubs }) n) n)) ∧
      ((getChan s.fresh (2 * bus.val)).i3c.queue ≠ [] →
        let c := getChan s.fresh (2 * bus.val)
        Answers (.tempIbi bus hub x) s (putChan s.fresh (2 * bus.val) { c with
          i3c := { c.i3c with ibis := c.i3c.ibis ++ [(hub.val, x.toNat)] } }))) ∧
    (let e := tickTo s.fresh ((getChan s.fresh n).busyAt + msUnits 1)
      let c := getChan e n
      let late := ((c.pranks.flatMap (·.busyTo)).map fun b => b - e.clk.cyc).sum
      let busy := c.busy - late
      let w := setReg (putChan e n { c with busy := late, busyAt := e.clk.nominal }) (CH_MNT_TIME n) (BitVec.ofNat 32 busy)
      let frac : Rat := (busy : Rat) / ((binRate e.clk.bin * 125 : Nat) * 2 * pranks w)
      let x := ratNat ((frac - (mntCharge w n (on w (CH_TEMP_STATE_HOT n)) : Rat) / 10000) * peakBw w)
      (x = rd w (QOS_DROP_EXCESS n) → Answers (.mntTimeInterval n) s w) ∧
      (x ≠ rd w (QOS_DROP_EXCESS n) → Answers (.mntTimeInterval n) s (shedAsk (wr w (QOS_DROP_EXCESS n) x))))) ∧
  (∀ (s : State) (n : Fin 16) (slot : Fin 2), chanLive s.fresh n = true → (slot = 1 → twoSlots s.fresh = true) →
    let c := getChan s.fresh n
    let now := s.fresh.clk.cyc
    (tlookup c.alerts slot = none → Answers (.alertAssert n slot) s
      (putAlert s.fresh n slot (some ⟨now, false, false, now - rd s.fresh (CH_TRN_CFG_PAR_WIN n), none, 0, none⟩))) ∧
    (∀ (a : Alert) (w : Nat), tlookup c.alerts slot = some a → a.parity = false →
      let lo := rd s.fresh (CH_RG_ABO_PW_MIN n) * 4
      let hi := rd s.fresh (CH_RG_ABO_PW_MAX n) * 64
      let e := tick s.fresh (a.at_ + min w hi - now)
      let i := (slotRanks e slot).headD 0
      (w < lo → Answers (.alertClassify n slot w) s (putAlert e n slot (some { a with
        parity := true, prior := none, winFrom := a.prior.elim a.winFrom fun p => min p.1 a.winFrom }))) ∧
      (lo ≤ w → w ≤ hi → Answers (.alertClassify n slot w) s (syncLines (inc (sqSet
        (putAlert (putAlert e n slot (restarted a)) n (slot + 2) (some { a with backoff := true, prior := none }))
        (CH_MNT_STATUS n)
        [(CH_MNT_STATUS_ABO n, 1), (CH_MNT_STATUS_PRANK n, i)]) (CH_CNT_ABO n)) n)) ∧
      (lo ≤ w → hi < w → Answers (.alertClassify n slot w) s (askLog (meFault (sqSet (putAlert e n slot (restarted a))
        (CH_MNT_STATUS n) [(CH_MNT_STATUS_ALERT_UNID n, 1), (CH_MNT_STATUS_PRANK n, i)]) n i
        (CH_MNT_STATUS_ALERT_UNID n)) n slot))) ∧
    (∀ (a : Alert), tlookup c.alerts (slot + 2) = some a → a.upto = none → holder s.fresh n = 2 →
      rd s.fresh (CH_ARB_STATE_ME_KIND n) = 5 →
      let t := toGrant s.fresh n
      (∀ i ∈ backoffRanks t n slot, meMay t n i = true) →
      let b := (backoffRanks t n slot).foldl (fun e i => closeRank (wakeRank e n i) n i) t
      let f := (backoffRanks t n slot).foldl (fun e i =>
        inc (issueBoth e n .rfmab (rankLoc e n i 0)) (CH_CNT_RFM n)) b
      (a.rounds + 1 < rd f (CH_RG_ABO_RFM_CNT n) → Answers (.alertBackoffRfm n slot) s (meDone
        (putAlert f n (slot + 2) (some { a with rounds := a.rounds + 1 })) n)) ∧
      (rd f (CH_RG_ABO_RFM_CNT n) ≤ a.rounds + 1 → Answers (.alertBackoffRfm n slot) s (meDone (askLog
        (putAlert f n (slot + 2) (some { a with
          rounds := a.rounds + 1, upto := some (lastRfmab f n + 4 * rd f (CH_TIM7_TRFMAB n)) })) n slot) n))) ∧
    (∀ (a : Alert), tlookup c.alerts slot = some a → a.parity = true →
      let e := tick (putAlert (parityReplay s.fresh n slot a) n slot none) 1
      Answers (.caParityRecovery n slot) s (syncLines (askLog (parityStorm (inc (sqSet e (CH_TRN_STATUS n)
        [(CH_TRN_STATUS_PAR_REPLAY n, 1)]) (CH_CNT_PAR n)) n slot) n slot) n))))

/-- R228: the chosen Vref code is a passing one whose narrowest range is widest, and among those of one width one
nearest the middle of the passing codes; there is none only where no code passes on every lane.
Where the spec leaves it open, this rests on the model's choices in the log entry 134. -/
def Obligations.CenteringChoosesTheWidestCode : Prop :=
  ∀ (codes : List (Fin 128 × List Range)),
    (chooseCode codes = none ↔ ∀ c ∈ codes, codeWidth c.2 = none) ∧
    (∀ c, chooseCode codes = some c →
      let vs := (codes.filter fun d => (codeWidth d.2).isSome).map fun d => d.1.val
      let far := fun (d : Fin 128 × List Range) =>
        (2 * (d.1.val : Int) - ((vs.min?.getD 0 : Nat) + (vs.max?.getD 0 : Nat))).natAbs
      c ∈ codes ∧ ∃ w, codeWidth c.2 = some w ∧
        ∀ d ∈ codes, ∀ v, codeWidth d.2 = some v → v ≤ w ∧ (v = w → far c ≤ far d))

/-- R227, R231, R233, R236: what TSn does. A training unit runs under the grant while it fits into the slice and no ACT
that it needs is refused, and then goes on, ends the slice or ends the run; what has to go before it (PDX, a read that is
issued again, a close, a saved line that goes back) is a unit of its own. The gap's end raises the line; an attempt of a Steep
step issues its commands, and completes or fails;
PERIOD asks for an online run; and the limits of Steep and of an offline run end them with TIMEOUT and FAIL, the offline run
behind its saved lines.
R234: the drift of a device is the change of its tree delay in steps, and a measurement that TRK_MS
makes due goes on under TSn's grant, where a unit starts the oscillators of a physical rank and another one reads the
counts at least 2,048 tCK later and takes over the shifts; the worked example of R234 drifts by
5 steps.
R224, R245, R251: a burst without a preamble whose window passes without an alert is reissued once, and goes on as
uncorrectable the second time; the sideband serves its requesters in turn, and firmware's transaction ends with DONE, and
with ERR where the hub does not acknowledge.
Where the spec leaves it open, this rests on the model's choices in the log entries 9, 62, 64, 65, 66, 134, 135, 136, 137, 153 and 154. -/
def Obligations.TrainingCommandsAct : Prop :=
  (∀ (s : State) (n : Fin 16) (sweeps : List Sweep) (vals : List LaneVal) (fail : Option LaneFail) (counts : BitVec 800),
    let e := s.fresh
    (chanLive e n = true → isSafe e = false → on e (CH_TRN_STATE_BUSY n) = true →
      rd e (CH_TRN_STATE_RUN_MODE n) ≠ 0 → holder e n = 3 → rankFree e n (rd e (CH_TRN_STATE_PRANK n)) = true →
      let step := rd e (CH_TRN_STATE_STEP n)
      let p := rd e (CH_TRN_STATE_PRANK n)
      let k := (getChan e n).train.units
      let g := toGrant e n
      let out := fun (r : Engine) => Answers (.trainingUnit n sweeps vals fail counts) s r
      let runs := fun (t : Engine) => (unitFits t n && !unitRefused t n step p k) = true
      (∀ x, unitPrep g n step p k = some x →
        let t := toPhy g (firstSlot g n (some (prepFirst g n x)))
        let r := prepRun s.dram t n x
        let q := tick r (t.clk.cyc + 32 - r.clk.cyc)
        (runs t → out (afterPrep (mapArb q n fun a => { a with wd := q.clk.nominal }) n)) ∧
        (¬ runs t → out (endSlice t n))) ∧
      (unitPrep g n step p k = none →
        let t := toUnit g n (rd e (CH_TRN_STATE_RUN_MODE n)) step p k
        let u := runUnit s.dram t n sweeps vals fail counts
        (runs t → u.2 = true → out (afterUnit u.1 n)) ∧
        (runs t → u.2 = false → out (endStop u.1 n .completed)) ∧
        (¬ runs t → out (endSlice t n)))) ∧
    (clocked e = true → isSafe e = false → on e (CH_TRN_STATE_BUSY n) = true →
      Answers (.sliceGapExpiry n) s (syncLines (tickTo e (getChan e n).train.gapUntil) n)) ∧
    (∀ (spd : Word) (lat : BitVec 8), clocked e = true → on e (CH_TRN_STATE_BUSY n) = true →
      rd e (CH_TRN_STATE_RUN_MODE n) = 0 → holder e n = 3 →
      let step := rd e (CH_TRN_STATE_STEP n)
      (step = 0 → spdWaits e n = false) →
      let ps := runRanks (getChan e n).train.pranks
      let m := steepMeasured (ps.foldl (steepCmds s.dram n step) (toGrant e n)) n step ps sweeps vals fail
      (∀ g, m.2 = some g → Answers (.steepStepComplete n sweeps vals fail counts spd lat) s (steepFailed m.1 n step g)) ∧
      (m.2 = none → Answers (.steepStepComplete n sweeps vals fail counts spd lat) s
        (steepPassed m.1 n step ps counts spd lat.toNat))) ∧
    (clocked e = true → on e (CH_TRN_STATE_BUSY n) = true → rd e (CH_TRN_STATE_RUN_MODE n) = 0 →
      Answers (.steepTimeout n) s
        (let t := tickTo e ((getChan e n).train.began + msUnits 1000)
        startPending (closeRun t n
          ((CH_TRN_STATUS_TIMEOUT n, 1) :: failFlags t n (rd t (CH_TRN_STATE_STEP n)) none)) n)) ∧
    (chanLive e n = true → isSafe e = false → on e (CH_TRN_CTRL_TRN_EN n) = true → Answers (.retrainPeriod n) s
      (trigger (tickTo e ((getChan e n).train.ended + msUnits (10 * rd e (CH_TRN_CTRL_PERIOD n)))) n onlineSteps)) ∧
    (clocked e = true → isSafe e = false → on e (CH_TRN_STATE_BUSY n) = true → rd e (CH_TRN_STATE_RUN_MODE n) = 2 →
      (getChan e n).train.stop = none → Answers (.offlineTimeout n) s
        (endStop (mapTrain (tickTo e ((getChan e n).train.began + msUnits 10)) n fun t => { t with probe := [] }) n .timeout))) ∧
  ((∀ (s : State) (n : Fin 16) (counts : BitVec 800), chanLive s.fresh n = true → isSafe s.fresh = false →
    on s.fresh (CH_TRN_CTRL_TRN_EN n) = true →
    let e := s.fresh
    ((getChan e n).train.track = none →
      let t := tickTo e ((getChan e n).train.drift + msUnits (rd e (CH_TRN_CTRL_TRK_MS n)))
      Answers (.driftMeasure n counts) s
        (syncLines (mapTrain t n fun x => { x with drift := t.clk.nominal, track := some (0, none) }) n)) ∧
    (∀ (p : Nat) (started : Option Nat), (getChan e n).train.track = some (p, started) → holder e n = 3 →
      steepRuns e n = false → rankFree e n p = true →
      (∀ x, (getChan e n).repair = some x → x.phase = 2 → prankIx e x.loc.rank ≠ p) →
      let w := wakeRank (toGrant e n) n p
      let fits := on e (CH_TRN_STATE_BUSY n) = false ∨ unitFits (toGrant e n) n = true
      (¬ fits → (∀ at_, started = some at_ → at_ + 2048 ≤ nowPhy (toGrant e n)) →
        Answers (.driftMeasure n counts) s (endSlice (toGrant e n) n)) ∧
      (fits → started = none →
        let t := issueBoth w n .mpc (rankLoc w n p 0)
        Answers (.driftMeasure n counts) s (driftDone t n (some (p, some (oscStart t n p))))) ∧
      (∀ at_, fits → started = some at_ → at_ + 2048 ≤ nowPhy (toGrant e n) →
        let r := issueBoth w n .mrr (rankLoc w n p 0)
        let t := commitShift (dqIdle (driftRank r n p (p == 0) counts) n) n p
        Answers (.driftMeasure n counts) s (driftDone t n (if p + 1 < pranks t then some (p + 1, none) else none))))) ∧
  (∀ (b c : Nat), b ≠ 0 → c ≠ 0 → (driftOf b c : Rat) - 1 / 2 ≤ (65536 : Rat) / c - 65536 / b ∧
    (65536 : Rat) / c - 65536 / b < driftOf b c + 1 / 2) ∧
  driftOf 400 388 = 5) ∧
  (∀ (s : State),
    (∀ (n : Fin 16) (sc : Fin 2) (r : RqEntry), oldestMiss (getChan s.fresh n) sc = some r →
      let e := toPhy s.fresh (r.issued.getD 0 + 4 * rd s.fresh (CH_TRN_CFG_PAR_WIN n))
      alertOf e (getChan e n) r.loc.rank = none →
      (r.again = false → Answers (.parWinExpiry n sc) s (syncLines (gateMiss e n r) n)) ∧
      (r.again = true → Answers (.parWinExpiry n sc) s (syncLines (secondMiss e n r) n))) ∧
    (∀ (b : Fin 8) (ack bad : Bool) (data : Word) (q : I3cReq),
      let m := 2 * b.val
      let x := (getChan s.fresh m).i3c
      i3cNext x = some q →
      let left := x.queue.erase q
      let now := if left.isEmpty then x.ibis else x.ibis.take 1
      let e := putChan s.fresh m { getChan s.fresh m with i3c :=
        { queue := left, last := q.who, ibis := if left.isEmpty then [] else x.ibis.drop 1 } }
      let n := m + (q.who - 2)
      let out := fun (r : Engine) => Answers (.i3cTransaction b ack bad data) s (now.foldl (hubIbi b) r)
      (q.kind = .host →
        let ok := ack && !spdShut e b
        let r := if ok && on e (CH_I3C_CMD_RNW b) && clocked e then setReg e (CH_I3C_DATA b) (i3cData e m data) else e
        out (setReg r (CH_I3C_CMD b) (setFields (reg r (CH_I3C_CMD b))
          [(CH_I3C_CMD_BUSY b, 0), (CH_I3C_CMD_DONE b, 1), (CH_I3C_CMD_ERR b, bit (!ok))]))) ∧
      (q.kind = .spd → out e) ∧
      (q.kind = .temp → out (if ack && chanLive e n then tempTrigger (hubRead e n q.slot q.value) n else e)) ∧
      (q.kind = .log →
        let i := (slotRanks e q.slot).headD 0
        out (if ack ∧ bad then meFault (sqSet e (CH_MNT_STATUS n)
          [(CH_MNT_STATUS_ALERT_UNID n, 1), (CH_MNT_STATUS_PRANK n, i)]) n i (CH_MNT_STATUS_ALERT_UNID n) else e))))

namespace Sys2Proof.Machine

/-- The bits of a slot that device `dev` carries, turned over by four symbols. -/
def deviceError (dev : Nat) (v : Fin 4 → BitVec 16) : Slot :=
  BitVec.ofNat 640 ((List.finRange 4).foldl (fun a q => a + symBits q.val dev (v q).toNat) 0)

end Sys2Proof.Machine

/-- R255, R257: any error confined to one device is corrected and reported at that device; under a mark of that
device it is corrected as the mark's, and under a mark of another device it is found, never passed on. -/
def Obligations.OneDeviceErrorIsCorrected : Prop :=
  ∀ (d : Line) (dev m : Fin 10) (v : Fin 4 → BitVec 16), (∃ q, v q ≠ 0) →
    let s := encodeSlot d ^^^ deviceError dev v
    (∃ cw, decodeSlot none s = .corrected (encodeSlot d) dev cw) ∧
    decodeSlot (some dev.val) s = .marked (encodeSlot d) dev ∧
    (m ≠ dev → ∃ cw, decodeSlot (some m.val) s = .second dev cw)

/-- R254, R255, R257: the slot that the engine stores decodes as clean, under any mark, and gives back its data; the
poisoned slot decodes as poisoned, and no single-symbol error leaves its pair of syndromes.
R255–R261, R264, R266: what a decoded slot does. A clean one changes nothing; a poisoned one is counted; a corrected
one counts as a corrected error and gives the slot for a write-back; one corrected within a mark counts only in CE_CNT;
an uncorrectable one and a second device count as such; and a write-back takes an entry only where the queue has room and the channel takes entries.
Where the spec leaves it open, this rests on the model's choices in the log entry 87. -/
def Obligations.StoredSlotIsDecodedAndCounted : Prop :=
  ((∀ (d : Line) (mark : Option Nat), decodeSlot mark (encodeSlot d) = .clean ∧ slotData (encodeSlot d) = d) ∧
  (∀ mark : Option Nat, decodeSlot mark poisonSlot = .poisoned) ∧
  (∀ (i v : Nat), i < 10 → v < 2 ^ 16 → v ≠ 0 → singlePos (v, gfAlphaN i v) = some i)) ∧
  (∀ (e : Engine) (n origin : Nat) (l : Loc) (s : Slot) (isM : Bool),
    let r := eccRead e n origin l s isM
    let out := decodeSlot (markOf e n l.rank l.sc) s
    (out = .clean → r = (e, ⟨.data (slotData s), none⟩)) ∧
    (out = .poisoned → r = (inc e (CH_CNT_POISON_RD n), ⟨.poison, none⟩)) ∧
    (∀ t dev cw, out = .corrected t dev cw → r.1 = countCe e n origin dev cw l ∧ r.2.fixed = some t) ∧
    (∀ t dev, out = .marked t dev → r.1 = satF e (CH_ECC_DEV_CE_CNT n l.rank l.sc dev) 1 ∧ r.2.fixed = none) ∧
    (∀ cw, out = .uncorrectable cw → r = (countUe e n origin 1 15 cw l isM, ⟨.ue, none⟩)) ∧
    (∀ dev cw, out = .second dev cw → r = (countUe e n origin 2 dev cw l isM, ⟨.ue, none⟩)) ∧
    (∀ newer, findWrite (getChan e n) l = none → newer = false → intakeOn e n = true → (getChan e n).wq.length < 192 →
      bankRoom (getChan e n) (rd e (CH_SPARGE_BANK_MAX n)) [l] = true →
      writeBack e n l s newer =
        inc (putChan e n (pushWrite e (getChan e n) none none false noLine l s e.clk.tb)) (CH_CNT_SCRUB_WB n)) ∧
    (∀ newer, newer = true ∨ findWrite (getChan e n) l ≠ none ∨ intakeOn e n = false ∨ 192 ≤ (getChan e n).wq.length ∨
      bankRoom (getChan e n) (rd e (CH_SPARGE_BANK_MAX n)) [l] = false → writeBack e n l s newer = e))

/-- R224, R260, R262–R265, R267, R269: the scrub commands. Under MEn's grant a due patrol operation reads its four slots and
advances, else the oldest commanded pass goes on; a slot found uncorrectable is read once more and then written back or
poisoned; a read whose burst had no preamble is issued again once its window has passed; the ECS counts of each device,
read by MRR under the grant, enter ECS_ERR; and the window counts restart.
R272, R276, R278: under MEn's grant of kind REPAIR a repair takes its next step, and the sparing copy moves line PTR
into the target's write queue, advances PTR and sets DONE after the last line, or waits at the target's intake
(R142); a spared channel whose queues are empty is taken out of service.
Where the spec leaves it open, this rests on the model's choices in the log entries 9, 52, 127, 148, 149, 151, 155 and 165. -/
def Obligations.ScrubAndRepairAct : Prop :=
  (∀ (s : State) (n : Fin 16),
    (holder s.fresh n = 2 → rd s.fresh (CH_ARB_STATE_ME_KIND n) = 3 →
      let t := toGrant s.fresh n
      (∀ (err : BitVec 2560) (miss : BitVec 8), scrubReady t n = true →
        let out := fun (y : Engine) => Answers (.scrubOperation n ⟨err, miss⟩) s (meDone y n)
        (∀ m, missDue t n 0 = some m →
          out (missAgain t n m fun e lost => scrubSlot e n m.loc (dramAt s.dram e m.loc ^^^ m.err) lost)) ∧
        (missDue t n 0 = none → patrolReady t n = true →
          out (patrolAdvance (scrubRun s.dram t n (patrolSlots t n) err miss) n)) ∧
        (missDue t n 0 = none → patrolReady t n = false → out (passOp s.dram t n err miss))) ∧
      (∀ (err : BitVec 640) (miss : BitVec 8) (r : Reread), rereadReady t n = true →
        let out := fun (y : Engine) => Answers (.ueReread n ⟨err, miss⟩) s (meDone y n)
        (∀ m, missDue t n 1 = some m → m.use = .reread r →
          out (missAgain t n m fun e lost => rereadEnd s.dram e n r m.err lost)) ∧
        (∀ rs, missDue t n 1 = none → (getChan t n).rereads = r :: rs →
          let u := putChan t n { getChan t n with rereads := rs }
          let v := meReads u n [r.loc] miss fun _ => (err, .reread r)
          ((r.cancelled = true ∨ findWrite (getChan t n) r.loc ≠ none) → out u) ∧
          (r.cancelled = false → findWrite (getChan t n) r.loc = none →
            (v.2 = [] → out (rereadEnd s.dram v.1 n r err false)) ∧ (v.2 ≠ [] → out v.1)))) ∧
      (∀ (e : Engine) (r : Reread) (err : Slot) (lost : Bool), findWrite (getChan e n) r.loc = none →
        let x := meDecode e n r.origin r.loc (dramAt s.dram e r.loc ^^^ err) lost
        (x.2.got = .ue → rereadEnd s.dram e n r err lost = writeBack x.1 n r.loc poisonSlot false) ∧
        (∀ f, x.2.got ≠ .ue → x.2.fixed = some f → rereadEnd s.dram e n r err lost = writeBack x.1 n r.loc f false) ∧
        (x.2.got ≠ .ue → x.2.fixed = none → rereadEnd s.dram e n r err lost = x.1))) ∧
    (∀ (counts : BitVec 5120), chanLive s.fresh n = true → on s.fresh (CH_SCRUB_CTRL_SCRUB_EN n) = true →
      ((getChan s.fresh n).ecsWant = false → Answers (.ecsPoll n counts) s (ecsDue s.fresh n)) ∧
      ((getChan s.fresh n).ecsWant = true → holder s.fresh n = 2 → rd s.fresh (CH_ARB_STATE_ME_KIND n) = 3 →
        let t := toGrant s.fresh n
        ecsReady t n = true →
        let rs := (List.range (2 ^ (gcfg t).k)).filter fun r => rankServes t n (prankIx t r)
        let e := rs.foldl (fun e r => [0, 1].foldl (fun e s => (List.range 10).foldl (fun e v =>
            wr e (CH_ECC_DEV_ECS_ERR n r s v) (min 255 (counts.extractLsb' (16 * ((r * 2 + s) * 10 + v)) 16).toNat)) e)
          (issueBoth (wakeRank e n (prankIx e r)) n .mrr ⟨n, 0, r, 0, 0, 0, 0⟩)) t
        Answers (.ecsPoll n counts) s (meDone (putChan e n { getChan e n with ecsWant := false }) n))) ∧
    (clocked s.fresh = true →
      let e := tickTo s.fresh ((getChan s.fresh n).winAt + msUnits (rd s.fresh (CH_ECC_CTRL_WIN_MS n)))
      Answers (.eccWindowRestart n) s (putChan e n { getChan e n with win := [], winAt := e.clk.nominal }))) ∧
  (∀ (s : State) (n : Fin 16),
    let t := toGrant s.fresh n
    (∀ (err : BitVec 2560) (miss : BitVec 8) (r : Repair), holder s.fresh n = 2 →
      rd s.fresh (CH_ARB_STATE_ME_KIND n) = 4 → (getChan t n).repair = some r → repairReady t n = true →
      Answers (.pprRepairStep n ⟨err, miss⟩) s (meDone (syncLines (repairStep s.dram t n r err miss) n) n)) ∧
    (∀ (err : BitVec 640) (miss : BitVec 8),
      let c := spareCfg s.fresh
      let g := gcfg s.fresh
      let l := unitLoc g c c.ptr
      let x := spareTarget g c c.ptr
      let out := fun (y : Engine) => AnswersWrite (.spareCopyLine ⟨err, miss⟩) s y
      c.failCh = n →
      (copyDue s.fresh n = true → copyRoom s.fresh x = false → out (capWait s.fresh x.ch x.sc none)) ∧
      (copyRoom s.fresh x = true → copyRuns s.fresh n = true → holder s.fresh n = 2 →
        rd s.fresh (CH_ARB_STATE_ME_KIND n) = 4 → copyReady t n = true →
        (∀ m, missDue t n 3 = some m → out (meDone (missAgain t n m fun e lost =>
          let y := copyRead s.dram e n m.loc m.err lost
          copyWrite s.dram y.1 n y.2) n)) ∧
        (missDue t n 3 = none →
          let w := copySlot s.dram t n l err miss
          (w.2 = none → out (meDone w.1 n)) ∧
          (∀ v, w.2 = some v → out (meDone (copyWrite s.dram w.1 n v) n))))) ∧
    (∀ (e : Engine) (v : Slot),
      let c := spareCfg e
      let g := gcfg e
      let x := spareTarget g c c.ptr
      let la := gristInv g (unitLoc g c c.ptr)
      let packed := isMetaLa e la == false && scBits (metaNow s.dram e (scLa e la) 1 0) la == 3
      let q := endCapWait (putChan e x.ch (pushWrite e (getChan e x.ch) none none packed la x v e.clk.tb)) none
      let p := sparePtr (copyPaced q n) (c.ptr + 1)
      let r := progressOpt p (spareTicket p) (c.ptr + 1)
      (c.ptr + 1 < unitLines g c → copyWrite s.dram e n v = r) ∧
      (unitLines g c ≤ c.ptr + 1 → copyWrite s.dram e n v = spareDone r)) ∧
    (∀ (err : BitVec 640) (miss : BitVec 8),
      let c := spareCfg s.fresh
      c.active = true → c.failCh = n → c.rankScope = false → unitLines (gcfg s.fresh) c ≤ c.ptr →
      isSafe s.fresh = false →
      on s.fresh (CH_SCHED_CTRL_SCHED_EN n) = true → (getChan s.fresh n).rq = [] → (getChan s.fresh n).wq = [] →
      (getChan s.fresh n).replay = [] → (getChan s.fresh n).repair = none →
      AnswersWrite (.spareCopyLine ⟨err, miss⟩) s (dropChannel s.fresh n)))

/-- R285–R287: a line that fits is encoded in 30 bytes that decode to exactly that line, and a packed slot opens to
exactly the two lines that it was made of, line 2k first. -/
def Obligations.PackedPairOpensToItsLines : Prop :=
  (∀ (d : Line) (f : List Nat), encodeField d = some f → f.length = 30 ∧ (∀ b ∈ f, b < 256) ∧ decodeField f = some d) ∧
  (∀ (a b p : Line), packPair a b = some p → unpackPair p = some (a, b)) ∧
  (∀ (a b : Line), (packPair a b).isSome = (fits a && fits b))

/-- R298: the decision table of the packer. A poisoned line never fits. -/
def Obligations.PackerDecidesByItsTable : Prop :=
  ∀ (k la : Nat) (pack poisoned : Bool) (a b : Cell), la = 2 * k ∨ la = 2 * k + 1 →
    let x := if la = 2 * k then a else b
    let y := if la = 2 * k then b else a
    let own : Decision := ⟨[(la, x)], 0, false, false⟩
    (cellFits x = false → decideSeparate la pack x (some y) = own) ∧
    (decideSeparate la pack x none = own) ∧
    (cellFits y = false ∨ pack = false → decideSeparate la pack x (some y) = own) ∧
    (∀ p, packCells a b = some p → pack = true →
      decideSeparate la pack x (some y) = ⟨[(2 * k, some p)], 3, true, false⟩) ∧
    (∀ p, packCells a b = some p → pack = true → poisoned = false →
      decidePacked (2 * k) pack poisoned a b = ⟨[(2 * k, some p)], 3, false, false⟩) ∧
    (cellFits x = false ∨ pack = false ∨ poisoned = true →
      decidePacked (2 * k) pack poisoned a b = ⟨[(2 * k, a), (2 * k + 1, b)], 0, false, true⟩)

/-- R21, R141, R297, R399: a channel in service releases up to two reads of its hold queues, takes the first write of its
queue that may go, and takes the reads that have returned for a write's merge and for a pair. The first write of a
separate pair that no read, entry, merge or rebuild stands before is decided alone, enters its write queue and is
completed.
R305, R331, R334, R357, R381: the oldest entry of the retry buffer whose cause is gone repeats its lookup, and where
none is nothing changes; the next placement push goes on; returned metadata is taken; a size-class slot is rebuilt
from the slots 2k of its pairs as they return, and written after the last; and a lost counter line is rebuilt line by
line through the write queues, under its parent's version and with all that lies beneath it.
Where the spec leaves it open, this rests on the model's choices in the log entries 83, 87, 141 and 142. -/
def Obligations.PackerAndMetadataAct : Prop :=
  (∀ (s : State) (n : Fin 16), isSafe s.fresh = false → clocked s.fresh = true →
    let look := fun (e : Engine) => syncLines (spargeLook e n) n
    (on s.fresh (CH_SCHED_CTRL_SCHED_EN n) = true →
      Answers (.qosRelease n) s (look (releaseOne (releaseOne s.fresh n) n)) ∧
      (∀ (ids : List Nat) (id : Nat) (t : Txn), tget [] s.fresh.qos.writes n = id :: ids →
        getTxn s.fresh id = some t →
        intakeShut s.fresh n = false →
        (∀ e, lookWrite s.dram s.fresh n t = .stop e → Answers (.writeQueueEntry n) s (look e)) ∧
        (∀ e, lookWrite s.dram s.fresh n t = .pass e →
          Answers (.writeQueueEntry n) s (look (lookWrites s.dram n e [t.req.la / 2 * 2, t.req.la / 2 * 2 + 1] ids))) ∧
        (∀ e, lookWrite s.dram s.fresh n t = .passLine e →
          Answers (.writeQueueEntry n) s (look (lookWrites s.dram n e [t.req.la] ids))) ∧
        (∀ (l : Loc) (e' : Engine),
          let e := s.fresh
          let la := t.req.la
          heldReads e n la = [] → earlierRead e t = false → gristTarget (gcfg e) (spareCfg e) la = .at l → pairEntry e la = none →
          mergeOfPair e la = false → rebuilding e la = false → pathLost e (txnRegion e t) la = false →
          pairBits e (txnRegion e t) la = some 0 → isPartial t.req = false →
          let k := decideSeparate la (txnRegion e t).pack (applyWrite t.req none)
            (queuedCell e (txnRegion e t) (if la % 2 = 0 then la + 1 else la - 1))
          tryDecision s.dram e t (txnRegion e t) k (la / 2 * 2) = .done e' →
          Answers (.writeQueueEntry n) s (look (completeWrite (leaveQos e' n t) (k.bits == 3) false t.id))))) ∧
    (∀ (t : Txn) (r : Ret), returnedMerge s.fresh = some (t, r) →
      Answers .mergeReadReturn s (syncLines (spargeLook (retryWaits (mergeReturn s.dram s.fresh t r)) t.ch) t.ch)) ∧
    (∀ (q : PairEnt) (r : Ret), returnedPair s.fresh = some (q, r) →
      Answers .partnerReadReturn s (syncLines (spargeLook (partnerReturn s.dram s.fresh q r) q.ch) q.ch))) ∧
  (∀ (s : State),
    (∀ (x : Fin 262144), clocked s.fresh = true → isSafe s.fresh = false →
      ((∀ t ∈ retryEntries s.fresh x, causeGone s.fresh t = false) → Answers (.retryRelease x) s s.fresh) ∧
      (∀ (before after : List Txn) (t : Txn), retryEntries s.fresh x = before ++ t :: after →
        (∀ u ∈ before, causeGone s.fresh u = false) → causeGone s.fresh t = true →
        let w := wayMet s.fresh t.req.la
        let u := { t with stage := .formed }
        let e := delTxn w.1 t.id
        Answers (.retryRelease x) s (if w.2 then w.1 else lookup3 { e with txns := e.txns ++ [u] } u))) ∧
    (∀ (t : Txn) (ts : List Txn),
      s.fresh.txns.filter (fun t => t.stage == .push && !pushFlies s.fresh t.id) = t :: ts →
      (∀ r, s.fresh.pack.rets.find? (fun r => r.use == .push t.id) = some r →
        Answers .placementPush s (pushReturn s.fresh t r)) ∧
      (s.fresh.pack.rets.find? (fun r => r.use == .push t.id) = none → Answers .placementPush s (placeRead s.fresh t))) ∧
    (∀ (r : Ret) (rs : List Ret) (e : Engine), s.fresh.pack.rets.filter (fun r => r.use == .metaRead) = r :: rs →
      metaTake (takeRet s.fresh r) r.la r.got = some e → Answers .metadataReadReturn s (retryWaits (pumpMeta e))) ∧
    (∀ k : Fin 257, let e := rebuildTakes (rebuildAsk k (rebuildTakes (rebuildStart s.fresh)))
     ∀ (b : Rebuild), e.pack.rebuild = some b →
      let sla := dataTop (gcfg e) + b.slot
      (b.left ≠ [] → Answers (.sizeClassRebuild k) s e) ∧
      (b.left = [] → (metaFit e sla).full = none → (metaFit e sla).cap = none → lineHeld e sla = false →
        let p := mapPack (endCapWait (putMeta e sla 1 0 0 b.bits) none) fun p => { p with
          rebuilds := p.rebuilds.filter (· != b.slot), rebuild := none }
        let f := sqSet p GC_PACK_STATUS
          ((GC_PACK_STATUS_REBUILD, 1) :: if b.bad then [(GC_PACK_STATUS_REBUILD_POISON, 1)] else [])
        let e := inc (wr f GC_PACK_LAST_SC_SLOT b.slot) GC_CNT_PK_REBUILD
        Answers (.sizeClassRebuild k) s (retryWaits (bitsArrived e (dataTop (gcfg e) + b.slot) b.bits)))) ∧
    (∀ (e : Engine) (b : Rebuild) (r : Ret) (i : Nat), e.pack.rebuild = some b → r.use = .rebuild i →
      let g := regionNow e r.la
      let taken := fun (e : Engine) (x : Nat) (bad : Bool) => mapPack (takeRet e r) fun p => { p with
        rebuild := some { b with left := b.left.filter (· != i), bits := setScBits b.bits r.la x, bad := b.bad || bad } }
      (∀ y, openSlot e g r.la none r.got = .line y →
        rebuildTake e r = taken e (if (unpackPair y).isSome then 3 else 0) false) ∧
      (openSlot e g r.la none r.got = .poison → rebuildTake e r = taken e 3 true) ∧
      (openSlot e g r.la none r.got = .bad → rebuildTake e r = taken (integrityFail e g) 3 true)) ∧
    (∀ (l n : Nat), s.fresh.sec.ctrTasks = [] → nextLost s.fresh = some (l, n) → hasAgreed s.fresh 8 = false →
      Answers .counterRebuild s (ctrWrite { s.fresh with sec := { s.fresh.sec with
        ctrTasks := [.node l n (parentNow s.dram s.fresh l n)], lostCtr := lostBeyond s.fresh l n } })) ∧
    (∀ (k : CtrTask) (ts : List CtrTask), s.fresh.sec.ctrTasks = k :: ts → Answers .counterRebuild s (ctrWrite s.fresh)) ∧
    (∀ (e : Engine) (k : CtrTask) (ts : List CtrTask), e.sec.ctrTasks = k :: ts →
      let fits := fun (la : Nat) => (metaFit e la).full = none ∧ (metaFit e la).cap = none ∧ lineHeld e la = false
      let v := endCapWait e none
      let ends := fun (u : Engine) => ctrWrite e =
        if u.sec.ctrTasks.isEmpty then retryWaits (sqSet u CRY_STATUS [(CRY_STATUS_REBUILD, 1)]) else u
      (∀ l n pv, k = .node l n pv → fits (nodeLa e l n) →
        let x := rebuiltLine v
        let u := { v with sec := { v.sec with rebuild := v.sec.rebuild + 1, ctrTasks := ctrChildren v l n x ++ ts } }
        ends (queueMeta u (nodeLa e l n) 3 l pv x)) ∧
      (∀ la, k = .slot la → fits la →
        ends (queueSlot { v with sec := { v.sec with ctrTasks := ts } } la poisonSlot v.clk.tb))))

/-- R15, R316: the protection check denies a request exactly where no region of the current version covers its line, its
CTX is not the region's, its agent lacks the right that the request needs (read and write for a write, and for REQ_ST = M (2)
of a request other than MemRdData, whose REQ_ST is not looked at; else read), or the TARGET of a PlaceWr lacks read. The right 0b10 is none. -/
def Obligations.ProtectionCheckDenies : Prop :=
  ∀ (e : Engine) (r : Req),
    let b := bankOf e (curVer e)
    let can := fun (g : Region) (a : Nat) => rightOf b g.agset a = 1 ∨ rightOf b g.agset a = 3
    let canW := fun (g : Region) (a : Nat) => rightOf b g.agset a = 3
    let writes := r.op = .memWr ∨ r.op = .memWrPtl ∨ r.op = .placeWr ∨ (r.reqSt = 2 ∧ r.op ≠ .memRdData)
    (∀ s a, tget 0 b.rights (4096 * s + a) < 4) →
    (denied e r = true ↔ regionOf e (curVer e) r.la = none ∨
      ∃ g, regionOf e (curVer e) r.la = some g ∧ (g.ctx ≠ r.ctx ∨ (writes ∧ ¬ canW g r.agent) ∨
        (¬ writes ∧ ¬ can g r.agent) ∨ (r.op = .placeWr ∧ ¬ can g r.target)))

/-- R288, R325, R328: the bits of a pair in a size-class slot, a MAC of a MAC line and a minor of a counter line are read
back as they were written, and no other of the slot changes. -/
def Obligations.MetadataFieldsAreSeparate : Prop :=
  ∀ (d : Line) (v : Nat),
    (∀ la mb, scBits (setScBits d la v) mb = if la % 512 / 2 = mb % 512 / 2 then v % 4 else scBits d mb) ∧
    (∀ p q, p < 9 → q < 9 → macAt (setMacAt d p v) q = if p = q then v % 2 ^ 56 else macAt d q) ∧
    (∀ p, p < 9 → checkByte (setMacAt d p v) = checkByte d) ∧
    (∀ p q, p < 64 → q < 64 → minorOf (setMinor d p v) q = if p = q then v % 128 else minorOf d q) ∧
    (∀ p, p < 64 → majorOf (setMinor d p v) = majorOf d ∧ checkByte (setMinor d p v) = checkByte d) ∧
    (∀ p, p < 64 → majorOf (rebased d) = (majorOf d + 1) % 2 ^ 56 ∧ minorOf (rebased d) p = 0 ∧
      checkByte (rebased d) = 0)

/-- R329: the version of a Fresh line never repeats while its leaf's major counter stays below its last value: advancing a
minor below 127 adds 1 to the version, and a rebase takes every version of the line above all that it has held. -/
def Obligations.VersionsNeverRepeat : Prop :=
  ∀ (d : Line) (p q : Nat), p < 64 → q < 64 →
    (minorOf d p < 127 → verOf (setMinor d p (minorOf d p + 1)) p = verOf d p + 1 ∧
      (q ≠ p → verOf (setMinor d p (minorOf d p + 1)) q = verOf d q)) ∧
    (majorOf d + 1 < 2 ^ 56 → verOf d q < verOf (rebased d) q)

/-- R317: a committed table goes into the other bank, which becomes current with the next version, while the bank of the
version before stays as it was; DRAINING is set. -/
def Obligations.TableCommitSwitchesBanks : Prop :=
  ∀ (e : Engine) (b : ProtBank), e.sec.banks.length = 2 →
    let c := commitTable e b
    curVer c = (curVer e + 1) % 65536 ∧ bankOf c (curVer c) = b ∧ bankOf c (curVer e) = bankOf e (curVer e) ∧
    on c CRY_PT_VER_DRAINING = true

/-- R53, R312, R320: a raw sample that the health tests pass joins the block, which 32 samples condition; a fourth equal
sample, or a thirteenth of one value in a window, raises a contained fault of source 0x06, and the samples of the test are
discarded, with every conditioned block that holds one of them; three conditioned blocks seed
the DRBG or serve the work or the context creation that waits for a key; a CTX_CREATE that has waited 10 ms ends with BUSY;
and the recovery from a zeroization ends the work in hand with ABORTED and commits an empty table.
Where the spec leaves it open, this rests on the model's choices in the log entries 69, 70, 122, 138 and 164. -/
def Obligations.SecurityHardwareActs : Prop :=
  ∀ (s : State), clocked s.fresh = true →
    let e := s.fresh
    (∀ (x : BitVec 16), entReady e = true →
      let rep := match e.sec.rct with
        | some (v, n) => if v = x then n + 1 else 1
        | none => 1
      let h := match e.sec.apt with
        | some (v, _, h) => if v = x then h + 1 else h
        | none => 1
      let w := match e.sec.apt with
        | some (_, n, _) => n + 1
        | none => 1
      let blocks := fun (n : Nat) => (n - 1 - e.sec.raw.length + 31) / 32
      let bad := fun (test n : Nat) => Answers (.entropySample x) s (raise
        (mapSec e fun s => { s with
          raw := [], cond := s.cond.take (s.cond.length - blocks n), rct := none, apt := none, healthy := false })
        6 .contained (synOf 0xFF test))
      (4 ≤ rep → bad 0 rep) ∧ (rep < 4 → 13 ≤ h → bad 1 w) ∧
      (rep < 4 → h < 13 → ∃ t, Answers (.entropySample x) s t ∧
        t.sec.raw = (if 31 ≤ e.sec.raw.length then [] else e.sec.raw ++ [x]) ∧
        t.sec.cond = (if 31 ≤ e.sec.raw.length then e.sec.cond ++ [conditionBlock (e.sec.raw ++ [x])] else e.sec.cond) ∧
        t.regs = e.regs)) ∧
    (seedReady e = true →
      (keyWork e = true → Answers .drbgReseed s (secContinue e)) ∧
      (∀ tk ctx at_ rest, keyWork e = false → e.sec.waitKey = (tk, ctx, at_) :: rest → pairRuns e 1 = true →
        let g := mapSec e fun s => { s with waitKey := rest }
        Answers .drbgReseed s (finish (activate (genKeys g ctx) ctx) tk stOk 0 [])) ∧
      (keyWork e = false → e.sec.waitKey = [] → e.sec.drbg.seeded = false ∨ 65536 ≤ e.sec.drbg.count →
        Answers .drbgReseed s (drbgReseed e))) ∧
    (∀ tk ctx at_ rest, e.sec.waitKey = (tk, ctx, at_) :: rest → ctx ≠ 0 → Answers .entropyWaitExpiry s
      (finish (mapSec (tickTo e (at_ + msUnits 10)) fun s => { s with waitKey := rest }) tk stBusy 0 [])) ∧
    (let c := secContinue e
     let r := match workTicket c with
       | some t => finish c t stAborted 0 []
       | none => c
     pairRuns c 1 = true → isSafe c = false → c.sec.zeroized = true → on c CRY_PT_VER_DRAINING = false →
     (∀ w, c.sec.work ≠ some (.zeroize w)) → c.sec.work ≠ some .zeroizing →
     Answers .zeroizeRecovery s (mapSec (commitTable r { bankOf r (curVer r) with regions := [] }) fun s => { s with
       work := some (.zeroize false), memRuns := [], line := none }))

/-- R344: the set and the tag of a line address below 2^38 name the line, and a set with a tag names one line address. -/
def Obligations.SetAndTagNameTheLine : Prop :=
  (∀ la, la < 2 ^ 38 → lineOf (setOf la) (tagOf la) = la ∧ setOf la < 2 ^ 18 ∧ tagOf la < 2 ^ 20) ∧
  (∀ set tag, set < 2 ^ 18 → tag < 2 ^ 20 →
    setOf (lineOf set tag) = set ∧ tagOf (lineOf set tag) = tag ∧ lineOf set tag < 2 ^ 38)

namespace Sys2Proof.Machine

/-- R371: a holder in M is the line's only holder, and no agent is recorded twice. -/
def OneWriter (hs : List Holder) : Prop :=
  (hs.map (·.agent)).Nodup ∧ ∀ h ∈ hs, h.m = true → hs = [h]

/-- The holders of a line after a plan of R375: the snooped holders have answered BIRspI, or BIRspS to a BISnpData, and
the requester's record is dropped, or made in the state of its grant. -/
def heldAfter (p : Plan) (a gen : Nat) (cacheless : Bool) (hs : List Holder) : List Holder :=
  let left := if p.data then hs.map fun h => if h.agent ∈ p.snoop then { h with m := false } else h
    else hs.filter fun h => h.agent ∉ p.snoop
  if cacheless then left
  else if p.grant = 0 then (if p.drop then left.filter fun h => h.agent ≠ a else left)
  else (left.filter fun h => h.agent ≠ a) ++ [⟨a, p.grant == 2, gen⟩]

/-- A class 1 packet that the directory takes. -/
def TakesBi (s : State) (p a : Nat) : Prop :=
  CanArrive s p 1 ∧ isSafe s.fresh = false ∧ (getEnroll s.fresh a).dead = false

end Sys2Proof.Machine

/-- R371, R375, R376: whatever a class 3 request asks of a line with at most one writer, its grant leaves the line with at
most one writer: M is granted only after every other copy is gone, S only after a writer has been downgraded, and a
requester that is not enrolled is granted nothing. -/
def Obligations.GrantsKeepOneWriter : Prop :=
  ∀ (op : ReqOp) (st a gen : Nat) (cacheless : Bool) (hs : List Holder), OneWriter hs → isClass3 op = true →
    let p := planOf op st a cacheless hs
    OneWriter (heldAfter p a gen cacheless hs) ∧
    (∀ b ∈ p.snoop, (∃ h ∈ hs, h.agent = b) ∧ (cacheless = false → b ≠ a)) ∧
    (cacheless = true → p.grant = 0)

/-- R384, R385: BIRspI and BIRspS end the outstanding snoop that they match, BIRspS to a BISnpInv with WRONG_RSP; a
matching BIConflict is acknowledged and ends nothing; without a match each raises BAD_BITAG; the other four class 1
packets are discarded with UNSOLICITED. The packet's credit is due again at once (R87).
R349, R353, R361: a snoop that reaches its limit declares its agent dead; a reclaim walk drops the agent from one set
and goes on to the next, or ends after the last; an unenroll walk snoops one set, and stays at it while an eviction entry
or a line is not free; a walk whose set shows an uncorrectable way error (R365) does no more in that step; and the end of the initialisation leaves every way free and DIR_EN set.
Where the spec leaves it open, this rests on the model's choices in the log entries 9, 17, 19 and 142. -/
def Obligations.DirectoryAnswersAndWalks : Prop :=
  (∀ (s : State) (p : Fin 128) (a : Fin 4096) (g : BitVec 12), TakesBi s p a →
    let e := creditDue (useCredit s.fresh p 1) p 1
    let bad := protoFault e DIR_PROTO_STATUS_BAD_BITAG a
    let odd := protoFault e DIR_PROTO_STATUS_UNSOLICITED a
    (∀ sn, matchSnoop e p a g.toNat = some sn →
      Answers (.biRspI p a g) s (endSnoop e sn false) ∧
      (sn.inv = false → Answers (.biRspS p a g) s (endSnoop e sn true)) ∧
      (sn.inv = true → Answers (.biRspS p a g) s (protoFault (endSnoop e sn false) DIR_PROTO_STATUS_WRONG_RSP a)) ∧
      Answers (.biConflict p a g) s (conflictAck e p a g.toNat)) ∧
    (matchSnoop e p a g.toNat = none →
      Answers (.biRspI p a g) s bad ∧ Answers (.biRspS p a g) s bad ∧ Answers (.biConflict p a g) s bad) ∧
    Answers (.biRspE p a g) s odd ∧ Answers (.biRspIBlk p a g) s odd ∧ Answers (.biRspSBlk p a g) s odd ∧
    Answers (.biRspEBlk p a g) s odd) ∧
  (∀ (s : State), clocked s.fresh = true →
    let e := s.fresh
    (∀ (g : BitVec 12) sn, isSafe e = false → e.dir.snoops.find? (fun x => x.tag == some g.toNat) = some sn →
      Answers (.biTimeout g) s (semAbandonAll (declareDead (tickTo e (sn.since + sn.limit)) sn.agent) 0 sn.agent 3)) ∧
    (∀ w, isSafe e = false → walkNow e false = some w →
      let m := wayMet (tick e 1) (lineOf w.set 0)
      let r := reclaimSet m.1 w
      let next := fun (x : Walk) =>
        let y := { x with set := x.set + 1 }
        if 2 ^ 18 ≤ y.set then reclaimEnd (putWalk r x y) y else putWalk r x y
      Answers .reclaimWalkStep s (if m.2 then m.1 else (walkNow r false).elim r next)) ∧
    (∀ w, isSafe e = false → walkNow e true = some w → w.set < 2 ^ 18 →
      let m := wayMet (tick e 1) (lineOf w.set 0)
      let r := unenrollSet m.1 w
      let on := putWalk r.1 w { w with set := w.set + 1 }
      let next := fun (t : Ticket) =>
        let p := setProgress on t.id (w.set + 1)
        if w.set + 1 = 2 ^ 18 then declare p t.id else p
      Answers .unenrollWalkStep s
        (if m.2 then m.1 else if r.2 then (unenrollTicket on w.agent).elim on next else r.1)) ∧
    (∀ t, e.dir.initEnd = some t →
      let d := tick e (t - e.clk.cyc)
      Answers .dirInitComplete s (wr { d with dir := { d.dir with sets := [], initEnd := none } } DIR_CTRL_DIR_EN 1)))

/-- R409, R410: when shares that the classes hold in a channel exceed 0.9 of its current capacity, the shedding walk cuts
them to exactly that: no class loses more than its share, a class outside the shed set loses nothing, and SHORT is what
the shares exceed. A class sheds only after every less guaranteed group has lost all its share.
Where the spec leaves it open, this rests on the model's choices in the log entry 89. -/
def Obligations.ShedCutsFitTheCapacity : Prop :=
  ∀ (share : Nat → Rat) (cNow : Nat), (∀ c, 0 ≤ share c) →
    let r := shedWalk share cNow
    let cut := fun c => nth r.cuts c 0
    let total := fun (f : Nat → Rat) => (List.range 8).foldl (fun a c => a + f c) 0
    let spare := 9 / 10 * (cNow : Rat)
    (∀ c < 8, 0 ≤ cut c ∧ cut c ≤ share c ∧ (c ∉ r.set → cut c = 0)) ∧
    r.short = max 0 (total share - spare) ∧
    total (fun c => share c - cut c) = total share - r.short ∧
    (0 < cut 0 → ∀ c < 8, 1 ≤ c → cut c = share c) ∧
    (∀ c < 4, 1 ≤ c → 0 < cut c → ∀ d < 8, 4 ≤ d → cut d = share d) ∧
    (∀ c < 8, ∀ d < 8, 4 ≤ c → c < d → 0 < cut c → cut d = share d)

/-- R398, R401: a charge never takes a bucket above BURST; it takes G where G covers it, else X where X covers it, and
where neither does G, which never falls below -BURST.
Where the spec leaves it open, this rests on the model's choices in the log entry 89. -/
def Obligations.BucketsStayWithinBurst : Prop :=
  ∀ (e : Engine) (c ch : Nat) (a : Rat), 0 ≤ a →
    let b := refill e c ch
    let r := chargeBucket e c ch a
    let b' := getBucket r.1 c ch
    b.g ≤ depth e c ∧ b.x ≤ depth e c ∧ b'.x ≤ b.x ∧ (- depth e c ≤ b.g → - depth e c ≤ b'.g ∧ b'.g ≤ b.g) ∧
    (a ≤ b.g → r.2 = .g ∧ b'.g = b.g - a ∧ b'.x = b.x ∧ 0 ≤ b'.g) ∧
    (b.g < a → a ≤ b.x → r.2 = .x ∧ b'.x = b.x - a ∧ b'.g = b.g ∧ 0 ≤ b'.x) ∧
    (b.g < a → b.x < a → - depth e c ≤ b.g → r.2 = .none ∧ b'.g = max (- depth e c) (b.g - a) ∧ b'.x = b.x)

/-- R418: after any stream of fewer than 2^24 samples, the hotlist has at most 4,096 entries, the true count of a listed
page lies between COUNT - ERR and COUNT, and every page with more than floor(S / 4,096) of the S samples is listed. -/
def Obligations.HotlistBoundsTheTrueCount : Prop :=
  ∀ (ps : List Nat), ps.length < 2 ^ 24 →
    let l := ps.foldl hotUpdate []
    l.length ≤ 4096 ∧ (l.map (·.page)).Nodup ∧
    (∀ h ∈ l, h.count ≤ ps.count h.page + h.err ∧ ps.count h.page ≤ h.count) ∧
    (∀ p, ps.length / 4096 < ps.count p → ∃ h ∈ l, h.page = p)

/-- R146, R397, R409, R411, R418, R419: a recomputation that was asked for runs once; at TB's next tick every held or queued
read takes its PRI; in the next CTL cycle the entries that have reached AGE_CAP are promoted; the hotlist takes the
oldest sample; an epoch that ends makes the live list the unsorted snapshot of its number and starts the next with an
empty list; and the sorted snapshot holds the same entries.
Where the spec leaves it open, this rests on the model's choices in the log entries 9 and 20. -/
def Obligations.RegulatorsAndTelemetryAct : Prop :=
  ∀ (s : State), clocked s.fresh = true →
    let e := s.fresh
    (e.qos.shedDue = true → Answers .shedRecompute s (shedRecompute e)) ∧
    Answers .priRampUpdate s (rampUpdate (nextTbs e)) ∧
    (∀ n : Fin 16, Answers (.agePromote n) s (promoteScan (tick e 1) n)) ∧
    (on e TEL_CTRL_TEL_EN = true →
      (∀ p rest, e.tel.fifo = p :: rest → Answers .hotlistUpdate s { e with tel := { e.tel with
        fifo := rest, live := hotUpdate e.tel.live p, samples := e.tel.samples + 1 } }) ∧
      (let d := tickTo e (e.tel.epochAt + msUnits (rd e TEL_CTRL_EPOCH_MS))
       Answers .epochEnd s (epochEnd d) ∧ (epochEnd d).tel.snap = e.tel.live ∧ (epochEnd d).tel.live = [] ∧
        (epochEnd d).tel.epoch = e.tel.epoch + 1 ∧ (epochEnd d).tel.snapEpoch = e.tel.epoch ∧
        on (epochEnd d) TEL_HOT_STATE_SORTED = false)) ∧
    (pairRuns e 0 = true → 0 < e.tel.epoch → on e TEL_HOT_STATE_SORTED = false →
      Answers .hotlistSortDone s (wr { e with tel := { e.tel with snap := hotSort e.tel.snap } } TEL_HOT_STATE_SORTED 1) ∧
      (hotSort e.tel.snap).Perm e.tel.snap ∧ (hotSort e.tel.snap).Pairwise fun a b => hotBefore a b = true)

/-- R433, R440, R441: the table's STEP and REM are 128 root periods; TBS cycles advance nominal time by exactly that much,
with no rounding error, however they are counted; a slew leaves TB at least 15/16 of its nominal advance, so TB never
decreases. -/
def Obligations.TimebaseFollowsTheReference : Prop :=
  (∀ bin rem n, rem < binRate bin →
    (nominalAdvance bin rem n).1 * binRate bin + (nominalAdvance bin rem n).2 = n * (128000 * 2 ^ 24) + rem ∧
    (nominalAdvance bin rem n).2 < binRate bin) ∧
  (∀ (c : Clk) (m n : Nat), c.rem < binRate c.bin → c.slew = 0 → c.tb < 2 ^ 88 →
    clkCycles (clkCycles c m) n = clkCycles c (m + n)) ∧
  (∀ (c : Clk) (n : Nat), c.tb + 2 * (nominalAdvance c.bin c.rem n).1 < 2 ^ 88 →
    15 * (nominalAdvance c.bin c.rem n).1 ≤ 16 * ((tbsCycles c n).tb - c.tb) ∧ c.tb ≤ (tbsCycles c n).tb ∧
    (tbsCycles c n).nominal = c.nominal + (nominalAdvance c.bin c.rem n).1)

/-- R442, R444, R446: an estimate more than STEP_TH ahead, or any ahead while the epoch is invalid, is applied as a jump;
another starts a slew of the difference and leaves TB as it is; neither moves nominal time, which timers count. A wake
adds Kiln's ticks since the root stopped, times PERIOD, to TB and to nominal time, and their uncertainty and 64 ns to
the stored bound.
R445: a calibration window sets PERIOD to the TB that 16,384 ticks took, and CAL_VALID; a result outside 800-1,250 ns
leaves PERIOD, sets KILN_BAD and raises the contained fault of source 0x0B; a window in which TB jumped or slewed, or the
root stood still, is discarded.
Where the spec leaves it open, this rests on the model's choices in the log entry 8. -/
def Obligations.EstimatesSleepAndKilnMoveTime : Prop :=
  ((∀ (e : Engine) (est u : Nat), est < 2 ^ 88 →
    let d : Int := (est : Int) - e.clk.tb
    let a := applyEstimate e est u
    a.clk.uncert = u ∧ a.clk.epochInvalid = false ∧ a.clk.nominal = e.clk.nominal ∧
    ((rd e PWR_TB_CFG_STEP_TH * nsUnit : Nat) < d ∨ e.clk.epochInvalid = true ∧ 0 < d →
      a.clk.tb = est ∧ a.clk.slew = 0 ∧ on a PWR_TB_STATE_STEPPED = true) ∧
    (d ≤ (rd e PWR_TB_CFG_STEP_TH * nsUnit : Nat) → (e.clk.epochInvalid = true → d ≤ 0) →
      a.clk.tb = e.clk.tb ∧ a.clk.slew = d ∧ a.regs = e.regs)) ∧
  (∀ (e : Engine),
    let count := (e.clk.kiln + 2 ^ 48 - e.clk.kilnStop) % 2 ^ 48
    let adv := count * rd e PWR_KILN_PER_PERIOD
    let w := sleepAdvance e
    w.clk.tb = (e.clk.tbStop + adv * 256) % 2 ^ 88 ∧ w.clk.nominal = e.clk.nominal + adv * 256 ∧
    w.clk.uncert = e.clk.uncert + (adv * rd e PWR_TB_CFG_UNC_PPM + 65536 * 1000000 - 1) / (65536 * 1000000) + 64 ∧
    w.clk.root = .locked ∧ w.clk.lastSleep = count ∧ on w PWR_TB_STATE_WOKE = true)) ∧
  (∀ (s : State) (n : Nat), s.fresh.pins.supply = true → s.fresh.pins.porst = false →
    let e := tick s.fresh n
    let per := (e.clk.tb - e.clk.winTb) / 2 ^ 22
    let next := fun (x : Engine) (d : Bool) => mapClk x fun c => { c with
      kiln := (c.kiln / 16384 + 1) * 16384 % 2 ^ 48, kilnAt := c.nominal, winTb := c.tb, winDirty := d }
    let runs := s.fresh.clk.root = .locked
    (runs → e.clk.winDirty = false → 800 * 65536 ≤ per → per ≤ 1250 * 65536 →
      Answers (.kilnCalibration n) s
        (next (mapClk (wr e PWR_KILN_PER_PERIOD per) fun c => { c with calValid := true }) false)) ∧
    (runs → e.clk.winDirty = false → (per < 800 * 65536 ∨ 1250 * 65536 < per) →
      Answers (.kilnCalibration n) s (next (raise (sqSet e PWR_CLK_STATUS [(PWR_CLK_STATUS_KILN_BAD, 1)]) 0x0B .contained
        (synOf PWR_CLK_STATUS_KILN_BAD.lo 0)) false)) ∧
    (runs → e.clk.winDirty = true → Answers (.kilnCalibration n) s (next e false)) ∧
    (¬ runs → Answers (.kilnCalibration n) s (next e true)))

/-- R455, R456: with no transition, a request for the current state ends at once with OK, and IDLE is left for RUN at once; in
a transition, a request for its target waits for its end; another replaces the pending target, whose request ends
with SUPERSEDED, and one for RUN has an entry reverse in its steps 1 to 5, at the next step boundary. WAKE_N keeps out a
request for SLEEP or deeper where no handshake asks the wake logic.
R459, R461: a block that has been asked agrees where nothing keeps it; wake logic and Kiln refuse otherwise, another
delays for what it names up to 10 ms in all, and refuses with EXPIRED at that limit; after its delay it is asked again.
A refusal undoes the entry and ends its request with BUSY. R244: a channel that is asked stops its run first.
Where the spec leaves it open, this rests on the model's choices in the log entries 9, 50, 75 and 144. -/
def Obligations.PowerRequestsAndHandshakesAct : Prop :=
  (∀ (e : Engine) (t : Nat) (tk : Option Nat),
    let tks := mapPwr e fun p => { p with tickets := tk.toList }
    (inTrans e = false → t = pwrState e → powerRequest e t tk = endTickets tks stOk) ∧
    (inTrans e = false → pwrState e = 1 → t = 0 → powerRequest e t tk = endTickets (leaveIdle
      (hsFlag (inc (wr tks PWR_STATE_STATE 0) PWR_CNT_TRANS) PWR_HS_STATUS_DONE)) stOk) ∧
    (inTrans e = false → t ≠ pwrState e → ¬ (pwrState e = 1 ∧ t = 0) →
      (e.pins.wake = false ∨ t < 2 ∨ on e PWR_CTRL_IN_SERVICE = true ∧ pwrState e < 2) →
      (on e PWR_CTRL_IN_SERVICE = true ∨ t < 2 ∨ t = 4 ∨ kilnGood e = true) → powerRequest e t tk = beginTrans tks t) ∧
    (inTrans e = false → t ≠ pwrState e → 2 ≤ t → e.pins.wake = true →
      (on e PWR_CTRL_IN_SERVICE = false ∨ pwrState e = 2 ∨ pwrState e = 3) →
      powerRequest e t tk = endTickets (sqSet tks PWR_HS_STATUS [(PWR_HS_STATUS_REFUSED, 1), (PWR_HS_STATUS_BLOCK, 2)])
        stBusy) ∧
    (inTrans e = true → t = pwrTarget e →
      powerRequest e t tk = mapPwr e fun p => { p with tickets := p.tickets ++ tk.toList }) ∧
    (inTrans e = true → t ≠ pwrTarget e →
      let p := setPending e t tk
      powerRequest e t tk = if t = 0 ∧ reversible p then mapPwr (wr p PWR_STATE_REVERSING 1) fun q => { q with
        reverse := some stSuperseded } else p)) ∧
  (∀ (s : State) (b : Fin 32) (us : Nat), isAsked s.fresh b = true →
    (let e := if 16 ≤ b.val then stopRun s.fresh (b - 16) .stopped else s.fresh
     let total := tget 0 e.pwr.delay b
     let k := min (usUnits us) (msUnits 10 - total)
     tget 0 s.fresh.pwr.reask b = 0 →
      (canAgree e b = true →
        Answers (.handshakeAnswer b us) s (mapPwr e fun p => { p with agreed := p.agreed ++ [b.val] })) ∧
      (canAgree e b = false → b = 2 ∨ b = 3 → Answers (.handshakeAnswer b us) s (refuseEntry e b)) ∧
      (canAgree e b = false → b ≠ 2 → b ≠ 3 → b ≠ 4 → msUnits 10 ≤ total →
        Answers (.handshakeAnswer b us) s (refuseEntry (hsFlag e PWR_HS_STATUS_EXPIRED) b)) ∧
      (canAgree e b = false → b ≠ 2 → b ≠ 3 → b ≠ 4 → total < msUnits 10 →
        Answers (.handshakeAnswer b us) s (stopRoll (mapPwr (markRoll e b) fun p => { p with
          delay := tput 0 p.delay b (total + k), reask := tput 0 p.reask b (e.clk.nominal + k) })))) ∧
    (let e := s.fresh
     (tget 0 e.pwr.reask b ≠ 0 → Answers (.handshakeReask b) s (stopRoll
        (mapPwr (tickTo e (tget 0 e.pwr.reask b)) fun p => { p with reask := tput 0 p.reask b 0 }))) ∧
     (msUnits 10 ≤ tget 0 e.pwr.delay b → canAgree e b = false → Answers (.handshakeDelayLimit b) s
        (refuseEntry (hsFlag (tickTo e (tget 0 e.pwr.reask b)) PWR_HS_STATUS_EXPIRED) b)))) ∧
  (∀ (e : Engine) (b : Nat), e.pwr.reverse = none →
    refuseEntry e b = settleTrans (endTickets (undoEntry (sqSet e PWR_HS_STATUS
      [(PWR_HS_STATUS_REFUSED, 1), (PWR_HS_STATUS_BLOCK, b)])) stBusy))

namespace Sys2Proof.Machine

/-- POWER_STEP answers the machine that the engine `e` leaves; its modules have lost their contents where it ends step 8. -/
def AnswersStep (s : State) (e : Engine) : Prop :=
  exec .powerStep s = .next (s.runLosing (fun r => pwrStep s.fresh == 8 && pwrStep r == 0) fun _ _ => e)

end Sys2Proof.Machine

/-- R90, R131, R460–R462: when every block asked for a step has agreed, or entry is by command, the step's actions are taken and
the entry goes on to the next step of its target: an entry to IDLE has done its last step with step 1, and
completes when the cores have halted; one to SLEEP ends with step 6, DEEP with 7 and OFF
with 8, in which the DRAM's contents are lost. Step 4 is complete once every channel sleeps, and the relay closes only
after LEAVING has completed its lap. An entry that reverses is undone at its step boundary. A port that has not yielded in 100 µs refuses the entry in service; by
command it counts as withdrawn, with YIELD_MISMATCH.
Where the spec leaves it open, this rests on the model's choices in the log entries 9, 75 and 143. -/
def Obligations.EntryTakesItsSteps : Prop :=
  ∀ (s : State), let e := s.fresh; let t := pwrTarget e
    (inTrans e = true → e.pwr.wake = none → e.pwr.reverse = none →
      (on e PWR_CTRL_IN_SERVICE = false ∨ ∀ b ∈ askedBlocks e, b ∈ e.pwr.agreed) →
      let did := fun (e : Engine) => mapPwr e fun p => { p with done := p.done + 1 }
      let done := did e
      let stop := stepStop done
      (pwrStep e = 1 → t = 1 → AnswersStep s (mapPwr e fun p => { p with done := 1 })) ∧
      (pwrStep e = 1 → t ≠ 1 → AnswersStep s (enterStep done 2)) ∧
      (pwrStep e = 2 → AnswersStep s (enterStep done 3)) ∧
      (pwrStep e = 3 → AnswersStep s (enterStep done (if t = 4 then 5 else 4))) ∧
      (pwrStep e = 4 → let w := inParallel e (sleepChannel s.dram)
        (allAsleep w = true → AnswersStep s (enterStep (did w) 5)) ∧ (allAsleep w = false → AnswersStep s w)) ∧
      (pwrStep e = 5 → AnswersStep s (enterStep done (if t = 4 then 8 else 6))) ∧
      (pwrStep e = 6 → lapDone e = true → t ≠ 3 → AnswersStep s (reached stop 2)) ∧
      (pwrStep e = 6 → lapDone e = true → t = 3 → AnswersStep s (let d := wr (telPartial stop) PWR_STATE_STATE 2;
        if runPending d then reached d 2 else enterStep d 7)) ∧
      (pwrStep e = 7 → AnswersStep s (reached (kilnTicks (emptyQueues done) 10) 3)) ∧
      (pwrStep e = 8 → lapDone e = true → AnswersStep s (stepOff e) ∧ AnswersLost .powerStep s (stepOff e)) ∧
      (pwrStep e = 6 ∨ pwrStep e = 8 → lapDone e = false → AnswersStep s e)) ∧
    (∀ st, inTrans e = true → e.pwr.wake = none → e.pwr.reverse = some st → stepReady e = false →
      AnswersStep s (endReverse e st)) ∧
    (∀ st, inTrans e = true → e.pwr.wake = none → e.pwr.reverse = some st → stepReady e = true → pwrStep e ≠ 4 →
      AnswersStep s (endReverse (mapPwr e fun p => { p with done := p.done + 1 }) st)) ∧
    (∀ x, haltsNow x = true → (∀ p < 2, rd x (pairField p) = 1) → idleEnd x = deliverAll (reached x 1)) ∧
    (∀ (p : Fin 128) t0, (getPort e p).recallAt = some t0 → clocked e = true →
      let w := tickTo e (t0 + usUnits 100)
      (inTrans w = true → on w PWR_CTRL_IN_SERVICE = true → pwrStep w = 2 → Answers (.yieldTimeout p) s (refuseEntry w 4)) ∧
      (inTrans w = false ∨ on w PWR_CTRL_IN_SERVICE = false → Answers (.yieldTimeout p) s (ingressFault
        (putPort w p { getPort w p with held := [0, 0, 0, 0], recallAt := none }) p GC_ING_STATUS_YIELD_MISMATCH)))

/-- R51, R52, R438, R465: the stages of a wake follow one another: the regulator's Kiln ticks, lock with the sleep advance,
16 REG cycles of memory after DEEP, REG_AVAIL at lock + 64 REG cycles, and the channels, which reach RUN or go on to the
target. WAKE_N, ignored below 50 ns, free up to 2 µs and sure from there, starts bring-up from OFF and otherwise requests
RUN, except while the PLL starts.
Where the spec leaves it open, this rests on the model's choices in the log entries 8 and 75. -/
def Obligations.WakeRunsItsStages : Prop :=
  ∀ (s : State) (n : Nat), let e := s.fresh
    let go := fun (x : Engine) (k : Nat) => mapPwr x fun p => { p with wake := some k }
    (e.pwr.wake = some 0 → Answers (.wakeStage n) s (go (kilnTicks e n) 1)) ∧
    (e.pwr.wake = some 1 → let w := sleepAdvance (kilnTicks e n)
      Answers (.wakeStage n) s (go (shiftPatrol w (w.clk.nominal - e.clk.nominal)) (if e.pwr.deep then 2 else 3))) ∧
    (e.pwr.wake = some 2 → Answers (.wakeStage n) s (go (tick e 128) 3)) ∧
    (e.pwr.wake = some 3 →
      let w := tick e (if e.pwr.deep then 384 else 512)
      let w := leaveIdle (wakeEpoch { go w 4 with pins := { w.pins with relayClosed := false } })
      let w := mapRing w fun r => { r with left := false, laps := [] }
      Answers (.wakeStage n) s (if ringActive w then broadcastPresence w false false else w)) ∧
    (∀ k, 4 ≤ k → e.pwr.wake = some k → Answers (.wakeStage n) s (wakeEnd e)) ∧
    (let lo := { e with pins := { e.pins with wake := false } }; let hi := { e with pins := { e.pins with wake := true } }
     Answers (.wakeN none) s lo ∧
     (n < 50 → Answers (.wakeN (some n)) s e) ∧
     (50 ≤ n → n < 2000 → Answers (.wakeN (some n)) s
       (if Config.choice e.free % 2 = 1 then wakeRecognised (drawFree e) else drawFree e)) ∧
     (2000 ≤ n → released e = true → pwrState e = 4 → Answers (.wakeN (some n)) s (wakeFromOff hi)) ∧
     (2000 ≤ n → released e = true → pwrState e ≠ 4 → (e.clk.root ≠ .starting ∨ e.pwr.wake ≠ none) →
       Answers (.wakeN (some n)) s (powerRequest hi 0 none)))

/-- R48, R478–R480, R482, R485, R487, R512: a doorbell moves a mailbox from HOST_WRITING to TO_CORE and is refused in any
other state or without a binding; a claim that is held for CLAIM_TO returns to EMPTY; a stored record is copied into
an EMPTY mailbox, which becomes TO_HOST; a pair whose watchdog expires, or that faults, is halted, and restarts, or
stops with a fatal fault where its image fails the check; the restart of MC0/MC1 stops a roll, which is rolled back; a restarted MC2/MC3 goes on with what is past its commit, and
with the recovery from a zeroization.
Where the spec leaves it open, this rests on the model's choices in the log entries 9, 47, 145 and 163. -/
def Obligations.CoresAndMailboxesAct : Prop :=
  ∀ (s : State) (m : Fin 64) (p : Fin 2), clocked s.fresh = true →
    let e := s.fresh
    (regAvail e = true → boxUsable e m = true → boxState e m = 1 → Answers (.doorbell m) s (deliverBox e m 2)) ∧
    (regAvail e = true → boxUsable e m = true → boxState e m ≠ 1 → Answers (.doorbell m) s (boxFlag e MBX_STATUS_DB_REFUSED m)) ∧
    (regAvail e = true → boxUsable e m = false → Answers (.doorbell m) s (boxFlag e MBX_STATUS_UNBOUND m)) ∧
    (boxState e m = 1 ∨ boxState e m = 3 → Answers (.claimExpiry m) s (boxFlag (setBox
      (tickTo e (tget 0 e.mci.claims m + msUnits (rd e MBX_CTRL_CLAIM_TO))) m 0) MBX_STATUS_CLAIM_EXPIRED m)) ∧
    (∀ (x : Fin 72) r, x.val = m.val → boxServed e x = true → nextRec e x = some r → boxState e m = 0 →
      boxUsable e m = true →
      let d := { e with mci := { e.mci with records := e.mci.records.erase r } }
      let w := r.words.zipIdx.foldl (fun e q => setReg e (MBX_MB_D m q.2) q.1) d
      Answers (.recordDelivery x) s
        (deliverBox { w with mci := { w.mci with inBox := tput none w.mci.inBox m (some r) } } m 4)) ∧
    (∀ mem, coreLive e p = true → Answers (.coreFault p mem) s
      (coreFault e p (if mem then MBX_STATUS_CORE_MEM_UE else MBX_STATUS_LOCKSTEP))) ∧
    (coreLive e p = true → pairRuns e p = true → Answers (.coreWatchdogExpiry p) s
      (coreFault (tickTo e ((nth e.cores p ⟨0, none, false, 0⟩).kick + msUnits (10 * rd e MBX_CTRL_CORE_WD))) p
        MBX_STATUS_CORE_WD)) ∧
    (rd e (pairField p) = 2 →
      let r := mapCore (satF (coreFlag (wr e (pairField p) 0) MBX_STATUS_RESTART p) (restartField p) 1) p
        fun c => { c with
          restarted := some e.clk.nominal, kick := if nth e.dbg.halted p false then 0 else e.clk.nominal }
      let cut := (pairTickets r p).foldl cutTicket r
      let done := cutCommit (endTickets cut stAborted)
      Answers (.coreRestartComplete p false) s (coreStopped e p 0xFF) ∧
      (p = 0 → Answers (.coreRestartComplete p true) s
        (mapPwr (cutWork (finishOpt done done.pwr.pend stAborted 0 []) 0) fun q => { q with pend := none })) ∧
      (p = 1 → Answers (.coreRestartComplete p true) s (mapSec (cutWork cut 1) fun c => { c with waitKey := [] }))) ∧
    (∀ (x : Engine),
      let y := mapSec x fun c => { c with waiting := c.waiting.filter fun w => (findTicket x w.1).isSome }
      (∀ t b n i g l, x.sec.work = some (.protFirst t b n i g l) →
        cutWork x 1 = mapSec y fun c => { c with work := some (.ending 0 g) }) ∧
      (∀ t g k, x.sec.work = some (.protInit t g k) → cutWork x 1 = dropWork y) ∧
      (∀ t r, x.sec.work = some (.ending t r) ∨ (∃ c, x.sec.work = some (.destroy t c r)) → cutWork x 1 = y) ∧
      (∀ w, x.sec.work = some (.zeroize w) ∨ x.sec.work = some .zeroizing → cutWork x 1 = y)) ∧
    (∀ (x : Engine) c, x.mci.commit = some c → isSafe x = false → c.quiesce = false →
      cutCommit x = putCommit x { c with stop := some (c.stop.getD stAborted) })

/-- R493–R496: a free semaphore is acquired and keeps ABANDONED; only its owner releases it or clears ABANDONED; an
acquisition of a held one is counted; and an abandonment frees it with its cause and its previous owner.
Where the spec leaves it open, this rests on the model's choices in the log entry 79. -/
def Obligations.SemaphoresHaveOneOwner : Prop :=
  ∀ (s : State) (n : Fin 64) (id : BitVec 12) (kind : Bool),
    let e := traceRec s.fresh 1 (MBX_SEM_OP n) (semWord 31 kind id)
    let r := traceRec s.fresh 1 (MBX_SEM_OP n) (semWord 30 kind id)
    let c := traceRec s.fresh 1 (MBX_SEM_OP n) (semWord 29 kind id)
    let mine := on s.fresh (MBX_SEM_HELD n) = true ∧ rd s.fresh (MBX_SEM_KIND n) = 0 ∧
      rd s.fresh (MBX_SEM_OWNER n) = id.toNat
    let set := fun (x : Engine) (fs : List (Fld × Nat)) (i : Instr) =>
      AnswersWrite i s (setReg x (MBX_SEM n) (setFields (reg x (MBX_SEM n)) fs))
    clocked s.fresh = true →
    (kind = true → AnswersWrite (.semAcq .ext n kind id) s (boxFlag e MBX_STATUS_SEM_FOREIGN n)) ∧
    (kind = false →
      (on s.fresh (MBX_SEM_HELD n) = false → set e
        [(MBX_SEM_HELD n, 1), (MBX_SEM_KIND n, 0), (MBX_SEM_OWNER n, id.toNat)] (.semAcq .ext n kind id)) ∧
      (mine → AnswersWrite (.semAcq .ext n kind id) s e ∧
        set r [(MBX_SEM_HELD n, 0), (MBX_SEM_KIND n, 0), (MBX_SEM_OWNER n, 0)] (.semRel .ext n kind id) ∧
        set c [(MBX_SEM_ABANDONED n, 0), (MBX_SEM_CAUSE n, 0), (MBX_SEM_PREV_KIND n, 0), (MBX_SEM_PREV_OWNER n, 0)]
          (.semClrAbn .ext n kind id)) ∧
      (¬ mine → (on s.fresh (MBX_SEM_HELD n) = true → AnswersWrite (.semAcq .ext n kind id) s (inc e MBX_CNT_SEM_FAIL)) ∧
        AnswersWrite (.semRel .ext n kind id) s (boxFlag r MBX_STATUS_SEM_NOT_OWNER n) ∧
        AnswersWrite (.semClrAbn .ext n kind id) s (boxFlag c MBX_STATUS_SEM_NOT_OWNER n))) ∧
    (∀ (x : Engine) (k i cause : Nat), cause < 4 → k < 2 → i < 4096 → on x (MBX_SEM_HELD n) = true →
      rd x (MBX_SEM_KIND n) = k → rd x (MBX_SEM_OWNER n) = i →
      let y := semAbandonAll x k i cause
      on y (MBX_SEM_HELD n) = false ∧ on y (MBX_SEM_ABANDONED n) = true ∧ rd y (MBX_SEM_CAUSE n) = cause ∧
      rd y (MBX_SEM_PREV_OWNER n) = i ∧ rd y (MBX_SEM_PREV_KIND n) = k)
namespace Sys2Proof.Machine

/-- The message that a mailbox holds. -/
def messageOf (e : Engine) (m : Nat) : Cmd := cmdOf m ((List.range 64).map fun i => reg e (MBX_MB_D m i))

/-- A bound mailbox holds a message with the opcode `op` for a pair that runs, and that it does not leave waiting for a
power-state entry (R459). -/
def HoldsCommand (e : Engine) (m op : Nat) : Prop :=
  on e (MBX_BIND_VALID m) = true ∧ boxState e m = 2 ∧ pairRuns e (rd e (MBX_BIND_CORE m)) = true ∧
    (messageOf e m).op = op ∧ leavesWaiting e (rd e (MBX_BIND_CORE m)) op = false

/-- The engine after its firmware has taken the message: the mailbox is EMPTY, and IRQ_EMPTY is set. -/
def tookMessage (e : Engine) (m : Nat) : Engine :=
  traceRec (boxConsume e m (if rd e (MBX_BIND_CORE m) = 0 then .mc01 else .mc23)) 3
    (m * 2 ^ 16 + (messageOf e m).op) ((messageOf e m).w 0)

/-- The engine with the ticket of a message, and the ticket's identity. -/
def withTicket (e : Engine) (c : Cmd) : Engine × Nat := openTicket e c.box c.tag c.op (c.words.drop 1)

/-- The security firmware is free for the command whose ticket has opened, and no other waits before it. -/
def HasTurn (o : Engine × Nat) (c : Cmd) : Prop :=
  secFree o.1 = true ∧ o.1.sec.waiting = [] ∧ (findTicket o.1 o.2).map (·.op) = some c.op

end Sys2Proof.Machine

/-- R505, R507, R509, R513, R516, R517, R519: the firmware answers the first check that a message fails, and changes nothing.
HELLO in a common version without open tickets opens the session in the highest one; BYE without open tickets ends it;
ABORT of a ticket that can still stop is answered OK before the ticket's record; CONFIG_STAGE puts its items into the
buffer; CONFIG_READ answers an item's value, or what is staged, with the generation of its scope; CONFIG_COMMIT empties the buffer and starts what passes R519 and, for a
quiesced change of the mapping, the comparison of the modules (R101).
Where the spec leaves it open, this rests on the model's choices in the log entries 38, 39, 40, 41, 43 and 159. -/
def Obligations.MulumSessionAndConfigCommands : Prop :=
  (∀ (e : Engine) (c : Cmd) (l : Layout) (f : Engine → Engine),
    (getSession e c.box = none → c.op ≠ 0 → checked e c l f = reply e c stDenied 0 []) ∧
    (getSession e c.box ≠ none → (l.known = false → checked e c l f = reply e c stUnsupported 0 []) ∧
      (l.known = true → permits e c.box l.perm = false ∨ pairServes (boxPair e c.box) c.op = false →
        checked e c l f = reply e c stDenied 0 []) ∧
      (l.known = true → permits e c.box l.perm = true → pairServes (boxPair e c.box) c.op = true →
        (l.valid = false → checked e c l f = reply e c stBadArg 0 []) ∧
        (l.valid = true → mciBusy e c l.ticketed = true → checked e c l f = reply e c stBusy 0 []) ∧
        (l.valid = true → mciBusy e c l.ticketed = false →
          (l.ticketed = true → tagTaken e c.box c.tag = true → checked e c l f = reply e c stBadArg 0 []) ∧
          (l.ticketed = false ∨ tagTaken e c.box c.tag = false → checked e c l f = f e))))) ∧
  (∀ (s : State) (m : Fin 64),
    let e := tookMessage s.fresh m; let c := messageOf s.fresh m; let has := HoldsCommand s.fresh m
    (has 0 → mciCheck e c ⟨.any, false, named c [0xFFFFFFFF], c.len == 2⟩ = none → c.f 1 15 0 ≤ c.f 1 31 16 →
      max (c.f 1 15 0) 0x200 ≤ min (c.f 1 31 16) 0x203 → boxTickets e c.box = [] →
      let v := min (c.f 1 31 16) 0x203
      Answers (.hello m) s (reply (putSession e c.box (some ⟨v, [], []⟩)) c stOk v
        [word (features e v), word (ownSvn e (boxPair e c.box)), reg e GC_ID])) ∧
    (has 1 → mciCheck e c ⟨.any, false, named c [], c.len == 1⟩ = none → boxTickets e c.box = [] →
      Answers (.bye m) s (reply (putSession e c.box none) c stOk 0 [])) ∧
    (∀ t, has 2 →
      mciCheck e c ⟨.any, false, named c [if sessionVer e c.box ≥ 0x203 then 0x1FF else 0xFF], c.len == 2⟩ = none →
      (c.w 1).getLsbD 8 = false → (boxTickets e c.box).find? (fun t => t.tag == c.f 1 7 0) = some t →
      (abortTicket e t ≠ none → Answers (.abort m) s (abortNow (reply e c stOk 1 []) t)) ∧
      (abortTicket e t = none → Answers (.abort m) s (reply e c stTooLate 0 []))) ∧
    (has 0x100 →
      let b := (stageItems c).foldl stagePut (if (c.w 1).getLsbD 0 then [] else getStage e c.box)
      mciCheck e c ⟨.admin, false, c.w 1 &&& ~~~1 == 0 && (named c []) && (List.range ((c.len - 2) / 2)).all fun k =>
        itemKnown (sessionVer e c.box) (c.f (2 * k + 2) 15 0) && c.f (2 * k + 2) 31 24 == 0,
        decide (c.len ≥ 2) && decide (c.len ≤ 64) && c.len % 2 == 0 && (stageItems c).all itemOk⟩ = none →
      (b.length ≤ 128 → Answers (.configStage m) s (reply (putStage e c.box b) c stOk (stageItems c).length [])) ∧
      (128 < b.length → Answers (.configStage m) s (reply e c stBadArg 0 []))) ∧
    (has 0x102 → let i := c.f 1 15 0; let sc := c.f 1 23 16
      mciCheck e c ⟨.any, false, named c [0x01FFFFFF] && itemKnown (sessionVer e c.box) i,
        c.len == 2 && (i == 0xFFFF && sc == 0 || ((itemRoute i).isSome && scopeOk i sc))⟩ = none →
      let gen := if itemScope i = .chan then rd e (CH_CFG_GEN_GEN sc) else rd e GC_CFG_GEN_GEN
      (sc ≠ 0xFF → (c.w 1).getLsbD 24 = false → i ≠ 0xFFFF →
        Answers (.configRead m) s (reply e c stOk gen [itemValue e i sc])) ∧
      (∀ v, sc ≠ 0xFF → (c.w 1).getLsbD 24 = true → stagedValue e c.box i sc = some v →
        Answers (.configRead m) s (reply e c stOk gen [v])) ∧
      (i = 0xFFFF → (c.w 1).getLsbD 24 = false → Answers (.configRead m) s
        (reply e c stOk (rd e GC_CFG_GEN_GEN) ((List.range 16).map fun n => word (rd e (CH_CFG_GEN_GEN n))))) ∧
      (sc = 0xFF → (c.w 1).getLsbD 24 = false → i ≠ 0xFFFF → Answers (.configRead m) s
        (match readChan e 0xFF with
          | some n => reply (drawFree e) c stOk (scopeGen e i 0xFF) [itemValue (drawFree e) i n]
          | none => reply (drawFree e) c stBadArg 0 []))) ∧
    (has 0x101 → let items := getStage e c.box; let q := (c.w 1).getLsbD 0
      let p := putStage e c.box []
      mciCheck p c ⟨.admin, true, named c [1], c.len == 2⟩ = none →
      let o := withTicket p c
      (commitCheck o.1 items q = none → quiesceGeom o.1 items = none →
        Answers (.configCommit m) s (startCommit o.1 o.2 items q)) ∧
      (∀ n, commitCheck o.1 items q = none → quiesceGeom o.1 items = some n → Answers (.configCommit m) s (finish
        (sqSet o.1 (CH_TRN_STATUS n) [(CH_TRN_STATUS_GEOM_MISMATCH n, 1)]) o.2 stBadArg 0
        [rejectWord (items.find? fun x => between x.1 0x80 0xAB)])) ∧
      (∀ st x, commitCheck o.1 items q = some (st, x) →
        Answers (.configCommit m) s (finish o.1 o.2 st 0 [rejectWord x]))))

/-- R455, R462, R516, R524, R525, R554: a maintenance, power, fault or firmware command whose checks pass opens its ticket
and starts its work, or is answered at once: a training run, a sparing copy, a repair, a scrub pass on the channels
of its range, a power request, a page of the hotlist, a part of a dump, the release of a dump, a chunk of an image, its
verification in steps, and the change to a verified image.
Where the spec leaves it open, this rests on the model's choices in the log entries 38, 42, 46, 48, 51, 52, 160 and 162. -/
def Obligations.MulumMaintenanceCommands : Prop :=
  ∀ (s : State) (m : Fin 64),
    let e := tookMessage s.fresh m; let c := messageOf s.fresh m; let has := HoldsCommand s.fresh m
    let o := withTicket e c
    let n := c.f 1 3 0
    (has 0x200 → mciCheck e c ⟨.admin, true, named c [0x07FF0F3F] && c.f 1 5 4 != 3, c.len == 2 && c.f 1 5 4 != 0⟩ = none →
      inService o.1 n = true → on o.1 (CH_TRN_STATE_BUSY n) = false → (∀ r ∈ o.1.mci.offRuns, r.ch ≠ n) →
      let steps := c.f 1 26 16
      (c.f 1 5 4 = 1 → steps &&& onlineSteps = steps →
        Answers (.retrain m) s (beginRun o.1 n 1 (c.f 1 11 8) steps (some o.2))) ∧
      (c.f 1 5 4 = 2 → offlineOk o.1 n = true → o.1.mci.commit = none →
        let r : OffRun := ⟨n, c.f 1 11 8, steps, o.2, false, 0⟩
        let put := fun (l : List OffRun) (x : Engine) => mapMci x fun m => { m with offRuns := l }
        let w := put [r] o.1
        let t := throttleAll w true
        let d := put [] (throttleAll t false)
        (o.1.mci.offRuns ≠ [] → Answers (.retrain m) s (put (o.1.mci.offRuns ++ [r]) o.1)) ∧
        (o.1.mci.offRuns = [] → pairRuns w 0 = true → isSafe w = false →
          (rollDrained t n = true → offlineOk d n = true →
            Answers (.retrain m) s (startOffline d n (c.f 1 11 8) steps o.2)) ∧
          (rollDrained t n = false → Answers (.retrain m) s (put [{ r with throttled := true }] t))))) ∧
    (has 0x201 → mciCheck e c ⟨.admin, true, named c [0xF1F], c.len == 2⟩ = none → n < 2 ^ (gcfg e).c →
      (c.f 1 4 4 = 1 → c.f 1 11 8 < 2 ^ (gcfg e).k) → canSpare o.1 (c.f 1 4 4) = true → o.1.mci.commit = none →
      Answers (.spare m) s (declare (startSpare o.1 n (c.f 1 11 8) (c.f 1 4 4)) o.2)) ∧
    (has 0x202 → mciCheck e c ⟨.admin, true, named c [0x1FFF7F, 0x3FFFF], c.len == 3⟩ = none → n < 2 ^ (gcfg e).c →
      c.f 1 15 12 < 2 ^ (gcfg e).k → c.f 2 17 0 < 2 ^ (gcfg e).r → c.f 1 6 6 = 1 → c.f 1 5 5 = 0 →
      (getChan o.1 n).repair = none → Answers (.ppr m true true) s (syncLines (startRepair o.1 n
        ⟨n, c.f 1 4 4, c.f 1 15 12, c.f 1 18 16, c.f 1 20 19, c.f 2 17 0, 0⟩ none false (some o.2)) n)) ∧
    (∀ a b, has 0x700 → let all : Word := 0xFFFFFFFF
      mciCheck e c ⟨.admin, true, named c [all, all, all, all], c.len == 5⟩ = none →
      let g := gcfg o.1
      rangeOf c.words 1 (dumpBase g * sliceLines g) = some (a, b) → on o.1 GC_GRIST_CTRL_GRIST_EN = true →
      Answers (.scrub m) s ((List.range (2 ^ g.c)).foldl (fun e n =>
        if (passNext e n ⟨a, a, b, 0, o.2⟩).isSome then
          syncLines (putChan e n { getChan e n with pass := (getChan e n).pass ++ [⟨a, a, b, 0, o.2⟩] }) n
        else e) o.1)) ∧
    (has 0x400 → let t := c.f 1 2 0
      mciCheck e c ⟨.power, true, named c [0x1F] && decide (t ≤ 4), c.len == 2⟩ = none → c.f 1 4 3 = 0 →
      on o.1 PWR_CTRL_IN_SERVICE = true → isSafe o.1 = false → 0 < t →
      Answers (.pwrReq m) s (powerRequest (fwWrite o.1 PWR_CMD (word (0 * 2 ^ 30 + t))) t (some o.2))) ∧
    (has 0x500 → mciCheck e c ⟨.reader, false, named c [0xFFFFFFFF, 0x1FFF, 0xFFFFFF], c.len == 4⟩ = none →
      on e TEL_HOT_STATE_SORTED = true → (c.w 1).toNat = e.tel.snapEpoch → e.tel.snapEpoch < 2 ^ 32 →
      c.f 2 12 0 ≤ e.tel.snap.length → let f := fun (x : Fld) => wordField e.tel.snapCtrl x.hi x.lo
      Answers (.hotlistRead m) s (reply e c stOk (e.tel.snap.length + rd e TEL_HOT_STATE_PARTIAL * 2 ^ 13 +
          f TEL_CTRL_PAGE_SZ * 2 ^ 14 + f TEL_CTRL_COUNT_MODE * 2 ^ 15 + f TEL_CTRL_SHIFT * 2 ^ 17)
        ([word e.tel.snapEpoch, word (min e.tel.snapSamples (2 ^ 32 - 1))] ++
          (((e.tel.snap.drop (c.f 2 12 0)).filter fun h => decide (h.count ≥ c.f 3 23 0)).take 20).flatMap hotWords))) ∧
    (∀ x, has 0x600 → let off := (c.w 2).toNat
      mciCheck e c ⟨.admin, false, named c [0xFFFF, 0xFFFFFFFF], c.len == 3 && off % 4 == 0⟩ = none → 0 < c.f 1 15 0 →
      rd e FLT_SAFE_PHASE ≠ 1 → rd e FLT_SAFE_PHASE ≠ 2 → findDump e (c.f 1 15 0) = some x →
      off < x.bytes.length → Answers (.dumpRead m) s
        (reply e c stOk x.id ([word x.bytes.length, word off] ++ bytesWords 60 ((x.bytes.drop off).take 240)))) ∧
    (has 0x601 → mciCheck e c ⟨.admin, false, named c [3], c.len == 2⟩ = none → rd e FLT_SAFE_NO_AUTO ≠ 2 →
      rd e FLT_SAFE_NO_AUTO ≠ 4 → c.f 1 1 1 = 0 →
      let r := reply { e with flt := { e.flt with tunHeld := false } } c stOk 0 []
      (isSafe e = false → Answers (.faultClear m) s r) ∧
      (isSafe e = true → isSafe r = true → on e FLT_SAFE_DUMP_DONE = true → c.f 1 0 0 = 1 →
        Answers (.faultClear m) s (recover s.dram r false))) ∧
    (∀ st, has 0x800 → let b := wordBytes ((c.words.take c.len).drop 3)
      let fin := (c.w 1).getLsbD 31
      mciCheck e c ⟨if c.f 1 1 0 = 1 then .priv else .admin, fin,
        !(c.w 0).getLsbD 31 && c.w 1 &&& 0x7FFFFFFC == 0,
        decide (3 ≤ c.len) && decide (c.len ≤ 64) && c.f 1 1 0 != 0 && c.f 1 1 0 != 3⟩ = none →
      e.flt.tunHeld = false → e.mci.verify = none →
      stageChunk e.boot.stageBuf (c.f 1 1 0) (c.w 2).toNat (260 + payloadMax (c.f 1 1 0) + 3) b = some st →
      let put := fun (x : Engine) => putFwStage { x with flt := { x.flt with tun := none } } (some st)
      (fin = false → Answers (.fwStage m) s (reply (put e) c stOk 0 [])) ∧
      (fin = true → Answers (.fwStage m) s (mapMci (put o.1) fun x => { x with verify := some o.2 }))) ∧
    (∀ (x : Engine) id t st, x.mci.verify = some id → findTicket x id = some t → x.boot.stageBuf = some st →
      pairRuns x 0 = true → let k := (stageImage st).length
      (t.progress < k → stageVerify x = setProgress x id (min k (t.progress + 2 ^ 16))) ∧
      (k ≤ t.progress → stageVerify x = stageEnd (mapMci x fun y => { y with verify := none }) id st)) ∧
    (∀ b v, has 0x801 → let k := c.f 1 1 0
      mciCheck e c ⟨if k = 1 then .priv else .admin, true, named c [3], c.len == 2 && k != 0⟩ = none →
      o.1.mci.commit = none → o.1.boot.stageBuf = some ⟨k, b, some v⟩ →
      let image := (stageImage ⟨k, b, some v⟩).drop 260
      sessionsServed o.1 (kindPair k) image = true →
      let a := activateImage (declare o.1 o.2) k v image
      Answers (.fwActivate m) s (finish a o.2 stOk 0 [word (ownSvn a (kindPair k))]))

/-- R315–R318, R320–R323, R350–R353, R510: a security command whose checks pass opens its ticket and starts its work: a new
context takes its keys, or waits for entropy; a destroyed one leaves the table; a new protection table is committed;
where DRAINING is 1 a command on the table is answered with BUSY, and behind other work it waits for its turn;
an agent is enrolled with the lowest free index, or its unenroll walk starts; a context or a range is sanitized; and a message of
another engine's firmware is taken as its opcode says.
Where the spec leaves it open, this rests on the model's choices in the log entries 38, 49, 70, 138 and 139. -/
def Obligations.MulumSecurityCommands : Prop :=
  ∀ (s : State) (m : Fin 64),
    let e := tookMessage s.fresh m; let c := messageOf s.fresh m; let has := HoldsCommand s.fresh m
    let o := withTicket e c
    let ctx := c.f 1 11 0
    (has 0x300 → mciCheck e c ⟨.priv, true, named c [0xFFF], c.len == 2⟩ = none → 0 < ctx → ctx ∉ o.1.sec.active →
      (∀ w ∈ o.1.sec.waitKey, w.2.1 ≠ ctx) →
      Answers (.ctxCreate m) s (ctxGenerate o.1 o.2 ctx)) ∧
    (has 0x301 → mciCheck e c ⟨.priv, true, named c [0xFFF], c.len == 2⟩ = none → 0 < ctx → ctx ∈ o.1.sec.active →
      HasTurn o c → let b := bankOf o.1 (curVer o.1)
      let t := commitTable o.1 { b with regions := b.regions.filter fun (p : Nat × Region) => p.2.ctx != ctx }
      Answers (.ctxDestroy m) s (mapSec (declare t o.2) fun x => { x with
        work := some (.destroy o.2 ctx ((b.regions.filter fun (p : Nat × Region) => p.2.ctx == ctx).map (·.2))) })) ∧
    (∀ t, has 0x302 → let recs := protRecs c.words; let init := (c.w 1).getLsbD 0
      mciCheck e c ⟨.priv, true, named c (protMasks c) && (decide (c.f 1 3 1 ≤ 1) ||
        (decide (c.f 1 3 1 ≤ 4) && decide (sessionVer e c.box ≥ 0x202))), protValid c⟩ = none →
      let cur := bankOf o.1 (curVer o.1)
      recs.any (badRec o.1) = false →
      noOverlap (((cur.regions.filter fun p => recs.all fun r => r.idx != p.1).map (·.2)) ++
        (recs.filter (·.valid)).map (·.reg)) = true →
      HasTurn o c → applyRecs o.1 cur.regions recs ⟨cur.regions.filter (keepsEntry recs), []⟩ = some t →
      (init = true ∨ ∀ r ∈ t.created.filterMap (tlookup t.regions), r.mode < 2) →
      let w := mapTicket { o.1 with free := o.1.free + 2048 } o.2 fun k => { k with body := baseWords t.regions recs }
      Answers (.protSet m) s (protCommit w o.2 cur t (protRights c.words cur.rights) (recs.map (·.idx)) init)) ∧
    (has 0x302 → mciCheck e c ⟨.priv, true, named c (protMasks c) && (decide (c.f 1 3 1 ≤ 1) ||
        (decide (c.f 1 3 1 ≤ 4) && decide (sessionVer e c.box ≥ 0x202))), protValid c⟩ = none →
      (on o.1 CRY_PT_VER_DRAINING = true → Answers (.protSet m) s (finish o.1 o.2 stBusy 0 [])) ∧
      (on o.1 CRY_PT_VER_DRAINING = false → secFree o.1 = false → Answers (.protSet m) s
        (mapSec o.1 fun x => { x with waiting := x.waiting ++ [(o.2, c.words)] }))) ∧
    (has 0x303 → mciCheck e c ⟨.priv, true, named c [0x01FF0FFF], c.len == 2⟩ = none →
      let w := mapTicket o.1 o.2 fun k => { k with body := [word ctx] }
      let r := getEnroll w ctx
      (c.f 1 16 16 = 0 → r.enrolled = false → Answers (.enrollAgent m) s (finish w o.2 stOk 0 [])) ∧
      ((∀ x ∈ w.dir.walks, x.agent ≠ ctx) →
      (∀ v, c.f 1 16 16 = 1 → r.enrolled = false → shadow w = false → freeVidx w = some v →
        Answers (.enrollAgent m) s (finish (putEnroll w ctx { r with
          enrolled := true, place := c.f 1 17 17 == 1, port := c.f 1 24 18, vidx := v }) o.2 stOk v [])) ∧
      (c.f 1 16 16 = 0 → r.enrolled = true → Answers (.enrollAgent m) s
        { w with dir := { w.dir with walks := w.dir.walks ++ [⟨true, ctx, 0, 0, false, []⟩] } }))) ∧
    (has 0x701 → let all : Word := 0xFFFFFFFF
      mciCheck e c ⟨.priv, true, named c [0x10FFF, all, all, all, all], c.len == if c.f 1 16 16 = 1 then 6 else 2⟩ = none →
      HasTurn o c →
      (c.f 1 16 16 ≠ 1 → ctx ∈ o.1.sec.active →
        Answers (.sanitize m) s (mapSec o.1 fun x => { x with work := some (.sanitize o.2 ctx false) })) ∧
      (∀ a b, c.f 1 16 16 = 1 → rangeOf c.words 2 (dataTop (gcfg o.1)) = some (a, b) → rangeAssigned o.1 a b = false →
        Answers (.sanitize m) s (putRuns (mapSec o.1 fun x => { x with work := some (.sanitizing o.2) })
          [bitsRun o.1 a (b + 1), .lines false a (b + 1 - a)]))) ∧
    (∀ (src : Fin 8) x, s.fresh.ring.inbox.find? (fun y => y.1 == src.val) = some x → pairRuns s.fresh 0 = true →
      Answers (.ringMciMessage src) s (mciAny s.dram (mapRing s.fresh fun r => { r with inbox := r.inbox.erase x })
        (cmdOf (64 + src) x.2)))

/-- R520–R523: while a roll runs, the next channel takes its staged values and the new generation once it has drained, and the
last one ends the commit with OK; a channel that does not drain in 20 µs frees the ports for 100 µs, and a third failure
stops the roll; a stopped roll takes every rolled channel back to its values and the committed generation, in descending
order; and a quiesced commit goes from step to step as what it waits for comes, and drains the write queues meanwhile. R516: an offline RETRAIN drains its
channel in the same way, and a third failure ends it with BUSY.
Where the spec leaves it open, this rests on the model's choices in the log entries 47 and 161. -/
def Obligations.RollAndQuiesceAct : Prop :=
  (∀ (s : State) (c : Commit), s.fresh.mci.commit = some c → pairRuns s.fresh 0 = true → isSafe s.fresh = false →
    let e := s.fresh
    (∀ n rest, e.mci.offRuns = [] → e.pwr.rollAt = none → c.todo = n :: rest → c.quiesce = false → c.stop = none →
      let x := if c.step = 0 then throttleAll (wr e GC_CFG_GEN_NEXT_CH n) true else e
      (rollDrained x n = true → let ws := rollWords x c.items n
        let y := throttleAll (swapChan x n (nextGen x) ws) false
        let d := { c with todo := rest, rolled := c.rolled ++ [n], tries := 0, step := 0,
                          saved := c.saved ++ ws.map fun p => (p.1, reg x p.1) }
        let z := setProgress (putCommit y d) c.ticket d.rolled.length
        Answers .rollChannel s (if rest.isEmpty then endCommit z d else waitUs z 20)) ∧
      (rollDrained x n = false → c.step = 0 → Answers .rollChannel s (putCommit x { c with step := 1 })) ∧
      (rollDrained x n = false → c.step ≠ 0 → let y := throttleAll (waitUs x 20) false
        (c.tries < 2 → Answers .rollChannel s
          (waitUs (putCommit y { c with tries := c.tries + 1, step := 0 }) 100)) ∧
        (2 ≤ c.tries → Answers .rollChannel s
          (putCommit y { c with tries := c.tries + 1, step := 0, stop := some stBusy })))) ∧
    (∀ st, c.stop = some st → c.quiesce = false → Answers .rollRollback s (closeCommit (throttleAll
      (c.rolled.reverse.foldl (fun e n => waitUs (throttleAll (unrollChan (throttleAll e true) c n) false) 20) e) false)
      c st 0)) ∧
    (c.quiesce = true →
      let dir := c.items.any fun x => x.1 == 0xB0
      let go := fun (e : Engine) (k : Nat) => putCommit (setProgress e c.ticket k) { c with step := k }
      let out := fun (y : Engine) => AnswersWrite .quiesceStep s y
      (c.step = 2 → class3Done e = true → out (if dir then go (snoopAll e) 3 else go (recallAll e) 4)) ∧
      (c.step = 3 → out (if nothingHeld e then go (recallAll e) 4 else snoopAll e)) ∧
      (c.step = 4 → (allYielded e = false ∨ writesDone e = false) → out (drainWrites e)) ∧
      (c.step = 4 → allYielded e = true → writesDone e = true →
        let d := declare (fwClear e GC_ING_CTRL) c.ticket
        out (go { d with flt := { d.flt with planAt := some d.clk.nominal } } 5)) ∧
      (c.step = 5 → let p := setProgress e c.ticket (rollChans e c.items).length
        let a := fwSet (applyQuiesce p c.items) GC_ING_CTRL
        let b := addDown { a with flt := { a.flt with planAt := none } } FLT_DOWN_PLAN
          (a.clk.nominal - e.flt.planAt.getD e.clk.nominal)
        out (closeCommit (throttleAll b false) c stOk (rd b GC_CFG_GEN_GEN))))) ∧
  (∀ (s : State) (r : OffRun) (rest : List OffRun), s.fresh.mci.offRuns = r :: rest → pairRuns s.fresh 0 = true →
    isSafe s.fresh = false →
    let put := fun (l : List OffRun) (x : Engine) => mapMci x fun m => { m with offRuns := l }
    let x := if r.throttled then s.fresh else throttleAll s.fresh true
    let d := put rest (throttleAll x false)
    (rollDrained x r.ch = true → Answers .rollChannel s
      (if offlineOk d r.ch then startOffline d r.ch r.pranks r.steps r.ticket else finish d r.ticket stBusy 0 [])) ∧
    (rollDrained x r.ch = false → r.throttled = false →
      Answers .rollChannel s (put ({ r with throttled := true } :: rest) x)) ∧
    (rollDrained x r.ch = false → r.throttled = true → let y := throttleAll (waitUs x 20) false
      (r.tries < 2 → Answers .rollChannel s
        (waitUs (put ({ r with throttled := false, tries := r.tries + 1 } :: rest) y) 100)) ∧
      (2 ≤ r.tries → Answers .rollChannel s (finish (put rest y) r.ticket stBusy 0 []))))

/-- R530, R536, R537: N contained events of a source at one moment take the engine into the safe state with a promoted
fatal record, and fewer do not; a corrected event that does not promote is only counted; the history queue keeps
at most 32 records, takes the new one last while it has room, and never loses a record of a class above the new one's. -/
def Obligations.EventsArePromotedAndRecorded : Prop :=
  (∀ (e : Engine) (src : Nat) (syn : Word), srcDefined src = true → 2 ≤ src → 0 < promoteW e src → isSafe e = false →
    (tget noCount e.flt.counts src).ctCount = 0 → ∀ k,
      let x := (fun e => raise e src .contained syn)^[k] e
      (k < promoteN e src → isSafe x = false) ∧
      (k = promoteN e src → 0 < k → isSafe x = true ∧
        ∃ r, x.flt.cause = some r ∧ r.source = src ∧ r.cls = .fatal ∧ r.promoted = true)) ∧
  (∀ (e : Engine) (src : Nat) (syn : Word), promoteN e src ≠ 1 → (tget noCount e.flt.counts src).ceCount = 0 →
    let x := raise e src .corrected syn
    (tget noCount x.flt.counts src).ceCount = 1 ∧ (tget noCount x.flt.counts src).ctCount =
      (tget noCount e.flt.counts src).ctCount ∧ reg x FLT_CNT_CE = reg e FLT_CNT_CE + 1) ∧
  (∀ (e : Engine) (cls : FClass) (promoted : Bool) (src : Nat) (syn : Word), e.flt.hist.length ≤ 32 →
    let x := pushHist e cls promoted src syn
    x.flt.hist.length ≤ 32 ∧ (∀ r ∈ e.flt.hist, classCode cls < classCode r.cls → r ∈ x.flt.hist) ∧
    (e.flt.hist.length < 32 → ∃ r, x.flt.hist = e.flt.hist ++ [r] ∧ r.cls = cls ∧ r.source = src ∧ r.syn = syn))

/-- R545, R548, R551, R553: a dump goes to its channel's band, or to the dump tun where there is none, an event has named
that channel, or its rows cannot be written, and starts the quiet period, or the hold where NO_AUTO is set; QUIET_MS later, with AUTO_EXIT and without
NO_AUTO, recovery starts by itself; and the oldest automatic recovery stops counting after 86,400 s.
Where the spec leaves it open, this rests on the model's choices in the log entries 9, 54, 55 and 158. -/
def Obligations.DumpAndRecoveryAct : Prop :=
  ∀ (s : State), clocked s.fresh = true →
    let e := s.fresh
    (∀ (us : Fin 20001) (k : Fin 33), isSafe e = true → rd e FLT_SAFE_PHASE = 2 → pairRuns e 0 = true →
      let t := tickTo e (e.flt.safeAt + usUnits us)
      let w := wr t FLT_SAFE_DUMP_ID (nextDumpId t)
      let done := fun (x : Engine) =>
        let y := wr x FLT_SAFE_DUMP_DONE 1
        let z := wr y FLT_SAFE_PHASE (if rd y FLT_SAFE_NO_AUTO = 0 then 3 else 4)
        Answers (.dumpComplete us k) s { z with flt := { z.flt with quietAt := z.clk.nominal } }
      let free := fun (x : Engine) (n : Nat) => mapArb x n fun a => { a with dump := false }
      (dumpChan w = none → done (dumpToTun w (nextDumpId t) k)) ∧
      (∀ n, dumpChan w = some n → dramDump w n = true →
        let x := dumpToDram s.dram w n (nextDumpId t) k
        done (if x.flt.moved then dumpToTun (free x n) (nextDumpId t) k else free x n)) ∧
      (∀ n, dumpChan w = some n → dramDump w n = false →
        done (dumpToTun (free { w with flt := { w.flt with moved := true } } n) (nextDumpId t) k))) ∧
    (isSafe e = true → rd e FLT_SAFE_PHASE = 3 → on e FLT_CTRL_AUTO_EXIT = true → on e FLT_SAFE_DUMP_DONE = true →
      rd e FLT_SAFE_NO_AUTO = 0 → inTrans e = false → pairRuns e 0 = true → Answers .quietPeriodExpiry s
        (recover s.dram (tickTo e (e.flt.quietAt + msUnits (rd e FLT_CTRL_QUIET_MS))) true)) ∧
    (∀ t rest, recentNow e = t :: rest →
      let w := tickTo e (t + 86400 * 10 ^ 9 * nsUnit)
      Answers .recoveryWindowExpiry s { w with flt := { w.flt with recent := w.flt.recent.filter fun u => u != t } })

/-- R537: when the history queue is full, a new record displaces the oldest record whose class is at or below its own, and is
discarded where there is none. Each adds 1 to FLT_CNT_HIST_DROP and sets FLT_STATUS.OVF, and the next stored record
carries OVF = 1: the displacing record itself, or, as long as it does not, the one that is stored next. A record taken
by a queue that is not full stands at its end, and carries OVF exactly where a mark was due. -/
def Obligations.FullHistoryQueueKeepsTheGraverRecords : Prop :=
  ∀ (e : Engine) (cls : FClass) (promoted : Bool) (src : Nat) (syn : Word),
    let r : Bool → HistRec := fun v => ⟨tbNs e, cls, promoted, v, src, e.flt.rseq % 256, syn⟩
    let p := pushHist e cls promoted src syn
    let lost := reg p FLT_CNT_HIST_DROP = reg e FLT_CNT_HIST_DROP + 1 ∧ on p FLT_STATUS_OVF = true
    p.flt.rseq = (e.flt.rseq + 1) % 256 ∧
    (e.flt.hist.length < 32 →
      p.flt.hist = e.flt.hist ++ [r e.flt.ovfPend] ∧ p.flt.ovfPend = false ∧ p.regs = e.regs) ∧
    (e.flt.hist.length = 32 →
      (∀ before old after, e.flt.hist = before ++ old :: after →
        (∀ x ∈ before, classCode cls < classCode x.cls) → classCode old.cls ≤ classCode cls →
        lost ∧ ∃ v, p.flt.hist = before ++ after ++ [r v] ∧ (e.flt.ovfPend = true → v = true) ∧
          (v = false → p.flt.ovfPend = true)) ∧
      ((∀ x ∈ e.flt.hist, classCode cls < classCode x.cls) →
        p.flt.hist = e.flt.hist ∧ p.flt.ovfPend = true ∧ lost))

namespace Sys2Proof.Machine

/-- The engine in which the port `rp` writes: the write stands in the trace where it is traced (R581). -/
def traced (s : State) (rp : RegPort) (addr : Nat) (data : Word) : Engine :=
  traceRec s.fresh (if isInternal rp then 2 else 1) addr data

/-- The command writes `data` at `addr` through the port `rp`: it changes nothing while the port takes no access, is
recorded and has no further effect where the access completes with REG_ERR, and else leaves the engine `e`. -/
structure Writes (i : Instr) (s : State) (rp : RegPort) (addr : Nat) (data : Word) (e : Engine) : Prop where
  down : portUp s.fresh rp = false → AnswersWrite i s s.fresh
  error : portUp s.fresh rp = true → accessError (traced s rp addr data) addr ≠ 0 →
    AnswersWrite i s (regError (traced s rp addr data) addr (accessError (traced s rp addr data) addr))
  effect : portUp s.fresh rp = true → accessError (traced s rp addr data) addr = 0 → AnswersWrite i s e

/-- The command writes `data` to the register at the value address `a`, which stores it; `f` is what follows a write
that is not discarded. -/
def Stores (i : Instr) (s : State) (rp : RegPort) (a : Nat) (data : Word) (f : Wrote → Engine) : Prop :=
  ∀ d, regDesc a = some d →
    let w := storeWrite (traced s rp a data) rp a 0 d data
    Writes i s rp a data (if w.done then f w else w.e)

end Sys2Proof.Machine

/-- R563: GC_REG_STATUS records the cause and the address of the first access that completes with REG_ERR after the last clear;
later such accesses change nothing until the register is cleared by a write of its SEQ. -/
def Obligations.FirstErroredAccessIsRecorded : Prop :=
  ∀ (s : State) (rp : RegPort) (addr : BitVec 24) (data : Word), portUp s.fresh rp = true →
    let t := traced s rp addr.toNat data
    let c := accessError t addr.toNat
    (c ≠ 0 →
      (rd t GC_REG_STATUS_CAUSE = 0 → ∃ e, AnswersWrite (.registerWrite rp addr data) s e ∧
        rd e GC_REG_STATUS_CAUSE = c ∧ rd e GC_REG_STATUS_ADDR = addr.toNat / 4 ∧ SameRegs t e [GC_REG_STATUS] ∧
        (portRead t rp addr.toNat).map (·.2.2) = some e) ∧
      (rd t GC_REG_STATUS_CAUSE ≠ 0 → AnswersWrite (.registerWrite rp addr data) s t ∧
        (portRead t rp addr.toNat).map (·.2.2) = some t)) ∧
    (∀ (x : Engine) (seq : Nat), seq = wordField (reg x GC_REG_STATUS) 31 24 →
      rd (seqWrite x GC_REG_STATUS seq) GC_REG_STATUS_CAUSE = 0)

/-- R8, R9, R10, R566, R567, R569: a write to a register with stored fields. A rule that discards it leaves every register but
the region's CFG_REJECT as it was. Otherwise each bit of an RW field, and of an RWD field while its block is disabled,
takes the written bit, or is set, cleared or inverted by a 1 at its alias, and every other bit stays; a write
that would change an RWD field of an enabled block is flagged in CFG_REJECT, and no other write of these is. No other
register changes but GC_PAR_INJ, whose ARM the write uses up.
R566: an enable that the write sets stays 0 and is flagged where a check fails on the new values; one that it
clears stays 1 where R105, R341, R369 or R395 keeps it.
Where the spec leaves it open, this rests on the model's choices in the log entries 24, 25, 29 and 37. -/
def Obligations.WritesTakeTheirFields : Prop :=
  ∀ (e : Engine) (p : RegPort) (a al : Nat) (d : RegDesc) (data : Word),
    al < 4 → regDesc a = some d → isSeqReg d = false → lockMask e p a = 0 → a ≠ GC_SPARE_CTRL →
    let old := reg e a
    let want := wanted d al old data
    let w := storeWrite e p a al d data
    let rwd := if d.blk.any (blkOn e (chIx a)) then accMask [.rwd] d.fields else 0
    let free := accMask [.rw, .rwd] d.fields &&& ~~~ rwd
    let set := ((want &&& free) ||| (old &&& ~~~ free)).getLsbD 31 && !old.getLsbD 31
    let clr := old.getLsbD 31 && !((want &&& free) ||| (old &&& ~~~ free)).getLsbD 31
    let new := mixWord free (aliasApply al old data) old
    (∀ c, discarded e p a al data want = some c → w.done = false ∧ reg w.e a = old ∧ SameRegs e w.e [rejectReg a]) ∧
    (discarded e p a al data want = none →
      w.done = true ∧ (∀ b, b ≠ a → b ≠ rejectReg a → b ≠ GC_PAR_INJ → a ≠ GC_ING_CTRL → reg w.e b = reg e b) ∧
      (∀ i < 31, free.getLsbD i = true → (reg w.e a).getLsbD i =
        (if al = 0 then data.getLsbD i else if al = 1 then old.getLsbD i || data.getLsbD i
         else if al = 2 then old.getLsbD i && !data.getLsbD i else xor (old.getLsbD i) (data.getLsbD i))) ∧
      (∀ i < 31, free.getLsbD i = false → (reg w.e a).getLsbD i = old.getLsbD i) ∧
      (isEnableReg a = false → reg w.e a = new ∧
        ((want ^^^ old) &&& rwd = 0 → reg w.e (rejectReg a) = reg e (rejectReg a)) ∧
        ((want ^^^ old) &&& rwd ≠ 0 → w.e = reject (storeReg e a new) p a 0)) ∧
      (isEnableReg a = true →
        (set = true → enableOk (setReg e a new) a = true →
          w.set = true ∧ ((reg w.e a).getLsbD 31 = true ∨ a = GC_GRIST_CTRL ∨ a = DIR_CTRL)) ∧
        (set = true → enableOk (setReg e a new) a = false → w.set = false ∧ (reg w.e a).getLsbD 31 = false) ∧
        (clr = true → clearRefused e a = false → w.clr = true ∧ (reg w.e a).getLsbD 31 = false) ∧
        (clr = true → clearRefused e a = true → w.clr = false ∧ (reg w.e a).getLsbD 31 = true)))

/-- R8, R565: a change of a status register's SQ fields adds 1 to its SEQ modulo 256, and an event that changes none leaves it.
A write of SEQ clears the fields only where it is the current one; then SEQ stays, and no other register changes but
the peak of the write queue. A clear with the SEQ that was read before a change has no effect. -/
def Obligations.SequenceNumbersGuardStatus : Prop :=
  (∀ (e : Engine) (a : Nat) (fs : List (Fld × Nat)),
    let w := setFields (reg e a) fs
    let e' := sqSet e a fs
    SameRegs e e' [a] ∧
    (w = reg e a → e' = e) ∧
    (w ≠ reg e a → wordField (reg e' a) 31 24 = (wordField (reg e a) 31 24 + 1) % 256 ∧
      wordField (reg e' a) 23 0 = wordField w 23 0 ∧
      (a ≠ QOS_DEGRADED → ¬ (TEL_WM_STATUS 0 ≤ a ∧ a / 0x100000 = 8) →
        seqWrite e' a (wordField (reg e a) 31 24) = e'))) ∧
  (∀ (e : Engine) (a seq : Nat), a ≠ QOS_DEGRADED → ¬ (TEL_WM_STATUS 0 ≤ a ∧ a / 0x100000 = 8) →
    let e' := seqWrite e a seq
    (wordField (reg e a) 31 24 ≠ seq → e' = e) ∧
    (wordField (reg e a) 31 24 = seq → wordField (reg e' a) 31 24 = seq ∧ SameRegs e e' [a] ∧
      (a ≠ CH_SCHED_STATUS (chIx a) → reg e' a = reg e a &&& ~~~ (sqMask a)) ∧
      (a = CH_SCHED_STATUS (chIx a) → rd e' (CH_SCHED_STATUS_WQ_PEAK (chIx a)) = wqOcc e (chIx a) % 256)))

/-- R86, R103, R105, R130, R168, R182, R184, R212, R218, R220, R248, R280, R341, R349, R398, R413, R420, R425, R429, R442,
R455: what an enable, a control or a configuration command stores, and what follows the stored write.
Where the spec leaves it open, this rests on the model's choices in the log entries 23, 31 and 35. -/
def Obligations.StoringCommandsSetTheirBlocksGoing : Prop :=
  ∀ (s : State) (rp : RegPort) (c : Fin 16) (bus : Fin 8) (k : Fin 8) (data : Word),
    let go := setBits [31] data
    let old := fun a => reg s.fresh a
    Stores (.ingEnable rp data) s rp GC_ING_CTRL go (fun w => if w.set then issueAllotments w.e else w.e) ∧
    Stores (.gristEnable rp data) s rp GC_GRIST_CTRL go (fun w => if w.set ∧ w.e.dbg.gristEnd.isNone then
      { w.e with dbg := { w.e.dbg with gristEnd := some (w.e.clk.cyc + 64 * regCycle, isInternal rp) } } else w.e) ∧
    Stores (.dirEnable rp data) s rp DIR_CTRL go (fun w => if w.set ∧ w.e.dir.initEnd.isNone then
      { w.e with dir := { w.e.dir with sets := [], initEnd := some (w.e.clk.cyc + 262144) } } else w.e) ∧
    Stores (.spareActivate rp data) s rp GC_SPARE_CTRL go (fun w =>
      if !(old GC_SPARE_CTRL).getLsbD 31 && on w.e GC_SPARE_CTRL_ACTIVE then writeDrops w.e else w.e) ∧
    Stores (.parityInjectArm rp data) s rp GC_PAR_INJ go (fun w => w.e) ∧
    Stores (.dbgEnable rp data) s rp GC_DBG_CTRL data (fun w => w.e) ∧
    (∀ x ∈ [(Instr.telSnap rp data, setBits [30] data), (.telCntClr rp data, setBits [29] data),
        (.telEnable rp data, data)],
      Stores x.1 s rp TEL_CTRL x.2 (fun w =>
        let e := if x.2.getLsbD 30 then { w.e with tel := { w.e.tel with shadow := w.e.tel.cnt } } else w.e
        let e := if x.2.getLsbD 29 then { e with tel := { e.tel with cnt := [] } } else e
        if w.set then telEnabled e else if w.clr then epochEnd (telPartial e) else e)) ∧
    Stores (.wmConfigWrite rp c data) s rp (TEL_WM_CFG c) data (fun w =>
      if on w.e TEL_CTRL_TEL_EN then wmLook (wmSetArmed w.e c true) c else wmSetArmed w.e c true) ∧
    Stores (.eccCntClr rp c data) s rp (CH_ECC_CTRL c) (setBits [30] data) (fun w => eccClear w.e c) ∧
    Stores (.eccMarkWrite rp c k data) s rp (CH_ECC_MARK c k) data (fun w => w.e) ∧
    (∀ x ∈ [(Instr.steepStart rp c data, 0), (.onlineRunStart rp c data, 1),
        (.offlineRunStart rp c data, 2)],
      Stores x.1 s rp (CH_TRN_CMD c) (goWord x.2 data) (fun w => beginRun w.e c (rd w.e (CH_TRN_CMD_MODE c))
        (rd w.e (CH_TRN_CMD_PRANKS c)) (rd w.e (CH_TRN_CMD_STEPS c)) none)) ∧
    Stores (.i3cGo rp bus data) s rp (CH_I3C_CMD bus) go (fun w =>
      let a := CH_I3C_CMD bus
      let e := setReg w.e a (setFields (reg w.e a) [(CH_I3C_CMD_BUSY bus, 1), (CH_I3C_CMD_DONE bus, 0), (CH_I3C_CMD_ERR bus, 0)])
      let v := getChan e (2 * bus.val)
      putChan e (2 * bus.val) { v with i3c := { v.i3c with queue := v.i3c.queue ++ [⟨4, .host, rd e (CH_I3C_CMD_HUB bus), 0⟩] } }) ∧
    Stores (.schedEnable rp c data) s rp (CH_SCHED_CTRL c) go (fun w => if w.set then
      let v := getChan w.e c
      spargeLook (pumpMeta (retryWaits (putChan w.e c { v with
        banks := v.banks.map fun (p : Nat × Bank) => (p.1, { p.2 with pred := 2 }) }))) c
      else w.e) ∧
    Stores (.schedDisable rp c data) s rp (CH_SCHED_CTRL c) (clrBits [31] data) (fun w => w.e) ∧
    Stores (.refEnable rp c data) s rp (CH_REF_CTRL c) go (fun w => if w.set || w.clr then judgeAll w.e c else w.e) ∧
    Stores (.rgEnable rp c data) s rp (CH_RG_CTRL c) go (fun w => if w.set then rgEnabled w.e c else w.e) ∧
    Stores (.trnEnable rp c data) s rp (CH_TRN_CTRL c) go (fun w =>
      if w.set then mapTrain w.e c fun t => { t with drift := w.e.clk.nominal } else w.e) ∧
    Stores (.scrubEnable rp c data) s rp (CH_SCRUB_CTRL c) go (fun w => if w.set then putChan w.e c { getChan w.e c with
      patrolAt := w.e.clk.nominal, scrubAt := w.e.clk.nominal, ecsAt := w.e.clk.nominal } else w.e) ∧
    Stores (.arbPrioWrite rp c data) s rp (CH_ARB_PRIO c) data (fun w => w.e) ∧
    Stores (.arbCtrlWrite rp c data) s rp (CH_ARB_CTRL c) data (fun w => w.e) ∧
    Stores (.cryEnable rp data) s rp CRY_CTRL go (fun w => if w.set then ctxGenerate w.e 0 0 else w.e) ∧
    Stores (.cryLock rp data) s rp CRY_CTRL (setBits [30] data) (fun w => if w.set then ctxGenerate w.e 0 0 else w.e) ∧
    (∀ x ∈ [(Instr.qosEnable rp data, go), (.qosCommit rp data, setBits [30] data)],
      Stores x.1 s rp QOS_CTRL x.2 (fun w =>
        let e := if x.2.getLsbD 30 then (if commitBad w.e then reject w.e rp QOS_CTRL 2 else qosCommit w.e) else w.e
        if w.set then fillBuckets e else e)) ∧
    Stores (.ringEnable rp data) s rp RING_CTRL go (fun w =>
      let e := if wf (old RING_CTRL) RING_CTRL_TB_MASTER ≠ rd w.e RING_CTRL_TB_MASTER
        then mapRing w.e fun r => { r with sender := false } else w.e
      if w.set then ringEnabled e else if w.clr then mapRing e fun r => { r with own := [], laps := [], noNonce := false } else e) ∧
    Stores (.tbSet rp data) s rp PWR_TB_SETC go (fun w => applyEstimate w.e
      (((reg w.e PWR_TB_SET0).toNat + (reg w.e PWR_TB_SET1).toNat * 2 ^ 32) * nsUnit) (rd w.e PWR_TB_SETC_UNCERT)) ∧
    Stores (.pwrCmdGo rp data) s rp PWR_CMD go (fun w => powerRequest w.e (rd w.e PWR_CMD_TARGET) none) ∧
    Stores (.mbxLock rp data) s rp MBX_CTRL go (fun w => w.e)

/-- R47, R562, R565, R574, R580, R536, R557, R485, R478: a REGISTER_WRITE whose access is mapped and powered is the write of its
value address and alias; a write of SEQ goes to its status register; a selector starts a capture of its bank; the halt,
step and resume of a pair act only under DBG_EN; an injection raises its event; p records leave the history; and a
mailbox's payload, CONSUME, RING and RELEASE and a pair's own kick have the effect of their state machine.
R571, R572, R574, R575: a capture ends a pending selection of its bank: VALID is set with the selected words, or with
BAD and words of zero for a selector that is undefined; a removing selector takes its record out of the log. The
parity sweep reports each lane whose parity is wrong, and changes nothing where none is.
Where the spec leaves it open, this rests on the model's choices in the log entries 23, 28, 32 and 34. -/
def Obligations.RegisterCommandsActOnTheirRegisters : Prop :=
  (∀ (s : State) (rp : RegPort) (addr : BitVec 24) (data : Word) (m ix : Fin 64) (k : Fin 16) (seq : BitVec 8) (n : BitVec 6),
    let t := fun a d => traced s rp a d
    Writes (.registerWrite rp addr data) s rp addr.toNat data
      (regWrite (t addr.toNat data) rp (valueAddr addr.toNat) (aliasOf addr.toNat) data) ∧
    (∀ d, regDesc (valueAddr addr.toNat) = some d → isSeqReg d = true →
      Writes (.seqClear rp addr seq) s rp (valueAddr addr.toNat) (seqWord seq)
        (seqWrite (t (valueAddr addr.toNat) (seqWord seq)) (valueAddr addr.toNat) seq.toNat)) ∧
    Writes (.wmNoticeClear rp k seq) s rp (TEL_WM_STATUS k) (seqWord seq)
      (wmClear (t (TEL_WM_STATUS k) (seqWord seq)) k seq.toNat) ∧
    Writes (.qosDegradedClear rp seq) s rp QOS_DEGRADED (seqWord seq)
      (degradedClear (t QOS_DEGRADED (seqWord seq)) seq.toNat) ∧
    Writes (.wrwSelect rp data) s rp GC_WRW_SEL data (let e := t GC_WRW_SEL data
      putWrw e (wrwIx rp) { getWrw e (wrwIx rp) with
        sel := wordField data 15 0, valid := false, bad := false, pend := true }) ∧
    Writes (.histPop rp n) s rp FLT_HIST_POP (n.setWidth 32) (let e := t FLT_HIST_POP (n.setWidth 32)
      { e with flt := { e.flt with hist := e.flt.hist.drop n.toNat } }) ∧
    Writes (.faultInject rp data) s rp FLT_INJECT (setBits [31] data)
      (let e := t FLT_INJECT (setBits [31] data)
       let c := wf data FLT_INJECT_CLASS
       let source := wf data FLT_INJECT_SOURCE
       if on e FLT_CTRL_INJ_EN = false ∨ c = 3 ∨ srcDefined source = false ∨ (source ≤ 1 ∧ c ≠ 2) then
         reject e rp FLT_INJECT 2
       else if source = 0 then reportFault e 0 .fatal false 0xFE000000 2
       else if c = 0 then raise e source .corrected 0xFE000000
       else if c = 1 then raise e source .contained 0xFE000000
       else raise e source .fatal 0xFE000000) ∧
    (∀ x ∈ [(Instr.dbgHalt rp data, 31), (.dbgStep rp data, 30), (.dbgResume rp data, 29)],
      let b := x.2
      let w := setBits [b] data
      let e := t GC_DBG_CORE w
      let pair := wf data GC_DBG_CORE_PAIR
      let kept := storeReg e GC_DBG_CORE (setWordField (reg e GC_DBG_CORE) 24 24 pair)
      let one := [31, 30, 29].all fun j => !w.getLsbD j || j == b
      Writes x.1 s rp GC_DBG_CORE w (if on e GC_DBG_CTRL_DBG_EN = false then reject e rp GC_DBG_CORE 3
        else if one = false then reject e rp GC_DBG_CORE 2
        else if b ≠ 29 ∧ pair = 1 ∧ Config.dbgLock = true then reject e rp GC_DBG_CORE 3
        else if b = 31 then setHalted (dbgTouch kept pair) pair true
        else if b = 30 then dbgTouch kept pair
        else setHalted kept pair false)) ∧
    (let e := t (MBX_MB_D m ix) data
     Writes (.mailboxPayloadWrite rp m ix data) s rp (MBX_MB_D m ix) data
      (if boxUsable e m = false then boxFlag e MBX_STATUS_UNBOUND m
       else if boxEnd e m rp = some false ∧ boxState e m = 0 then setReg (setBox e m 1) (MBX_MB_D m ix) data
       else if boxEnd e m rp = some true ∧ boxState e m = 0 then setReg (setBox e m 3) (MBX_MB_D m ix) data
       else if (boxEnd e m rp = some false ∧ boxState e m = 1) ∨ (boxEnd e m rp = some true ∧ boxState e m = 3) then
         setReg e (MBX_MB_D m ix) data
       else boxFlag e MBX_STATUS_WR_DENIED m)) ∧
    (∀ x ∈ [(Instr.mailboxConsume rp m, 31), (.mailboxRing rp m, 30), (.mailboxRelease rp m, 29)],
      let b := x.2
      let e := t (MBX_MB_CMD m) (setBits [b] 0)
      let host := boxEnd e m rp = some false
      let core := boxEnd e m rp = some true
      Writes x.1 s rp (MBX_MB_CMD m) (setBits [b] 0) (if boxUsable e m = false then boxFlag e MBX_STATUS_UNBOUND m
        else if b = 31 then boxConsume e m rp
        else if b = 30 then
          (if isInternal rp = false then reject e rp (MBX_MB_CMD m) 2
           else if core ∧ boxState e m = 3 then deliverBox e m 4 else boxFlag e MBX_STATUS_DB_REFUSED m)
        else if (host ∧ boxState e m = 1) ∨ (core ∧ boxState e m = 3) then setBox e m 0
        else boxFlag e MBX_STATUS_WR_DENIED m)) ∧
    (let e := t MBX_CORE_KICK (setBits [0] data)
     Writes (.coreKick rp data) s rp MBX_CORE_KICK (setBits [0] data)
      (if rp = .ext then reject e rp MBX_CORE_KICK 2
       else mapCore e (if rp = .mc01 then 0 else 1) fun c => { c with kick := e.clk.nominal }))) ∧
  (∀ (s : State) (rp : RegPort), clocked s.fresh = true →
    let e := s.fresh
    let w := getWrw e (wrwIx rp)
    (w.pend = true → ∃ x, Answers (.wrwCapture rp) s x ∧
      (∀ n < 16, w.sel = 0x100 + n → ∀ r rs, (getChan e n).ecc = r :: rs →
        x = putWrw (putChan e n { getChan e n with ecc := rs }) (wrwIx rp)
          { w with pend := false, valid := true, bad := false, words := eccWords r }) ∧
      (∀ i < 32, w.sel = 0x500 + i → x = putWrw e (wrwIx rp) { w with
        pend := false, valid := true, bad := false
        words := if h : i < e.flt.hist.length then histWords e.flt.hist[i] else noWords }) ∧
      (w.sel = 0x400 → x = putWrw e (wrwIx rp) { w with
        pend := false, valid := true, bad := false
        words := twoWords (tbNs e) ++ [word (e.clk.tb % nsUnit), word (tbUncert e)] }) ∧
      ((w.sel < 0x100 ∨ 0x110 ≤ w.sel ∧ w.sel < 0x200 ∨ 0x1600 ≤ w.sel ∧ w.sel < 0x2000 ∨ 0x2002 ≤ w.sel) →
        x = putWrw e (wrwIx rp) { w with pend := false, valid := true, bad := true, words := noWords })) ∧
    (w.pend = false → Answers (.wrwCapture rp) s e) ∧
    Answers .paritySweep s ((e.dbg.badLanes.map (·.1)).foldl parityFault e) ∧
    (∀ (x : Engine) (a : Nat), badNow x a = 0 → parityFault x a = x) ∧
    (∀ (x : Engine) (a : Nat), badNow x a ≠ 0 → chanPowered x a = true → parityFault x a =
      (let syn := BitVec.ofNat 32 (badNow x a * 2 ^ 24 + a)
       if a / 0x100000 = 5 then reportFault x 0 .fatal false syn 2 else reportFault x 1 .fatal false syn 0)))

namespace Sys2Proof.Machine

/-- A write at `a` is flagged in the CFG_REJECT register at `r`: it is recorded there, or sets MULTI beside an earlier
rejection. -/
structure Flagged (e e' : Engine) (r a : Nat) : Prop where
  held : e'.dbg.rejHeld.contains r = true
  first : e.dbg.rejHeld.contains r = false → rd e' ⟨r, 17, 0⟩ = a % 0x100000 / 4
  further : e.dbg.rejHeld.contains r = true → on e' ⟨r, 20, 20⟩ = true

end Sys2Proof.Machine

/-- R105, R395: ING_EN does not set while GRIST_EN or QOS_EN is 0, and neither of these clears while ING_EN is 1, whatever
alias and value a write uses; the attempt is flagged in GC_CFG_REJECT, or in QOS_CFG_REJECT. The same holds of CRY_EN and
DIR_EN with the registers of their regions. -/
def Obligations.IngressWaitsForItsBlocks : Prop :=
  ∀ (s : State) (rp : RegPort) (addr : BitVec 24) (data : Word), portUp s.fresh rp = true → addr.toNat % 4 = 0 →
    let t := traced s rp addr.toNat data
    let a := valueAddr addr.toNat
    let asked := (aliasApply (aliasOf addr.toNat) (reg t a) data).getLsbD 31
    ∀ q ∈ [(GC_GRIST_CTRL, GC_CFG_REJECT), (CRY_CTRL, CRY_CFG_REJECT), (DIR_CTRL, DIR_CFG_REJECT),
        (QOS_CTRL, QOS_CFG_REJECT)],
      (a = GC_ING_CTRL → on t GC_ING_CTRL_ING_EN = false → asked = true → on t ⟨q.1, 31, 31⟩ = false →
        ∃ e, AnswersWrite (.registerWrite rp addr data) s e ∧ on e GC_ING_CTRL_ING_EN = false ∧ Flagged t e q.2 a) ∧
      (a = q.1 → on t ⟨q.1, 31, 31⟩ = true → asked = false → on t GC_ING_CTRL_ING_EN = true →
        ∃ e, AnswersWrite (.registerWrite rp addr data) s e ∧ on e ⟨q.1, 31, 31⟩ = true ∧ Flagged t e q.2 a)

/-- R37, R55, R56, R436, R437, R438, R439, R449, R468, R469, R470: a reset, a loss of a clock or of the supply takes effect in every
power state, and the modules lose their contents. PORST_N and a loss of the supply leave every register at its reset value;
SRST_N, ENG_PRESENT, a clock loss and a supply outside its range in SLEEP or DEEP keep Kiln, the next bin, the
calibration period, the AON status and the reset causes, to which they add their own; at the release of PORST_N what still
holds the core adds its cause. When nothing holds the core any more,
the PLL starts with BIN_NEXT, and at its lock the timebase starts, the security pair is released to the boot ROM and
the relay opens, 64 REG cycles later.
Where the spec leaves it open, this rests on the model's choices in the log entries 4 and 6. -/
def Obligations.ResetsClocksAndSuppliesAct : Prop :=
  (∀ (s : State) (ref : Bool), let e := s.fresh
    let zero := { engineReset with
      pins := { engineReset.pins with
        engPresent := e.pins.engPresent, srst := e.pins.srst, wake := e.pins.wake, supply := e.pins.supply }
      free := e.free }
    let cause := fun (x : Engine) (f : Fld) => if e.pins.supply && !e.pins.porst then sqSet x PWR_RESET_CAUSE [(f, 1)] else x
    let starts := fun (x : Engine) => mapClk x fun c => { c with root := .starting, bin := rd x PWR_BIN_NEXT_BIN_NEXT }
    AnswersLost .porstAssert s zero ∧
    AnswersLost .supplyLoss s { zero with pins := { zero.pins with supply := false } } ∧
    AnswersLost .srstAssert s (cause (coreReset { e with pins := { e.pins with srst := true } }) PWR_RESET_CAUSE_SRST) ∧
    AnswersLost .engPresentLow s (cause (mapClk (coreReset { e with pins := { e.pins with engPresent := false } })
      fun c => { c with lost := e.clk.lost }) PWR_RESET_CAUSE_ABSENT) ∧
    (canLoseClock e ref = true → AnswersLost (.clockLoss ref) s (mapClk
      (sqSet (coreReset e) PWR_RESET_CAUSE [(if ref then PWR_RESET_CAUSE_REF_LOSS else PWR_RESET_CAUSE_LOCK_LOST, 1)])
      fun c => { c with lost := !e.pins.srst })) ∧
    (canLoseClock e ref = false → Answers (.clockLoss ref) s e) ∧
    (offFromSleep e = true → AnswersLost .supplyOutOfRange s
      (sqSet (wr (coreReset e) PWR_STATE_STATE 4) PWR_AON_STATUS [(PWR_AON_STATUS_RET_LOST, 1)])) ∧
    (offFromSleep e = false → Answers .supplyOutOfRange s e) ∧
    (e.pins.porst = true → e.pins.supply = true → let x := { e with pins := { e.pins with porst := false } }
      (e.pins.engPresent = false → e.pins.srst = false →
        Answers .porstRelease s (sqSet x PWR_RESET_CAUSE [(PWR_RESET_CAUSE_ABSENT, 1)])) ∧
      (e.pins.engPresent = true → e.pins.srst = true →
        Answers .porstRelease s (sqSet x PWR_RESET_CAUSE [(PWR_RESET_CAUSE_SRST, 1)])) ∧
      (e.pins.engPresent = false → e.pins.srst = true → Answers .porstRelease s
        (sqSet (sqSet x PWR_RESET_CAUSE [(PWR_RESET_CAUSE_ABSENT, 1)]) PWR_RESET_CAUSE [(PWR_RESET_CAUSE_SRST, 1)])) ∧
      (e.pins.engPresent = true → e.pins.srst = false → e.clk.lost = false → Answers .porstRelease s (starts x))) ∧
    (e.pins.srst = true → let x := { e with pins := { e.pins with srst := false } }
      (released x = true → Answers .srstRelease s (starts x)) ∧ (released x = false → Answers .srstRelease s x)) ∧
    (e.clk.root = .starting → released e = true →
      let x := mapClk (kilnInReset e) startDividers
      let x := tick { x with pins := { x.pins with relayClosed := false } } (64 * regCycle)
      Answers .pllLock s (mapCore x 1 fun c => { c with released := true, kick := x.clk.nominal })) ∧
    (e.pins.porst = true → e.pins.engPresent = true →
      Answers .suppliesRise s { e with pins := { e.pins with supply := true } })) ∧
  (∀ (e : Engine) (a : Nat),
    let x := coreReset e
    (reg x a = (if a ∈ [PWR_BIN_NEXT, PWR_RESET_CAUSE, PWR_KILN_PER, PWR_AON_STATUS] then reg e a else resetOf a) ∧
      x.clk.root = .stopped ∧ x.clk.kiln = (kilnSync e).clk.kiln ∧ x.clk.epochInvalid = true ∧ x.pins.relayClosed = true ∧
      x.pins.chReset = List.replicate 32 false ∧ isSafe x = false ∧ pwrState x = 0 ∧ x.pwr.pend = none ∧
      x.mci.sessions = [] ∧ x.sec.keys = [] ∧ x.ports = [] ∧ x.chans = [] ∧ x.boot.stage = 1))

/-- R588: in the Load stage the boot ROM takes a request of the boot mailbox without a session; it stores a chunk that
continues its image, answers DENIED and discards the image where the verification fails, and places a verified image;
with the third one the pairs are released and the next stage begins.
R591, R592, R593, R596: Mulum goes on with the stage that is next; a completed one is followed by the next, the last by the boot
record with OK; a failure stops the boot with the record of its stage. The configuration is refused where a record,
the size, the binding of MB0 or BIN does not fit. R62, R161: Geometry, where the modules are equal and fit the bin,
computes the timing fields, a minimum time as the least number of cycles that covers it. After Power PWR_CH_PWR is CH_MASK's, after Lock MBX_CTRL.LOCK is 1, and
after Open ING_EN and IN_SERVICE are 1.
Where the spec leaves it open, this rests on the model's choices in the log entries 58, 59, 60, 61, 138 and 150. -/
def Obligations.BringUpTakesItsStages : Prop :=
  (∀ (s : State), let e := s.fresh; let c := messageOf e 0
    bootBox e 0 = true → boxState e 0 = 2 → e.boot.stage = 1 → pairRuns e 1 = true →
    let x := traceRec (boxConsume e 0 .mc23) 3 c.op (c.w 0)
    let kind := c.f 1 1 0
    let fails := fun (x : Engine) (st : Nat) =>
      Answers .bootFwStage s (answer x 0 c.op c.tag st 0 (if (c.w 1).getLsbD 31 then [0, 0, 0] else []))
    let chunk := stageChunk x.boot.stageBuf kind (c.w 2).toNat (260 + payloadMax kind + 3)
      (wordBytes ((c.words.take c.len).drop 3))
    (c.op ≠ 0x0800 → Answers .bootFwStage s (answer x 0 c.op c.tag stUnsupported 0 [])) ∧
    (c.op = 0x0800 → (c.w 0).getLsbD 31 = false → c.w 1 &&& 0x7FFFFFFC = 0 →
      ((c.len < 3 ∨ 64 < c.len ∨ kind = 0) → fails x stBadArg) ∧
      (3 ≤ c.len → c.len ≤ 64 → kind ≠ 0 →
        (chunk = none → fails x stBadArg) ∧
        (∀ g, chunk = some g →
          let y := putFwStage x none
          let rest := y.boot.images.filter fun (i : Nat × Nat × List Byte) => i.1 != kind
          ((c.w 1).getLsbD 31 = false → Answers .bootFwStage s (answer (putFwStage x (some g)) 0 c.op c.tag stOk 0 [])) ∧
          ((c.w 1).getLsbD 31 = true → verifyStage g = none →
            fails (mapBoot y fun b => { b with images := rest }) stDenied) ∧
          (∀ i, (c.w 1).getLsbD 31 = true → verifyStage g = some i → Answers .bootFwStage s (loadDone
            (answer (mapBoot y fun b => { b with images := rest ++ [(kind, i.svn, i.payload)] }) 0 c.op c.tag stOk 0
              [word (stageImage g).length, 0, word i.svn]))))))) ∧
  (∀ (e : Engine) (v1 v2 v3 : Nat) (i1 i2 i3 : List Byte),
    bootImage e 1 = some (v1, i1) → bootImage e 2 = some (v2, i2) → bootImage e 3 = some (v3, i3) → e.cores.length = 2 →
    let x := loadDone e
    x.boot.stage = 2 ∧ x.boot.recs = bootRecs (i3.length / 8) i3 ∧
    (x.cores[0]?).map (fun c => (c.svn, c.released)) = some (v2, true) ∧
    (x.cores[1]?).map (fun c => (c.svn, c.released)) = some (v1, true)) ∧
  (∀ (s : State) (ts : List (Fin 16 × Fin 34 × Nat)) (res : Bool), let e := s.fresh
    let run := stageRun e (ts.map fun x => (x.1.val, x.2.1.val, x.2.2)) res
    let k := e.boot.stage
    let at' := fun (x : Engine) => AnswersWrite (.bringUpStage ts res) s x
    (clocked e = true → pairRuns e 0 = true → e.boot.failed = false → isSafe e = false →
      (∀ x, run = .wait x → at' x) ∧
      (∀ x, run = .done x → k ≠ 13 → at' (mapBoot x fun b => { b with stage := k + 1 })) ∧
      (∀ x, run = .done x → k = 13 → at' (bootRecord (mapBoot x fun b => { b with stage := 14 }) stOk 13 0 none)) ∧
      (∀ x st ch r, run = .fail x st ch r → at' (bootRecord (mapBoot x fun b => { b with failed := true }) st k ch r))) ∧
    (k = 2 →
      (∀ r, badBootRec e = some r → run = .fail e stBadArg 0 (some r)) ∧
      (badBootRec e = none → bindsMb0 e = false → run = .fail e stBadArg 0 none)) ∧
    (∀ x, run = .done x →
      (k = 3 → reg x PWR_CH_PWR = word (chMask e * 2 ^ 16 + chMask e)) ∧
      (k = 12 → on x MBX_CTRL_LOCK = true) ∧
      (k = 13 → on x GC_ING_CTRL_ING_EN = true ∧ on x PWR_CTRL_IN_SERVICE = true)) ∧
    (k = 5 → let ns := bootChans e
      (∀ n ∈ ns, reg e (CH_PHY_SPD n) = reg e (CH_PHY_SPD (ns.headD 0))) →
      (∀ n ∈ ns, binRate e.clk.bin ≤ rd e (CH_PHY_SPD_MAX_RATE n) ∧ rateFits e n = true) →
      run = .done (ns.foldl (chanTimes (ts.map fun x => (x.1.val, x.2.1.val, x.2.2))) e))) ∧
  (∀ (rate ps : Nat) (ctl : Bool), let u := if ctl then 8000000 else 2000000
    ps * rate ≤ timCycles rate ps ctl * u ∧ ∀ c, ps * rate ≤ c * u → timCycles rate ps ctl ≤ c)

/-- The block takes its commands in order of arrival: with a command at the front of the queue, a step is that command's
effect on the machine with the rest of the queue. -/
def Obligations.StepTakesTheFrontCommand : Prop :=
  ∀ (s : State) (c : Instr) (rest : List Instr),
    step { s with pending := c :: rest } = exec c { s with pending := rest }

/-- Every command completes: it answers a next state, never a fault or a refusal, and leaves the waiting commands as they are.
On an empty queue the block idles: a CTL cycle passes where the root clock runs, in which RING_OUT sends what waits for it,
and a Kiln tick where only AON is powered; no module and no command changes, and no register where nothing waits for
RING_OUT (log entry 3 is the model's choice here). -/
def Obligations.EveryCommandCompletesAndKeepsTheQueue : Prop :=
  (∀ (i : Instr) (s : State), ∃ t, exec i s = .next t ∧ t.pending = s.pending) ∧
  (∀ (s : State), s.pending = [] → ∃ t, step s = .next t ∧ t.pending = [] ∧ t.dram = s.dram ∧
    (s.e.ring.transit = [] → s.e.ring.own = [] → t.e.regs = s.e.regs) ∧
    (s.e.clk.root = .locked → t.e = ringPump (tick s.fresh 1)) ∧
    (s.e.clk.root ≠ .locked → s.e.pins.supply = true → s.e.pins.porst = false → t.e = kilnTicks s.fresh 1) ∧
    (s.e.clk.root ≠ .locked → s.e.pins.supply = false ∨ s.e.pins.porst = true → t.e = s.fresh))

/-- The canonical form of the DRAM holds after every step: rising locations, no entry equal to what its location reads as
when nothing is stored there, and no slot left to be stored.
Where the spec leaves it open, this rests on the model's choices in the log entry 5. -/
def Obligations.EveryStepKeepsTheMachineSound : Prop :=
  ∀ (s t : State), s.Ok → step s = .next t → t.Ok

/-- The machine right after reset is sound, its queue is empty, and every register stands at the reset value of its
field table.
Where the spec leaves it open, this rests on the model's choices in the log entries 4 and 6. -/
def Obligations.ResetIsSound : Prop :=
  State.reset.Ok ∧ State.reset.pending = [] ∧ (∀ a, reg State.reset.e a = resetOf a) ∧ State.reset.e.regsOk ∧
  State.reset.e.pins.porst = true ∧ State.reset.e.clk.root = .stopped
end

