-- ==== Sys2Proof/Laws/State.lean ====
section
/-! SUPPORT. What each update of the engine leaves in each field of its state, one lemma per field and update. -/

namespace Sys2Proof.Machine

variable (e : Engine)

@[simp] theorem setReg_regs (a : Nat) (w : Word) : (setReg e a w).regs = tput (resetOf a) e.regs a w := rfl
@[simp] theorem setReg_clk (a : Nat) (w : Word) : (setReg e a w).clk = e.clk := rfl
@[simp] theorem setReg_pins (a : Nat) (w : Word) : (setReg e a w).pins = e.pins := rfl
@[simp] theorem setReg_flt (a : Nat) (w : Word) : (setReg e a w).flt = e.flt := rfl
@[simp] theorem setReg_dbg (a : Nat) (w : Word) : (setReg e a w).dbg = e.dbg := rfl
@[simp] theorem setReg_ports (a : Nat) (w : Word) : (setReg e a w).ports = e.ports := rfl
@[simp] theorem setReg_txns (a : Nat) (w : Word) : (setReg e a w).txns = e.txns := rfl
@[simp] theorem setReg_nextId (a : Nat) (w : Word) : (setReg e a w).nextId = e.nextId := rfl
@[simp] theorem setReg_dir (a : Nat) (w : Word) : (setReg e a w).dir = e.dir := rfl
@[simp] theorem setReg_qos (a : Nat) (w : Word) : (setReg e a w).qos = e.qos := rfl
@[simp] theorem setReg_tel (a : Nat) (w : Word) : (setReg e a w).tel = e.tel := rfl
@[simp] theorem setReg_chans (a : Nat) (w : Word) : (setReg e a w).chans = e.chans := rfl
@[simp] theorem setReg_pack (a : Nat) (w : Word) : (setReg e a w).pack = e.pack := rfl
@[simp] theorem setReg_sec (a : Nat) (w : Word) : (setReg e a w).sec = e.sec := rfl
@[simp] theorem setReg_ring (a : Nat) (w : Word) : (setReg e a w).ring = e.ring := rfl
@[simp] theorem setReg_pwr (a : Nat) (w : Word) : (setReg e a w).pwr = e.pwr := rfl
@[simp] theorem setReg_cores (a : Nat) (w : Word) : (setReg e a w).cores = e.cores := rfl
@[simp] theorem setReg_mci (a : Nat) (w : Word) : (setReg e a w).mci = e.mci := rfl
@[simp] theorem setReg_boot (a : Nat) (w : Word) : (setReg e a w).boot = e.boot := rfl
@[simp] theorem setReg_store (a : Nat) (w : Word) : (setReg e a w).store = e.store := rfl
@[simp] theorem setReg_free (a : Nat) (w : Word) : (setReg e a w).free = e.free := rfl

@[simp] theorem wr_regs (f : Fld) (v : Nat) : (wr e f v).regs = tput (resetOf f.addr) e.regs f.addr (setWordField (reg e f.addr) f.hi f.lo v) := rfl
@[simp] theorem wr_clk (f : Fld) (v : Nat) : (wr e f v).clk = e.clk := rfl
@[simp] theorem wr_pins (f : Fld) (v : Nat) : (wr e f v).pins = e.pins := rfl
@[simp] theorem wr_flt (f : Fld) (v : Nat) : (wr e f v).flt = e.flt := rfl
@[simp] theorem wr_dbg (f : Fld) (v : Nat) : (wr e f v).dbg = e.dbg := rfl
@[simp] theorem wr_ports (f : Fld) (v : Nat) : (wr e f v).ports = e.ports := rfl
@[simp] theorem wr_txns (f : Fld) (v : Nat) : (wr e f v).txns = e.txns := rfl
@[simp] theorem wr_nextId (f : Fld) (v : Nat) : (wr e f v).nextId = e.nextId := rfl
@[simp] theorem wr_dir (f : Fld) (v : Nat) : (wr e f v).dir = e.dir := rfl
@[simp] theorem wr_qos (f : Fld) (v : Nat) : (wr e f v).qos = e.qos := rfl
@[simp] theorem wr_tel (f : Fld) (v : Nat) : (wr e f v).tel = e.tel := rfl
@[simp] theorem wr_chans (f : Fld) (v : Nat) : (wr e f v).chans = e.chans := rfl
@[simp] theorem wr_pack (f : Fld) (v : Nat) : (wr e f v).pack = e.pack := rfl
@[simp] theorem wr_sec (f : Fld) (v : Nat) : (wr e f v).sec = e.sec := rfl
@[simp] theorem wr_ring (f : Fld) (v : Nat) : (wr e f v).ring = e.ring := rfl
@[simp] theorem wr_pwr (f : Fld) (v : Nat) : (wr e f v).pwr = e.pwr := rfl
@[simp] theorem wr_cores (f : Fld) (v : Nat) : (wr e f v).cores = e.cores := rfl
@[simp] theorem wr_mci (f : Fld) (v : Nat) : (wr e f v).mci = e.mci := rfl
@[simp] theorem wr_boot (f : Fld) (v : Nat) : (wr e f v).boot = e.boot := rfl
@[simp] theorem wr_store (f : Fld) (v : Nat) : (wr e f v).store = e.store := rfl
@[simp] theorem wr_free (f : Fld) (v : Nat) : (wr e f v).free = e.free := rfl

@[simp] theorem inc_regs (a : Nat) : (inc e a).regs = tput (resetOf a) e.regs a (reg e a + 1) := rfl
@[simp] theorem inc_clk (a : Nat) : (inc e a).clk = e.clk := rfl
@[simp] theorem inc_pins (a : Nat) : (inc e a).pins = e.pins := rfl
@[simp] theorem inc_flt (a : Nat) : (inc e a).flt = e.flt := rfl
@[simp] theorem inc_dbg (a : Nat) : (inc e a).dbg = e.dbg := rfl
@[simp] theorem inc_ports (a : Nat) : (inc e a).ports = e.ports := rfl
@[simp] theorem inc_txns (a : Nat) : (inc e a).txns = e.txns := rfl
@[simp] theorem inc_nextId (a : Nat) : (inc e a).nextId = e.nextId := rfl
@[simp] theorem inc_dir (a : Nat) : (inc e a).dir = e.dir := rfl
@[simp] theorem inc_qos (a : Nat) : (inc e a).qos = e.qos := rfl
@[simp] theorem inc_tel (a : Nat) : (inc e a).tel = e.tel := rfl
@[simp] theorem inc_chans (a : Nat) : (inc e a).chans = e.chans := rfl
@[simp] theorem inc_pack (a : Nat) : (inc e a).pack = e.pack := rfl
@[simp] theorem inc_sec (a : Nat) : (inc e a).sec = e.sec := rfl
@[simp] theorem inc_ring (a : Nat) : (inc e a).ring = e.ring := rfl
@[simp] theorem inc_pwr (a : Nat) : (inc e a).pwr = e.pwr := rfl
@[simp] theorem inc_cores (a : Nat) : (inc e a).cores = e.cores := rfl
@[simp] theorem inc_mci (a : Nat) : (inc e a).mci = e.mci := rfl
@[simp] theorem inc_boot (a : Nat) : (inc e a).boot = e.boot := rfl
@[simp] theorem inc_store (a : Nat) : (inc e a).store = e.store := rfl
@[simp] theorem inc_free (a : Nat) : (inc e a).free = e.free := rfl

@[simp] theorem tick_regs (n : Nat) : (tick e n).regs = e.regs := rfl
@[simp] theorem tick_clk (n : Nat) : (tick e n).clk = clkCycles e.clk n := rfl
@[simp] theorem tick_pins (n : Nat) : (tick e n).pins = e.pins := rfl
@[simp] theorem tick_flt (n : Nat) : (tick e n).flt = e.flt := rfl
@[simp] theorem tick_dbg (n : Nat) : (tick e n).dbg = e.dbg := rfl
@[simp] theorem tick_ports (n : Nat) : (tick e n).ports = e.ports := rfl
@[simp] theorem tick_txns (n : Nat) : (tick e n).txns = e.txns := rfl
@[simp] theorem tick_nextId (n : Nat) : (tick e n).nextId = e.nextId := rfl
@[simp] theorem tick_dir (n : Nat) : (tick e n).dir = e.dir := rfl
@[simp] theorem tick_qos (n : Nat) : (tick e n).qos = e.qos := rfl
@[simp] theorem tick_tel (n : Nat) : (tick e n).tel = e.tel := rfl
@[simp] theorem tick_chans (n : Nat) : (tick e n).chans = e.chans := rfl
@[simp] theorem tick_pack (n : Nat) : (tick e n).pack = e.pack := rfl
@[simp] theorem tick_sec (n : Nat) : (tick e n).sec = e.sec := rfl
@[simp] theorem tick_ring (n : Nat) : (tick e n).ring = e.ring := rfl
@[simp] theorem tick_pwr (n : Nat) : (tick e n).pwr = e.pwr := rfl
@[simp] theorem tick_cores (n : Nat) : (tick e n).cores = e.cores := rfl
@[simp] theorem tick_mci (n : Nat) : (tick e n).mci = e.mci := rfl
@[simp] theorem tick_boot (n : Nat) : (tick e n).boot = e.boot := rfl
@[simp] theorem tick_store (n : Nat) : (tick e n).store = e.store := rfl
@[simp] theorem tick_free (n : Nat) : (tick e n).free = e.free := rfl

@[simp] theorem tickTo_regs (t : Nat) : (tickTo e t).regs = e.regs := rfl
@[simp] theorem tickTo_clk (t : Nat) : (tickTo e t).clk = clkCycles e.clk (cyclesTo e.clk t) := rfl
@[simp] theorem tickTo_pins (t : Nat) : (tickTo e t).pins = e.pins := rfl
@[simp] theorem tickTo_flt (t : Nat) : (tickTo e t).flt = e.flt := rfl
@[simp] theorem tickTo_dbg (t : Nat) : (tickTo e t).dbg = e.dbg := rfl
@[simp] theorem tickTo_ports (t : Nat) : (tickTo e t).ports = e.ports := rfl
@[simp] theorem tickTo_txns (t : Nat) : (tickTo e t).txns = e.txns := rfl
@[simp] theorem tickTo_nextId (t : Nat) : (tickTo e t).nextId = e.nextId := rfl
@[simp] theorem tickTo_dir (t : Nat) : (tickTo e t).dir = e.dir := rfl
@[simp] theorem tickTo_qos (t : Nat) : (tickTo e t).qos = e.qos := rfl
@[simp] theorem tickTo_tel (t : Nat) : (tickTo e t).tel = e.tel := rfl
@[simp] theorem tickTo_chans (t : Nat) : (tickTo e t).chans = e.chans := rfl
@[simp] theorem tickTo_pack (t : Nat) : (tickTo e t).pack = e.pack := rfl
@[simp] theorem tickTo_sec (t : Nat) : (tickTo e t).sec = e.sec := rfl
@[simp] theorem tickTo_ring (t : Nat) : (tickTo e t).ring = e.ring := rfl
@[simp] theorem tickTo_pwr (t : Nat) : (tickTo e t).pwr = e.pwr := rfl
@[simp] theorem tickTo_cores (t : Nat) : (tickTo e t).cores = e.cores := rfl
@[simp] theorem tickTo_mci (t : Nat) : (tickTo e t).mci = e.mci := rfl
@[simp] theorem tickTo_boot (t : Nat) : (tickTo e t).boot = e.boot := rfl
@[simp] theorem tickTo_store (t : Nat) : (tickTo e t).store = e.store := rfl
@[simp] theorem tickTo_free (t : Nat) : (tickTo e t).free = e.free := rfl

@[simp] theorem drawFree_regs : (drawFree e).regs = e.regs := rfl
@[simp] theorem drawFree_clk : (drawFree e).clk = e.clk := rfl
@[simp] theorem drawFree_pins : (drawFree e).pins = e.pins := rfl
@[simp] theorem drawFree_flt : (drawFree e).flt = e.flt := rfl
@[simp] theorem drawFree_dbg : (drawFree e).dbg = e.dbg := rfl
@[simp] theorem drawFree_ports : (drawFree e).ports = e.ports := rfl
@[simp] theorem drawFree_txns : (drawFree e).txns = e.txns := rfl
@[simp] theorem drawFree_nextId : (drawFree e).nextId = e.nextId := rfl
@[simp] theorem drawFree_dir : (drawFree e).dir = e.dir := rfl
@[simp] theorem drawFree_qos : (drawFree e).qos = e.qos := rfl
@[simp] theorem drawFree_tel : (drawFree e).tel = e.tel := rfl
@[simp] theorem drawFree_chans : (drawFree e).chans = e.chans := rfl
@[simp] theorem drawFree_pack : (drawFree e).pack = e.pack := rfl
@[simp] theorem drawFree_sec : (drawFree e).sec = e.sec := rfl
@[simp] theorem drawFree_ring : (drawFree e).ring = e.ring := rfl
@[simp] theorem drawFree_pwr : (drawFree e).pwr = e.pwr := rfl
@[simp] theorem drawFree_cores : (drawFree e).cores = e.cores := rfl
@[simp] theorem drawFree_mci : (drawFree e).mci = e.mci := rfl
@[simp] theorem drawFree_boot : (drawFree e).boot = e.boot := rfl
@[simp] theorem drawFree_store : (drawFree e).store = e.store := rfl
@[simp] theorem drawFree_free : (drawFree e).free = e.free + 1 := rfl

@[simp] theorem mapClk_regs (f : Clk → Clk) : (mapClk e f).regs = e.regs := rfl
@[simp] theorem mapClk_clk (f : Clk → Clk) : (mapClk e f).clk = f e.clk := rfl
@[simp] theorem mapClk_pins (f : Clk → Clk) : (mapClk e f).pins = e.pins := rfl
@[simp] theorem mapClk_flt (f : Clk → Clk) : (mapClk e f).flt = e.flt := rfl
@[simp] theorem mapClk_dbg (f : Clk → Clk) : (mapClk e f).dbg = e.dbg := rfl
@[simp] theorem mapClk_ports (f : Clk → Clk) : (mapClk e f).ports = e.ports := rfl
@[simp] theorem mapClk_txns (f : Clk → Clk) : (mapClk e f).txns = e.txns := rfl
@[simp] theorem mapClk_nextId (f : Clk → Clk) : (mapClk e f).nextId = e.nextId := rfl
@[simp] theorem mapClk_dir (f : Clk → Clk) : (mapClk e f).dir = e.dir := rfl
@[simp] theorem mapClk_qos (f : Clk → Clk) : (mapClk e f).qos = e.qos := rfl
@[simp] theorem mapClk_tel (f : Clk → Clk) : (mapClk e f).tel = e.tel := rfl
@[simp] theorem mapClk_chans (f : Clk → Clk) : (mapClk e f).chans = e.chans := rfl
@[simp] theorem mapClk_pack (f : Clk → Clk) : (mapClk e f).pack = e.pack := rfl
@[simp] theorem mapClk_sec (f : Clk → Clk) : (mapClk e f).sec = e.sec := rfl
@[simp] theorem mapClk_ring (f : Clk → Clk) : (mapClk e f).ring = e.ring := rfl
@[simp] theorem mapClk_pwr (f : Clk → Clk) : (mapClk e f).pwr = e.pwr := rfl
@[simp] theorem mapClk_cores (f : Clk → Clk) : (mapClk e f).cores = e.cores := rfl
@[simp] theorem mapClk_mci (f : Clk → Clk) : (mapClk e f).mci = e.mci := rfl
@[simp] theorem mapClk_boot (f : Clk → Clk) : (mapClk e f).boot = e.boot := rfl
@[simp] theorem mapClk_store (f : Clk → Clk) : (mapClk e f).store = e.store := rfl
@[simp] theorem mapClk_free (f : Clk → Clk) : (mapClk e f).free = e.free := rfl

@[simp] theorem mapRing_regs (f : Ring → Ring) : (mapRing e f).regs = e.regs := rfl
@[simp] theorem mapRing_clk (f : Ring → Ring) : (mapRing e f).clk = e.clk := rfl
@[simp] theorem mapRing_pins (f : Ring → Ring) : (mapRing e f).pins = e.pins := rfl
@[simp] theorem mapRing_flt (f : Ring → Ring) : (mapRing e f).flt = e.flt := rfl
@[simp] theorem mapRing_dbg (f : Ring → Ring) : (mapRing e f).dbg = e.dbg := rfl
@[simp] theorem mapRing_ports (f : Ring → Ring) : (mapRing e f).ports = e.ports := rfl
@[simp] theorem mapRing_txns (f : Ring → Ring) : (mapRing e f).txns = e.txns := rfl
@[simp] theorem mapRing_nextId (f : Ring → Ring) : (mapRing e f).nextId = e.nextId := rfl
@[simp] theorem mapRing_dir (f : Ring → Ring) : (mapRing e f).dir = e.dir := rfl
@[simp] theorem mapRing_qos (f : Ring → Ring) : (mapRing e f).qos = e.qos := rfl
@[simp] theorem mapRing_tel (f : Ring → Ring) : (mapRing e f).tel = e.tel := rfl
@[simp] theorem mapRing_chans (f : Ring → Ring) : (mapRing e f).chans = e.chans := rfl
@[simp] theorem mapRing_pack (f : Ring → Ring) : (mapRing e f).pack = e.pack := rfl
@[simp] theorem mapRing_sec (f : Ring → Ring) : (mapRing e f).sec = e.sec := rfl
@[simp] theorem mapRing_ring (f : Ring → Ring) : (mapRing e f).ring = f e.ring := rfl
@[simp] theorem mapRing_pwr (f : Ring → Ring) : (mapRing e f).pwr = e.pwr := rfl
@[simp] theorem mapRing_cores (f : Ring → Ring) : (mapRing e f).cores = e.cores := rfl
@[simp] theorem mapRing_mci (f : Ring → Ring) : (mapRing e f).mci = e.mci := rfl
@[simp] theorem mapRing_boot (f : Ring → Ring) : (mapRing e f).boot = e.boot := rfl
@[simp] theorem mapRing_store (f : Ring → Ring) : (mapRing e f).store = e.store := rfl
@[simp] theorem mapRing_free (f : Ring → Ring) : (mapRing e f).free = e.free := rfl

@[simp] theorem mapSec_regs (f : Sec → Sec) : (mapSec e f).regs = e.regs := rfl
@[simp] theorem mapSec_clk (f : Sec → Sec) : (mapSec e f).clk = e.clk := rfl
@[simp] theorem mapSec_pins (f : Sec → Sec) : (mapSec e f).pins = e.pins := rfl
@[simp] theorem mapSec_flt (f : Sec → Sec) : (mapSec e f).flt = e.flt := rfl
@[simp] theorem mapSec_dbg (f : Sec → Sec) : (mapSec e f).dbg = e.dbg := rfl
@[simp] theorem mapSec_ports (f : Sec → Sec) : (mapSec e f).ports = e.ports := rfl
@[simp] theorem mapSec_txns (f : Sec → Sec) : (mapSec e f).txns = e.txns := rfl
@[simp] theorem mapSec_nextId (f : Sec → Sec) : (mapSec e f).nextId = e.nextId := rfl
@[simp] theorem mapSec_dir (f : Sec → Sec) : (mapSec e f).dir = e.dir := rfl
@[simp] theorem mapSec_qos (f : Sec → Sec) : (mapSec e f).qos = e.qos := rfl
@[simp] theorem mapSec_tel (f : Sec → Sec) : (mapSec e f).tel = e.tel := rfl
@[simp] theorem mapSec_chans (f : Sec → Sec) : (mapSec e f).chans = e.chans := rfl
@[simp] theorem mapSec_pack (f : Sec → Sec) : (mapSec e f).pack = e.pack := rfl
@[simp] theorem mapSec_sec (f : Sec → Sec) : (mapSec e f).sec = f e.sec := rfl
@[simp] theorem mapSec_ring (f : Sec → Sec) : (mapSec e f).ring = e.ring := rfl
@[simp] theorem mapSec_pwr (f : Sec → Sec) : (mapSec e f).pwr = e.pwr := rfl
@[simp] theorem mapSec_cores (f : Sec → Sec) : (mapSec e f).cores = e.cores := rfl
@[simp] theorem mapSec_mci (f : Sec → Sec) : (mapSec e f).mci = e.mci := rfl
@[simp] theorem mapSec_boot (f : Sec → Sec) : (mapSec e f).boot = e.boot := rfl
@[simp] theorem mapSec_store (f : Sec → Sec) : (mapSec e f).store = e.store := rfl
@[simp] theorem mapSec_free (f : Sec → Sec) : (mapSec e f).free = e.free := rfl

@[simp] theorem mapPwr_regs (f : Pwr → Pwr) : (mapPwr e f).regs = e.regs := rfl
@[simp] theorem mapPwr_clk (f : Pwr → Pwr) : (mapPwr e f).clk = e.clk := rfl
@[simp] theorem mapPwr_pins (f : Pwr → Pwr) : (mapPwr e f).pins = e.pins := rfl
@[simp] theorem mapPwr_flt (f : Pwr → Pwr) : (mapPwr e f).flt = e.flt := rfl
@[simp] theorem mapPwr_dbg (f : Pwr → Pwr) : (mapPwr e f).dbg = e.dbg := rfl
@[simp] theorem mapPwr_ports (f : Pwr → Pwr) : (mapPwr e f).ports = e.ports := rfl
@[simp] theorem mapPwr_txns (f : Pwr → Pwr) : (mapPwr e f).txns = e.txns := rfl
@[simp] theorem mapPwr_nextId (f : Pwr → Pwr) : (mapPwr e f).nextId = e.nextId := rfl
@[simp] theorem mapPwr_dir (f : Pwr → Pwr) : (mapPwr e f).dir = e.dir := rfl
@[simp] theorem mapPwr_qos (f : Pwr → Pwr) : (mapPwr e f).qos = e.qos := rfl
@[simp] theorem mapPwr_tel (f : Pwr → Pwr) : (mapPwr e f).tel = e.tel := rfl
@[simp] theorem mapPwr_chans (f : Pwr → Pwr) : (mapPwr e f).chans = e.chans := rfl
@[simp] theorem mapPwr_pack (f : Pwr → Pwr) : (mapPwr e f).pack = e.pack := rfl
@[simp] theorem mapPwr_sec (f : Pwr → Pwr) : (mapPwr e f).sec = e.sec := rfl
@[simp] theorem mapPwr_ring (f : Pwr → Pwr) : (mapPwr e f).ring = e.ring := rfl
@[simp] theorem mapPwr_pwr (f : Pwr → Pwr) : (mapPwr e f).pwr = f e.pwr := rfl
@[simp] theorem mapPwr_cores (f : Pwr → Pwr) : (mapPwr e f).cores = e.cores := rfl
@[simp] theorem mapPwr_mci (f : Pwr → Pwr) : (mapPwr e f).mci = e.mci := rfl
@[simp] theorem mapPwr_boot (f : Pwr → Pwr) : (mapPwr e f).boot = e.boot := rfl
@[simp] theorem mapPwr_store (f : Pwr → Pwr) : (mapPwr e f).store = e.store := rfl
@[simp] theorem mapPwr_free (f : Pwr → Pwr) : (mapPwr e f).free = e.free := rfl

@[simp] theorem mapPack_regs (f : Pack → Pack) : (mapPack e f).regs = e.regs := rfl
@[simp] theorem mapPack_clk (f : Pack → Pack) : (mapPack e f).clk = e.clk := rfl
@[simp] theorem mapPack_pins (f : Pack → Pack) : (mapPack e f).pins = e.pins := rfl
@[simp] theorem mapPack_flt (f : Pack → Pack) : (mapPack e f).flt = e.flt := rfl
@[simp] theorem mapPack_dbg (f : Pack → Pack) : (mapPack e f).dbg = e.dbg := rfl
@[simp] theorem mapPack_ports (f : Pack → Pack) : (mapPack e f).ports = e.ports := rfl
@[simp] theorem mapPack_txns (f : Pack → Pack) : (mapPack e f).txns = e.txns := rfl
@[simp] theorem mapPack_nextId (f : Pack → Pack) : (mapPack e f).nextId = e.nextId := rfl
@[simp] theorem mapPack_dir (f : Pack → Pack) : (mapPack e f).dir = e.dir := rfl
@[simp] theorem mapPack_qos (f : Pack → Pack) : (mapPack e f).qos = e.qos := rfl
@[simp] theorem mapPack_tel (f : Pack → Pack) : (mapPack e f).tel = e.tel := rfl
@[simp] theorem mapPack_chans (f : Pack → Pack) : (mapPack e f).chans = e.chans := rfl
@[simp] theorem mapPack_pack (f : Pack → Pack) : (mapPack e f).pack = f e.pack := rfl
@[simp] theorem mapPack_sec (f : Pack → Pack) : (mapPack e f).sec = e.sec := rfl
@[simp] theorem mapPack_ring (f : Pack → Pack) : (mapPack e f).ring = e.ring := rfl
@[simp] theorem mapPack_pwr (f : Pack → Pack) : (mapPack e f).pwr = e.pwr := rfl
@[simp] theorem mapPack_cores (f : Pack → Pack) : (mapPack e f).cores = e.cores := rfl
@[simp] theorem mapPack_mci (f : Pack → Pack) : (mapPack e f).mci = e.mci := rfl
@[simp] theorem mapPack_boot (f : Pack → Pack) : (mapPack e f).boot = e.boot := rfl
@[simp] theorem mapPack_store (f : Pack → Pack) : (mapPack e f).store = e.store := rfl
@[simp] theorem mapPack_free (f : Pack → Pack) : (mapPack e f).free = e.free := rfl

@[simp] theorem mapMci_regs (f : Mci → Mci) : (mapMci e f).regs = e.regs := rfl
@[simp] theorem mapMci_clk (f : Mci → Mci) : (mapMci e f).clk = e.clk := rfl
@[simp] theorem mapMci_pins (f : Mci → Mci) : (mapMci e f).pins = e.pins := rfl
@[simp] theorem mapMci_flt (f : Mci → Mci) : (mapMci e f).flt = e.flt := rfl
@[simp] theorem mapMci_dbg (f : Mci → Mci) : (mapMci e f).dbg = e.dbg := rfl
@[simp] theorem mapMci_ports (f : Mci → Mci) : (mapMci e f).ports = e.ports := rfl
@[simp] theorem mapMci_txns (f : Mci → Mci) : (mapMci e f).txns = e.txns := rfl
@[simp] theorem mapMci_nextId (f : Mci → Mci) : (mapMci e f).nextId = e.nextId := rfl
@[simp] theorem mapMci_dir (f : Mci → Mci) : (mapMci e f).dir = e.dir := rfl
@[simp] theorem mapMci_qos (f : Mci → Mci) : (mapMci e f).qos = e.qos := rfl
@[simp] theorem mapMci_tel (f : Mci → Mci) : (mapMci e f).tel = e.tel := rfl
@[simp] theorem mapMci_chans (f : Mci → Mci) : (mapMci e f).chans = e.chans := rfl
@[simp] theorem mapMci_pack (f : Mci → Mci) : (mapMci e f).pack = e.pack := rfl
@[simp] theorem mapMci_sec (f : Mci → Mci) : (mapMci e f).sec = e.sec := rfl
@[simp] theorem mapMci_ring (f : Mci → Mci) : (mapMci e f).ring = e.ring := rfl
@[simp] theorem mapMci_pwr (f : Mci → Mci) : (mapMci e f).pwr = e.pwr := rfl
@[simp] theorem mapMci_cores (f : Mci → Mci) : (mapMci e f).cores = e.cores := rfl
@[simp] theorem mapMci_mci (f : Mci → Mci) : (mapMci e f).mci = f e.mci := rfl
@[simp] theorem mapMci_boot (f : Mci → Mci) : (mapMci e f).boot = e.boot := rfl
@[simp] theorem mapMci_store (f : Mci → Mci) : (mapMci e f).store = e.store := rfl
@[simp] theorem mapMci_free (f : Mci → Mci) : (mapMci e f).free = e.free := rfl

@[simp] theorem mapBoot_regs (f : Boot → Boot) : (mapBoot e f).regs = e.regs := rfl
@[simp] theorem mapBoot_clk (f : Boot → Boot) : (mapBoot e f).clk = e.clk := rfl
@[simp] theorem mapBoot_pins (f : Boot → Boot) : (mapBoot e f).pins = e.pins := rfl
@[simp] theorem mapBoot_flt (f : Boot → Boot) : (mapBoot e f).flt = e.flt := rfl
@[simp] theorem mapBoot_dbg (f : Boot → Boot) : (mapBoot e f).dbg = e.dbg := rfl
@[simp] theorem mapBoot_ports (f : Boot → Boot) : (mapBoot e f).ports = e.ports := rfl
@[simp] theorem mapBoot_txns (f : Boot → Boot) : (mapBoot e f).txns = e.txns := rfl
@[simp] theorem mapBoot_nextId (f : Boot → Boot) : (mapBoot e f).nextId = e.nextId := rfl
@[simp] theorem mapBoot_dir (f : Boot → Boot) : (mapBoot e f).dir = e.dir := rfl
@[simp] theorem mapBoot_qos (f : Boot → Boot) : (mapBoot e f).qos = e.qos := rfl
@[simp] theorem mapBoot_tel (f : Boot → Boot) : (mapBoot e f).tel = e.tel := rfl
@[simp] theorem mapBoot_chans (f : Boot → Boot) : (mapBoot e f).chans = e.chans := rfl
@[simp] theorem mapBoot_pack (f : Boot → Boot) : (mapBoot e f).pack = e.pack := rfl
@[simp] theorem mapBoot_sec (f : Boot → Boot) : (mapBoot e f).sec = e.sec := rfl
@[simp] theorem mapBoot_ring (f : Boot → Boot) : (mapBoot e f).ring = e.ring := rfl
@[simp] theorem mapBoot_pwr (f : Boot → Boot) : (mapBoot e f).pwr = e.pwr := rfl
@[simp] theorem mapBoot_cores (f : Boot → Boot) : (mapBoot e f).cores = e.cores := rfl
@[simp] theorem mapBoot_mci (f : Boot → Boot) : (mapBoot e f).mci = e.mci := rfl
@[simp] theorem mapBoot_boot (f : Boot → Boot) : (mapBoot e f).boot = f e.boot := rfl
@[simp] theorem mapBoot_store (f : Boot → Boot) : (mapBoot e f).store = e.store := rfl
@[simp] theorem mapBoot_free (f : Boot → Boot) : (mapBoot e f).free = e.free := rfl

@[simp] theorem mapCore_regs (p : Nat) (f : Core → Core) : (mapCore e p f).regs = e.regs := rfl
@[simp] theorem mapCore_clk (p : Nat) (f : Core → Core) : (mapCore e p f).clk = e.clk := rfl
@[simp] theorem mapCore_pins (p : Nat) (f : Core → Core) : (mapCore e p f).pins = e.pins := rfl
@[simp] theorem mapCore_flt (p : Nat) (f : Core → Core) : (mapCore e p f).flt = e.flt := rfl
@[simp] theorem mapCore_dbg (p : Nat) (f : Core → Core) : (mapCore e p f).dbg = e.dbg := rfl
@[simp] theorem mapCore_ports (p : Nat) (f : Core → Core) : (mapCore e p f).ports = e.ports := rfl
@[simp] theorem mapCore_txns (p : Nat) (f : Core → Core) : (mapCore e p f).txns = e.txns := rfl
@[simp] theorem mapCore_nextId (p : Nat) (f : Core → Core) : (mapCore e p f).nextId = e.nextId := rfl
@[simp] theorem mapCore_dir (p : Nat) (f : Core → Core) : (mapCore e p f).dir = e.dir := rfl
@[simp] theorem mapCore_qos (p : Nat) (f : Core → Core) : (mapCore e p f).qos = e.qos := rfl
@[simp] theorem mapCore_tel (p : Nat) (f : Core → Core) : (mapCore e p f).tel = e.tel := rfl
@[simp] theorem mapCore_chans (p : Nat) (f : Core → Core) : (mapCore e p f).chans = e.chans := rfl
@[simp] theorem mapCore_pack (p : Nat) (f : Core → Core) : (mapCore e p f).pack = e.pack := rfl
@[simp] theorem mapCore_sec (p : Nat) (f : Core → Core) : (mapCore e p f).sec = e.sec := rfl
@[simp] theorem mapCore_ring (p : Nat) (f : Core → Core) : (mapCore e p f).ring = e.ring := rfl
@[simp] theorem mapCore_pwr (p : Nat) (f : Core → Core) : (mapCore e p f).pwr = e.pwr := rfl
@[simp] theorem mapCore_cores (p : Nat) (f : Core → Core) : (mapCore e p f).cores = setNth e.cores p (f (nth e.cores p ⟨0, none, false, 0⟩)) := rfl
@[simp] theorem mapCore_mci (p : Nat) (f : Core → Core) : (mapCore e p f).mci = e.mci := rfl
@[simp] theorem mapCore_boot (p : Nat) (f : Core → Core) : (mapCore e p f).boot = e.boot := rfl
@[simp] theorem mapCore_store (p : Nat) (f : Core → Core) : (mapCore e p f).store = e.store := rfl
@[simp] theorem mapCore_free (p : Nat) (f : Core → Core) : (mapCore e p f).free = e.free := rfl

@[simp] theorem putPort_regs (p : Nat) (v : Port) : (putPort e p v).regs = e.regs := rfl
@[simp] theorem putPort_clk (p : Nat) (v : Port) : (putPort e p v).clk = e.clk := rfl
@[simp] theorem putPort_pins (p : Nat) (v : Port) : (putPort e p v).pins = e.pins := rfl
@[simp] theorem putPort_flt (p : Nat) (v : Port) : (putPort e p v).flt = e.flt := rfl
@[simp] theorem putPort_dbg (p : Nat) (v : Port) : (putPort e p v).dbg = e.dbg := rfl
@[simp] theorem putPort_ports (p : Nat) (v : Port) : (putPort e p v).ports = tput portReset e.ports p v := rfl
@[simp] theorem putPort_txns (p : Nat) (v : Port) : (putPort e p v).txns = e.txns := rfl
@[simp] theorem putPort_nextId (p : Nat) (v : Port) : (putPort e p v).nextId = e.nextId := rfl
@[simp] theorem putPort_dir (p : Nat) (v : Port) : (putPort e p v).dir = e.dir := rfl
@[simp] theorem putPort_qos (p : Nat) (v : Port) : (putPort e p v).qos = e.qos := rfl
@[simp] theorem putPort_tel (p : Nat) (v : Port) : (putPort e p v).tel = e.tel := rfl
@[simp] theorem putPort_chans (p : Nat) (v : Port) : (putPort e p v).chans = e.chans := rfl
@[simp] theorem putPort_pack (p : Nat) (v : Port) : (putPort e p v).pack = e.pack := rfl
@[simp] theorem putPort_sec (p : Nat) (v : Port) : (putPort e p v).sec = e.sec := rfl
@[simp] theorem putPort_ring (p : Nat) (v : Port) : (putPort e p v).ring = e.ring := rfl
@[simp] theorem putPort_pwr (p : Nat) (v : Port) : (putPort e p v).pwr = e.pwr := rfl
@[simp] theorem putPort_cores (p : Nat) (v : Port) : (putPort e p v).cores = e.cores := rfl
@[simp] theorem putPort_mci (p : Nat) (v : Port) : (putPort e p v).mci = e.mci := rfl
@[simp] theorem putPort_boot (p : Nat) (v : Port) : (putPort e p v).boot = e.boot := rfl
@[simp] theorem putPort_store (p : Nat) (v : Port) : (putPort e p v).store = e.store := rfl
@[simp] theorem putPort_free (p : Nat) (v : Port) : (putPort e p v).free = e.free := rfl

@[simp] theorem putTxn_regs (t : Txn) : (putTxn e t).regs = e.regs := rfl
@[simp] theorem putTxn_clk (t : Txn) : (putTxn e t).clk = e.clk := rfl
@[simp] theorem putTxn_pins (t : Txn) : (putTxn e t).pins = e.pins := rfl
@[simp] theorem putTxn_flt (t : Txn) : (putTxn e t).flt = e.flt := rfl
@[simp] theorem putTxn_dbg (t : Txn) : (putTxn e t).dbg = e.dbg := rfl
@[simp] theorem putTxn_ports (t : Txn) : (putTxn e t).ports = e.ports := rfl
@[simp] theorem putTxn_txns (t : Txn) : (putTxn e t).txns = e.txns.map fun u => if u.id = t.id then t else u := rfl
@[simp] theorem putTxn_nextId (t : Txn) : (putTxn e t).nextId = e.nextId := rfl
@[simp] theorem putTxn_dir (t : Txn) : (putTxn e t).dir = e.dir := rfl
@[simp] theorem putTxn_qos (t : Txn) : (putTxn e t).qos = e.qos := rfl
@[simp] theorem putTxn_tel (t : Txn) : (putTxn e t).tel = e.tel := rfl
@[simp] theorem putTxn_chans (t : Txn) : (putTxn e t).chans = e.chans := rfl
@[simp] theorem putTxn_pack (t : Txn) : (putTxn e t).pack = e.pack := rfl
@[simp] theorem putTxn_sec (t : Txn) : (putTxn e t).sec = e.sec := rfl
@[simp] theorem putTxn_ring (t : Txn) : (putTxn e t).ring = e.ring := rfl
@[simp] theorem putTxn_pwr (t : Txn) : (putTxn e t).pwr = e.pwr := rfl
@[simp] theorem putTxn_cores (t : Txn) : (putTxn e t).cores = e.cores := rfl
@[simp] theorem putTxn_mci (t : Txn) : (putTxn e t).mci = e.mci := rfl
@[simp] theorem putTxn_boot (t : Txn) : (putTxn e t).boot = e.boot := rfl
@[simp] theorem putTxn_store (t : Txn) : (putTxn e t).store = e.store := rfl
@[simp] theorem putTxn_free (t : Txn) : (putTxn e t).free = e.free := rfl

end Sys2Proof.Machine
end

