-- ==== Sys2Proof/Laws/Tbl.lean ====
section
/-! SUPPORT. The laws of sparse tables: what a key reads as after a write, and that every operation keeps the
canonical form. -/

namespace Sys2Proof.Machine

variable {α : Type}

theorem tlookup_tinsert (k j : Nat) (v : α) (t : Tbl α) :
    tlookup (tinsert k v t) j = if j = k then some v else tlookup t j := by
  induction t with
  | nil => simp only [tinsert, tlookup, eq_comm]
  | cons p t ih =>
    obtain ⟨k', v'⟩ := p
    simp only [tinsert]
    split
    · simp only [tlookup, eq_comm]
    · split
      · subst k'; simp only [tlookup]; by_cases h : j = k <;> simp_all [eq_comm]
      · simp only [tlookup, ih]; by_cases h : k' = j <;> by_cases h2 : j = k <;> simp_all

theorem tlookup_terase (k j : Nat) (t : Tbl α) :
    tlookup (terase k t) j = if j = k then none else tlookup t j := by
  induction t with
  | nil => simp [terase, tlookup]
  | cons p t ih =>
    obtain ⟨k', v'⟩ := p
    simp only [terase]
    split
    · subst k'; rw [ih]
      by_cases h : j = k
      · simp [h]
      · simp [tlookup, h, Ne.symm h]
    · simp only [tlookup, ih]; by_cases h : k' = j <;> by_cases h2 : j = k <;> simp_all

/-- A written key reads as the value written. -/
@[simp] theorem tget_tput_same [DecidableEq α] (d : α) (t : Tbl α) (k : Nat) (v : α) :
    tget d (tput d t k v) k = v := by
  unfold tget tput
  split <;> simp_all [tlookup_terase, tlookup_tinsert]

/-- Another key reads as before, whatever it reads as where it is not listed. -/
theorem tget_tput_ne [DecidableEq α] (d d' : α) (t : Tbl α) {k j : Nat} (v : α) (h : j ≠ k) :
    tget d' (tput d t k v) j = tget d' t j := by
  unfold tget tput
  split <;> simp [tlookup_terase, tlookup_tinsert, h]

/-- A key after a write, at any key. -/
theorem tget_tput [DecidableEq α] (d : Nat → α) (t : Tbl α) (k j : Nat) (v : α) :
    tget (d j) (tput (d k) t k v) j = if j = k then v else tget (d j) t j := by
  by_cases h : j = k
  · subst h; simp
  · simp [tget_tput_ne _ _ _ _ h, h]

theorem trising_mono {lo lo' : Nat} {t : Tbl α} (h : lo ≤ lo') (ht : trising lo' t = true) : trising lo t = true := by
  cases t with
  | nil => rfl
  | cons p t => simp only [trising, Bool.and_eq_true, decide_eq_true_eq] at *; exact ⟨by omega, ht.2⟩

theorem trising_of_lt {lo k : Nat} {v : α} {t : Tbl α} (h : lo < k) (ht : tsorted ((k, v) :: t) = true) :
    trising lo ((k, v) :: t) = true := by
  simp only [trising, tsorted, Bool.and_eq_true, decide_eq_true_eq] at *; exact ⟨h, ht⟩

theorem trising_tinsert (lo k : Nat) (v : α) (t : Tbl α) (h : lo < k) (ht : trising lo t = true) :
    trising lo (tinsert k v t) = true := by
  induction t generalizing lo with
  | nil => simp [tinsert, trising, h]
  | cons p t ih =>
    obtain ⟨k', v'⟩ := p
    simp only [trising, Bool.and_eq_true, decide_eq_true_eq] at ht
    simp only [tinsert]
    split
    · simp only [trising, Bool.and_eq_true, decide_eq_true_eq]; exact ⟨h, by assumption, ht.2⟩
    · split
      · subst k'; simp only [trising, Bool.and_eq_true, decide_eq_true_eq]; exact ⟨h, ht.2⟩
      · simp only [trising, Bool.and_eq_true, decide_eq_true_eq]; exact ⟨ht.1, ih k' (by omega) ht.2⟩

theorem tsorted_tinsert (k : Nat) (v : α) (t : Tbl α) (ht : tsorted t = true) : tsorted (tinsert k v t) = true := by
  cases t with
  | nil => rfl
  | cons p t =>
    obtain ⟨k', v'⟩ := p
    simp only [tinsert]
    split
    · simp only [tsorted, trising, Bool.and_eq_true, decide_eq_true_eq] at *; exact ⟨by assumption, ht⟩
    · split
      · subst k'; exact ht
      · exact trising_tinsert k' k v t (by omega) ht

theorem trising_terase (lo k : Nat) (t : Tbl α) (ht : trising lo t = true) : trising lo (terase k t) = true := by
  induction t generalizing lo with
  | nil => rfl
  | cons p t ih =>
    obtain ⟨k', v'⟩ := p
    simp only [trising, Bool.and_eq_true, decide_eq_true_eq] at ht
    simp only [terase]
    split
    · exact trising_mono (by omega) (ih k' ht.2)
    · simp only [trising, Bool.and_eq_true, decide_eq_true_eq]; exact ⟨ht.1, ih k' ht.2⟩

theorem tsorted_of_trising {lo : Nat} {t : Tbl α} (h : trising lo t = true) : tsorted t = true := by
  cases t with
  | nil => rfl
  | cons p t => simp only [trising, Bool.and_eq_true] at h; exact h.2

theorem tsorted_terase (k : Nat) (t : Tbl α) (ht : tsorted t = true) : tsorted (terase k t) = true := by
  cases t with
  | nil => rfl
  | cons p t =>
    obtain ⟨k', v'⟩ := p
    simp only [terase]
    split
    · exact tsorted_of_trising (trising_terase k' k t ht)
    · exact trising_terase k' k t ht

theorem mem_tinsert {k : Nat} {v : α} {t : Tbl α} {x : Nat × α} (h : x ∈ tinsert k v t) : x = (k, v) ∨ x ∈ t := by
  induction t with
  | nil => simpa [tinsert] using h
  | cons p t ih =>
    obtain ⟨k', v'⟩ := p
    simp only [tinsert] at h
    split at h
    · simpa using h
    · split at h
      · rcases List.mem_cons.mp h with h | h
        · exact .inl h
        · exact .inr (List.mem_cons_of_mem _ h)
      · rcases List.mem_cons.mp h with h | h
        · exact .inr (h ▸ List.mem_cons_self ..)
        · exact (ih h).imp_right (List.mem_cons_of_mem _)

theorem mem_terase {k : Nat} {t : Tbl α} {x : Nat × α} (h : x ∈ terase k t) : x ∈ t := by
  induction t with
  | nil => exact h
  | cons p t ih =>
    obtain ⟨k', v'⟩ := p
    simp only [terase] at h
    split at h
    · exact List.mem_cons_of_mem _ (ih h)
    · rcases List.mem_cons.mp h with h | h
      · exact h ▸ List.mem_cons_self ..
      · exact List.mem_cons_of_mem _ (ih h)

theorem twf_iff [DecidableEq α] (d : Nat → α) (t : Tbl α) :
    twf d t = true ↔ tsorted t = true ∧ ∀ x ∈ t, x.2 ≠ d x.1 := by
  simp [twf]

@[simp] theorem twf_nil [DecidableEq α] (d : Nat → α) : twf d [] = true := rfl

/-- A write keeps the canonical form. -/
theorem twf_tput [DecidableEq α] (d : Nat → α) (t : Tbl α) (k : Nat) (v : α) (h : twf d t = true) :
    twf d (tput (d k) t k v) = true := by
  rw [twf_iff] at *
  unfold tput
  split
  · exact ⟨tsorted_terase k t h.1, fun x hx => h.2 x (mem_terase hx)⟩
  · refine ⟨tsorted_tinsert k v t h.1, fun x hx => ?_⟩
    rcases mem_tinsert hx with rfl | hx
    · assumption
    · exact h.2 x hx

theorem trising_filter (lo : Nat) (p : Nat × α → Bool) (t : Tbl α) (h : trising lo t = true) :
    trising lo (t.filter p) = true := by
  induction t generalizing lo with
  | nil => rfl
  | cons x t ih =>
    obtain ⟨k, v⟩ := x
    simp only [trising, Bool.and_eq_true, decide_eq_true_eq] at h
    rw [List.filter_cons]
    split
    · simp only [trising, Bool.and_eq_true, decide_eq_true_eq]; exact ⟨h.1, ih k h.2⟩
    · exact trising_mono (by omega) (ih k h.2)

theorem tsorted_filter (p : Nat × α → Bool) (t : Tbl α) (h : tsorted t = true) : tsorted (t.filter p) = true := by
  cases t with
  | nil => rfl
  | cons x t =>
    obtain ⟨k, v⟩ := x
    rw [List.filter_cons]
    split
    · exact trising_filter k p t h
    · exact tsorted_of_trising (trising_filter k p t h)

/-- The canonical form for other defaults, which agree at every key that stays. -/
theorem twf_filter [DecidableEq α] (d d' : Nat → α) (p : Nat × α → Bool) (t : Tbl α) (h : twf d t = true)
    (hd : ∀ x ∈ t, p x = true → d' x.1 = d x.1) : twf d' (t.filter p) = true := by
  rw [twf_iff] at *
  refine ⟨tsorted_filter p t h.1, fun x hx => ?_⟩
  obtain ⟨hm, hp⟩ := List.mem_filter.mp hx
  rw [hd x hm hp]; exact h.2 x hm

end Sys2Proof.Machine
end

