-- ==== Sys2Proof/Laws/Ops.lean ====
section
/-! SUPPORT. The laws of the register operations: what a register and a field read as after a write, and that nothing
else changes. -/

namespace Sys2Proof.Machine

/-! ## Words -/

theorem wordField_lt (w : Word) (hi lo : Nat) : wordField w hi lo < 2 ^ (hi + 1 - lo) :=
  Nat.mod_lt _ (Nat.two_pow_pos _)

/-! ## Registers -/

@[simp] theorem reg_setReg_same (e : Engine) (a : Nat) (w : Word) : reg (setReg e a w) a = w :=
  tget_tput_same ..

theorem reg_setReg_ne (e : Engine) {a b : Nat} (w : Word) (h : b ≠ a) : reg (setReg e a w) b = reg e b :=
  tget_tput_ne _ _ _ _ h

theorem reg_setReg (e : Engine) (a b : Nat) (w : Word) : reg (setReg e a w) b = if b = a then w else reg e b :=
  tget_tput _ _ _ _ _

/-- A register reads by the register file alone. -/
theorem reg_congr {e e' : Engine} (h : e'.regs = e.regs) (a : Nat) : reg e' a = reg e a :=
  congrArg (fun t => tget (resetOf a) t a) h

theorem rd_congr {e e' : Engine} (h : e'.regs = e.regs) (f : Fld) : rd e' f = rd e f :=
  congrArg (fun w => wordField w f.hi f.lo) (reg_congr h f.addr)

theorem on_congr {e e' : Engine} (h : e'.regs = e.regs) (f : Fld) : on e' f = on e f :=
  congrArg (· == 1) (rd_congr h f)

@[simp] theorem reg_wr_same (e : Engine) (f : Fld) (v : Nat) :
    reg (wr e f v) f.addr = setWordField (reg e f.addr) f.hi f.lo v := reg_setReg_same ..

theorem reg_wr_ne (e : Engine) (f : Fld) (v : Nat) {b : Nat} (h : b ≠ f.addr) : reg (wr e f v) b = reg e b :=
  reg_setReg_ne _ _ h

theorem reg_inc (e : Engine) (a b : Nat) : reg (inc e a) b = if b = a then reg e a + 1 else reg e b :=
  reg_setReg ..

/-- A status update touches its own register only. -/
theorem reg_sqSet_ne (e : Engine) {a b : Nat} (fs : List (Fld × Nat)) (h : b ≠ a) : reg (sqSet e a fs) b = reg e b := by
  unfold sqSet
  simp only
  split
  · rfl
  · exact reg_setReg_ne _ _ h

/-- Where a status update changes nothing, the engine stays (R565). -/
theorem sqSet_of_eq (e : Engine) (a : Nat) (fs : List (Fld × Nat)) (h : setFields (reg e a) fs = reg e a) :
    sqSet e a fs = e := by
  unfold sqSet; exact if_pos h

/-- Where it changes the register, SEQ increases by 1 modulo 256 (R565). -/
theorem reg_sqSet_of_ne (e : Engine) (a : Nat) (fs : List (Fld × Nat)) (h : setFields (reg e a) fs ≠ reg e a) :
    reg (sqSet e a fs) a = setWordField (setFields (reg e a) fs) 31 24 (wordField (reg e a) 31 24 + 1) := by
  unfold sqSet; simp only [if_neg h, reg_setReg_same]

/-- A status update changes the register file and nothing else. -/
theorem sqSet_eq (e : Engine) (a : Nat) (fs : List (Fld × Nat)) :
    sqSet e a fs = { e with regs := (sqSet e a fs).regs } := by
  unfold sqSet; simp only; split <;> rfl

theorem sqClear_eq (e : Engine) (a seq : Nat) : sqClear e a seq = { e with regs := (sqClear e a seq).regs } := by
  unfold sqClear; split <;> rfl

/-- A clear with another SEQ has no effect (R8). -/
theorem sqClear_of_ne (e : Engine) (a seq : Nat) (h : wordField (reg e a) 31 24 ≠ seq) : sqClear e a seq = e :=
  if_neg h

theorem reg_sqClear_of_eq (e : Engine) (a seq : Nat) (h : wordField (reg e a) 31 24 = seq) :
    reg (sqClear e a seq) a = reg e a &&& ~~~ (sqMask a) := by
  unfold sqClear; rw [if_pos h]; exact reg_setReg_same ..

theorem reg_sqClear_ne (e : Engine) {a b : Nat} (seq : Nat) (h : b ≠ a) : reg (sqClear e a seq) b = reg e b := by
  unfold sqClear; split
  · exact reg_setReg_ne _ _ h
  · rfl

/-- Recording a trace changes the trace buffer and nothing else. -/
theorem traceRec_eq (e : Engine) (k loc : Nat) (v : Word) :
    ∃ t, traceRec e k loc v = { e with dbg := { e.dbg with trace := t } } := by
  unfold traceRec
  split
  · exact ⟨_, rfl⟩
  · exact ⟨e.dbg.trace, rfl⟩

theorem traceRec_regs (e : Engine) (k loc : Nat) (v : Word) : (traceRec e k loc v).regs = e.regs := by
  obtain ⟨t, h⟩ := traceRec_eq e k loc v; rw [h]

theorem reg_traceRec (e : Engine) (k loc : Nat) (v : Word) (a : Nat) : reg (traceRec e k loc v) a = reg e a :=
  reg_congr (traceRec_regs e k loc v) a

/-- The register file keeps its canonical form. -/
theorem regsOk_setReg (e : Engine) (a : Nat) (w : Word) (h : e.regsOk) : (setReg e a w).regsOk :=
  twf_tput resetOf e.regs a w h

/-! ## Ports and channels -/

@[simp] theorem getPort_putPort_same (e : Engine) (p : Nat) (v : Port) : getPort (putPort e p v) p = v :=
  tget_tput_same ..

theorem getPort_putPort_ne (e : Engine) {p q : Nat} (v : Port) (h : q ≠ p) : getPort (putPort e p v) q = getPort e q :=
  tget_tput_ne _ _ _ _ h

@[simp] theorem fresh_regs (s : State) : s.fresh.regs = s.e.regs := rfl
@[simp] theorem reg_fresh (s : State) (a : Nat) : reg s.fresh a = reg s.e a := rfl

end Sys2Proof.Machine
end

