-- ==== Sys2Proof/Laws/Dram.lean ====
section
/-! SUPPORT. The laws of the DRAM and of what follows a command: the stored slots, the loss of a channel's contents,
and what every outcome of a command has. -/

namespace Sys2Proof.Machine

/-! ## The canonical form -/

theorem storeCells_epoch (d : Dram) (ws : List (Nat × Slot)) : (storeCells d ws).epoch = d.epoch := rfl

theorem dramDefault_congr {d d' : Dram} (h : d'.epoch = d.epoch) (k : Nat) : dramDefault d' k = dramDefault d k :=
  congrArg (fun t => Config.powerUp (tget 0 t (cellChan k)) k) h

/-- Storing slots keeps the DRAM's canonical form. -/
theorem storeCells_ok (d : Dram) (ws : List (Nat × Slot)) (h : d.ok) : (storeCells d ws).ok := by
  change twf (dramDefault d) (ws.foldr (fun w c => tput (dramDefault d w.1) c w.1 w.2) d.cells) = true
  induction ws with
  | nil => exact h
  | cons w ws ih => exact twf_tput (dramDefault d) _ _ _ ih

/-- A slot that was stored last reads as it was stored; the list holds the newest first. -/
theorem storeCells_cons (d : Dram) (k : Nat) (v : Slot) (ws : List (Nat × Slot)) :
    tget (dramDefault d k) (storeCells d ((k, v) :: ws)).cells k = v := tget_tput_same ..

/-- A slot that no write of the step names reads as before. -/
theorem storeCells_ne (d : Dram) (ws : List (Nat × Slot)) (k : Nat) (h : ∀ w ∈ ws, w.1 ≠ k) :
    tget (dramDefault d k) (storeCells d ws).cells k = tget (dramDefault d k) d.cells k := by
  change tget _ (ws.foldr (fun w c => tput (dramDefault d w.1) c w.1 w.2) d.cells) k = _
  induction ws with
  | nil => rfl
  | cons w ws ih =>
    rw [List.foldr_cons, tget_tput_ne _ _ _ _ (h w (List.mem_cons_self ..)).symm]
    exact ih fun x hx => h x (List.mem_cons_of_mem _ hx)

/-- The loss of a channel's contents keeps the canonical form. -/
theorem loseChan_ok (d : Dram) (n : Nat) (h : d.ok) : (d.loseChan n).ok := by
  refine twf_filter (dramDefault d) _ _ _ h fun x _ hx => ?_
  have hne : cellChan x.1 ≠ n := by simpa using hx
  have : tget 0 (d.loseChan n).epoch (cellChan x.1) = tget 0 d.epoch (cellChan x.1) := by
    unfold Dram.loseChan; dsimp only; exact tget_tput_ne 0 0 d.epoch (tget 0 d.epoch n + 1) hne
  unfold dramDefault; rw [this]

theorem lose_ok (d : Dram) (h : d.ok) : d.lose.ok := by
  have key : ∀ (ns : List Nat) (d : Dram), d.ok → (ns.foldl Dram.loseChan d).ok := by
    intro ns
    induction ns with
    | nil => exact fun _ h => h
    | cons n ns ih => exact fun d h => ih _ (loseChan_ok d n h)
  exact key _ d h

theorem dropOff_ok (d : Dram) (old new : Word) (h : d.ok) : (d.dropOff old new).ok := by
  have key : ∀ (ns : List Nat) (d : Dram), d.ok → (ns.foldl (fun d n =>
      if old.getLsbD (n + 16) && !new.getLsbD (n + 16) then d.loseChan n else d) d).ok := by
    intro ns
    induction ns with
    | nil => exact fun _ h => h
    | cons n ns ih =>
      intro d h
      refine ih _ ?_
      simp only
      split
      · exact loseChan_ok d n h
      · exact h
  exact key _ d h

/-! ## What every outcome has -/

@[simp] theorem after_pending (s : State) (e : Engine) : (s.after e).pending = s.pending := rfl
@[simp] theorem after_store (s : State) (e : Engine) : (s.after e).e.store = [] := rfl
@[simp] theorem afterWrite_pending (s : State) (e : Engine) : (s.afterWrite e).pending = s.pending := rfl
@[simp] theorem afterWrite_store (s : State) (e : Engine) : (s.afterWrite e).e.store = [] := rfl
@[simp] theorem afterLoss_pending (s : State) (e : Engine) : (s.afterLoss e).pending = s.pending := rfl
@[simp] theorem afterLoss_store (s : State) (e : Engine) : (s.afterLoss e).e.store = [] := rfl

theorem after_ok (s : State) (e : Engine) (h : s.dram.ok) : (s.after e).Ok :=
  ⟨storeCells_ok s.dram _ h, rfl⟩

theorem afterWrite_ok (s : State) (e : Engine) (h : s.dram.ok) : (s.afterWrite e).Ok :=
  ⟨dropOff_ok _ _ _ (storeCells_ok s.dram _ h), rfl⟩

theorem afterLoss_ok (s : State) (e : Engine) (h : s.dram.ok) : (s.afterLoss e).Ok :=
  ⟨lose_ok s.dram h, rfl⟩

theorem run_ok (s : State) (f : Dram → Engine → Engine) (h : s.dram.ok) : (s.run f).Ok := after_ok s _ h

theorem runWrite_ok (s : State) (f : Dram → Engine → Engine) (h : s.dram.ok) : (s.runWrite f).Ok := afterWrite_ok s _ h

theorem runLosing_ok (s : State) (lost : Engine → Bool) (f : Dram → Engine → Engine) (h : s.dram.ok) :
    (s.runLosing lost f).Ok := by
  unfold State.runLosing
  split
  · exact afterLoss_ok s _ h
  · exact run_ok s f h

@[simp] theorem run_pending (s : State) (f : Dram → Engine → Engine) : (s.run f).pending = s.pending := rfl
@[simp] theorem runWrite_pending (s : State) (f : Dram → Engine → Engine) : (s.runWrite f).pending = s.pending := rfl
@[simp] theorem runLosing_pending (s : State) (lost : Engine → Bool) (f : Dram → Engine → Engine) :
    (s.runLosing lost f).pending = s.pending := by
  unfold State.runLosing; split <;> rfl

/-- A command whose effect is the engine `e'` answers the machine that `e'` leaves. -/
theorem run_of_eq {s : State} {f : Dram → Engine → Engine} {e' : Engine} (h : f s.dram s.fresh = e') :
    (Host.Outcome.next (s.run f) : Host.Outcome State Fault Refusal) = .next (s.after e') :=
  congrArg (fun e => Host.Outcome.next (s.after e)) h

theorem runWrite_of_eq {s : State} {f : Dram → Engine → Engine} {e' : Engine} (h : f s.dram s.fresh = e') :
    (Host.Outcome.next (s.runWrite f) : Host.Outcome State Fault Refusal) = .next (s.afterWrite e') :=
  congrArg (fun e => Host.Outcome.next (s.afterWrite e)) h

/-- A command after which the modules always lose their contents. -/
theorem runLosing_true {s : State} {f : Dram → Engine → Engine} {e' : Engine} (h : f s.dram s.fresh = e') :
    (Host.Outcome.next (s.runLosing (fun _ => true) f) : Host.Outcome State Fault Refusal) = .next (s.afterLoss e') :=
  congrArg (fun e => Host.Outcome.next (s.afterLoss e)) h

/-! ## Where nothing follows -/

theorem foldl_fix {α β : Type} (f : α → β → α) (a : α) (l : List β) (h : ∀ b ∈ l, f a b = a) : l.foldl f a = a := by
  induction l with
  | nil => rfl
  | cons b l ih => rw [List.foldl_cons, h b (List.mem_cons_self ..)]; exact ih fun c hc => h c (List.mem_cons_of_mem _ hc)

/-- Firmware takes nothing where no failed delivery was reported to it. -/
theorem takeFailed_of_nil {b : Engine} (e : Engine) (h : b.ring.failed = []) : takeFailed b e = e := by
  unfold takeFailed mapRing; rw [h]; exact ite_self _

/-- The ring interface sends nothing where no message waits. -/
theorem ringPump_of_nil {e : Engine} (h : e.ring.transit = [] ∧ e.ring.own = []) : ringPump e = e := by
  unfold ringPump; rw [h.1, h.2]; exact ite_self _

/-- No packet leaves a class 3 FIFO where none waits. -/
theorem fifoPump_of_zero {e : Engine} (h : fifoCount e = 0) : fifoPump e = e := by
  unfold fifoPump; rw [h]; exact ite_self _

/-- No monitor acts where none is enabled. -/
theorem wmScan_of_off {e : Engine} (h : ∀ k < 16, on e (TEL_WM_CFG_WM_EN k) = false) : wmScan e = e := by
  unfold wmScan
  rw [foldl_fix wmLook e _ fun k hk => by unfold wmLook; rw [if_neg]; simp [h k (by simpa using hk)]]
  exact ite_self _

/-- Firmware has nothing to do that it was left with. -/
theorem fwActs_of_nil {e : Engine} (h : e.mci.acts = []) : fwActs e = e := by
  unfold fwActs; rw [h]; rfl

/-- Firmware verifies nothing where no image is staged for it. -/
theorem stageVerify_of_none {e : Engine} (h : e.mci.verify = none) : stageVerify e = e := by
  unfold stageVerify; rw [h]

/-- No seed of the telemetry is awaited. -/
theorem telSeed_of_seeded {e : Engine} (h : e.tel.seedWait = false) : telSeed e = e := if_pos h

/-- No nonce of the ring is awaited. -/
theorem ringNonce_of_some {e : Engine} (h : e.ring.noNonce = false) : ringNonce e = e := if_pos h

/-- The security firmware has no work where none is in hand or waits. -/
theorem secContinue_of_idle {e : Engine} (h : on e CRY_PT_VER_DRAINING = false) (hw : e.sec.work = none)
    (hm : e.sec.memRuns = []) (hq : e.sec.waiting = []) (hl : e.sec.line = none) : secContinue e = e := by
  have ha : workAborts e = false := by simp [workAborts, hw]
  have hs : workStep e = e := by simp [workStep, startNext, hw, hq]
  unfold secContinue
  simp only [h, Bool.false_and, Bool.false_eq_true, if_false, Bool.false_or, hm, hl, ha, hs, Option.isSome_none,
    Bool.and_false, List.isEmpty_nil, Bool.not_true, ite_self]

/-- Nothing follows a calm command. -/
theorem settle_of_calm {s : State} {e : Engine} (d : Dram) (h : Calm s e) : settle d s.fresh e = e := by
  have h1 : ¬ (isSafe s.fresh = false ∧ isSafe e = true) := by
    have : isSafe s.fresh = isSafe s.e := rfl
    rcases h.safe with h | h <;> simp [this, h]
  have h2 : unenrollEnds e = e := by
    unfold unenrollEnds
    rw [foldl_fix _ _ _ fun w hw => by unfold unenrollEnd; rw [if_neg]; simp [h.walks w hw]]
    exact ite_self _
  have h3 : ¬ (isSafe e = true ∧ allAsleep e = false) := by rcases h.asleep with h | h <;> simp [h]
  have h4 : secContinue e = e :=
    secContinue_of_idle h.work.1 h.work.2.1 h.work.2.2.1 h.work.2.2.2.1 h.work.2.2.2.2
  have h5 : settleIdle s.fresh e = e := by
    unfold settleIdle; rw [if_neg]; rcases h.idle.1 with hi | hi <;> simp [hi, h.idle.2]
  unfold settle
  simp only [if_neg h1, if_neg h3, h2, fwActs_of_nil h.acts.1, stageVerify_of_none h.acts.2, h4, wmScan_of_off h.marks,
    fifoPump_of_zero h.fifos, telSeed_of_seeded h.drbg.1, ringNonce_of_some h.drbg.2, ite_self,
    takeFailed_of_nil (b := s.fresh) e h.failed, ringPump_of_nil h.ring, h5]

/-- A calm command leaves the engine `e` as it is, its written slots stored. -/
theorem after_calm {s : State} {e : Engine} (h : Calm s e) :
    s.after e = { s with e := { e with store := [] }, dram := storeCells s.dram e.store } := by
  unfold State.after; rw [settle_of_calm s.dram h]

end Sys2Proof.Machine
end

