-- ==== Sys2Proof/Laws/Exec.lean ====
section
/-! SUPPORT. The three shapes of a command's outcome: a plain one, a register write, and one that can lose the contents
of the modules. -/

namespace Sys2Proof.Machine

/-- The outcome of a command has one of three shapes. -/
inductive Shape (s : State) : Host.Outcome State Fault Refusal → Prop where
  | run (f : Dram → Engine → Engine) : Shape s (.next (s.run f))
  | write (f : Dram → Engine → Engine) : Shape s (.next (s.runWrite f))
  | losing (lost : Engine → Bool) (f : Dram → Engine → Engine) : Shape s (.next (s.runLosing lost f))

/-- Every command's outcome has one of the three shapes. -/
theorem exec_shape (i : Instr) (s : State) : Shape s (exec i s) := by
  cases i with
  | porstAssert => exact .losing _ _
  | porstRelease => exact .run _
  | srstAssert => exact .losing _ _
  | srstRelease => exact .run _
  | engPresentLow => exact .losing _ _
  | clockLoss _ => exact .losing _ _
  | pllLock => exact .run _
  | supplyOutOfRange => exact .losing _ _
  | wakeN _ => exact .run _
  | doorbell _ => exact .run _
  | entropySample _ => exact .run _
  | alertAssert _ _ => exact .run _
  | alertClassify _ _ _ => exact .run _
  | caParityRecovery _ _ => exact .run _
  | alertBackoffRfm _ _ => exact .run _
  | tempIbi _ _ _ => exact .run _
  | i3cTransaction _ _ _ _ => exact .run _
  | packetRewind _ _ => exact .run _
  | framingError _ _ => exact .run _
  | memRd _ _ _ => exact .run _
  | memRdData _ _ _ => exact .run _
  | memInv _ _ _ => exact .run _
  | memInvNt _ _ _ => exact .run _
  | memClnEvct _ _ _ => exact .run _
  | memWr _ _ _ _ => exact .run _
  | memWrPtl _ _ _ _ _ => exact .run _
  | placeWr _ _ _ _ _ => exact .run _
  | agentReset _ _ => exact .run _
  | creditYield _ _ _ _ => exact .run _
  | biRspI _ _ _ => exact .run _
  | biRspS _ _ _ => exact .run _
  | biConflict _ _ _ => exact .run _
  | biRspE _ _ _ => exact .run _
  | biRspIBlk _ _ _ => exact .run _
  | biRspSBlk _ _ _ => exact .run _
  | biRspEBlk _ _ _ => exact .run _
  | inboundCreditReturn _ _ => exact .run _
  | outboundCredit _ _ => exact .run _
  | outboundSend _ => exact .run _
  | qosRelease _ => exact .run _
  | writeQueueEntry _ => exact .run _
  | retryRelease _ => exact .run _
  | placementPush => exact .run _
  | partnerReadReturn => exact .run _
  | mergeReadReturn => exact .run _
  | metadataReadReturn => exact .run _
  | sizeClassRebuild _ => exact .run _
  | counterRebuild => exact .run _
  | shedRecompute => exact .run _
  | priRampUpdate => exact .run _
  | agePromote _ => exact .run _
  | hotlistUpdate => exact .run _
  | arbContest _ _ => exact .run _
  | schedCommand _ _ _ _ => exact .run _
  | deferredCommand _ _ => exact .run _
  | readBurstCapture _ _ _ _ => exact .run _
  | opportunisticDrain _ _ => exact .run _
  | pageIdleClose _ _ _ _ => exact .run _
  | refreshTick _ _ => exact .run _
  | opportunisticRefresh _ _ => exact .run _
  | refreshOperation _ _ => exact .run _
  | mitigationOperation _ _ _ _ _ => exact .run _
  | rfmOperation _ _ _ _ => exact .run _
  | rgEpochEnd _ _ => exact .run _
  | scrubOperation _ _ => exact .run _
  | ueReread _ _ => exact .run _
  | ecsPoll _ _ => exact .run _
  | eccWindowRestart _ => exact .run _
  | tempPoll _ _ _ => exact .run _
  | mntTimeInterval _ => exact .run _
  | powerDownEntry _ _ => exact .run _
  | trainingUnit _ _ _ _ _ => exact .run _
  | sliceGapExpiry _ => exact .run _
  | driftMeasure _ _ => exact .run _
  | retrainPeriod _ => exact .run _
  | steepStepComplete _ _ _ _ _ _ _ => exact .run _
  | steepTimeout _ => exact .run _
  | offlineTimeout _ => exact .run _
  | watchdogBite _ => exact .run _
  | spareCopyLine _ => exact .write _
  | pprRepairStep _ _ => exact .run _
  | reclaimWalkStep => exact .run _
  | unenrollWalkStep => exact .run _
  | biTimeout _ => exact .run _
  | dirInitComplete => exact .run _
  | gristCheckComplete => exact .run _
  | wrwCapture _ => exact .run _
  | paritySweep => exact .run _
  | drbgReseed => exact .run _
  | kilnCalibration _ => exact .run _
  | tbSyncSend => exact .run _
  | tbSyncLost _ => exact .run _
  | ringMgmt _ _ => exact .run _
  | ringMgmtAck _ _ => exact .run _
  | ringTbSync _ _ => exact .run _
  | ringFault _ _ => exact .run _
  | ringPresence _ _ => exact .run _
  | mgmtResend _ => exact .run _
  | faultRepeat => exact .run _
  | presenceHeartbeat => exact .run _
  | heartbeatMiss _ => exact .run _
  | presenceTimeout => exact .run _
  | epochEnd => exact .run _
  | hotlistSortDone => exact .run _
  | claimExpiry _ => exact .run _
  | coreWatchdogExpiry _ => exact .run _
  | coreFault _ _ => exact .run _
  | coreRestartComplete _ _ => exact .run _
  | handshakeAnswer _ _ => exact .run _
  | handshakeReask _ => exact .run _
  | handshakeDelayLimit _ => exact .run _
  | yieldTimeout _ => exact .run _
  | powerStep => exact .losing _ _
  | wakeStage _ => exact .run _
  | dumpComplete _ _ => exact .run _
  | quietPeriodExpiry => exact .run _
  | rollChannel => exact .run _
  | rollRollback => exact .run _
  | quiesceStep => exact .write _
  | recordDelivery _ => exact .run _
  | zeroizeRecovery => exact .run _
  | bringUpStage _ _ => exact .write _
  | bootFwStage => exact .run _
  | hello _ => exact .run _
  | bye _ => exact .run _
  | abort _ => exact .run _
  | configStage _ => exact .run _
  | configCommit _ => exact .run _
  | configRead _ => exact .run _
  | retrain _ => exact .run _
  | spare _ => exact .run _
  | ppr _ _ _ => exact .run _
  | ctxCreate _ => exact .run _
  | ctxDestroy _ => exact .run _
  | protSet _ => exact .run _
  | enrollAgent _ => exact .run _
  | pwrReq _ => exact .run _
  | hotlistRead _ => exact .run _
  | dumpRead _ => exact .run _
  | faultClear _ => exact .run _
  | scrub _ => exact .run _
  | sanitize _ => exact .run _
  | fwStage _ => exact .run _
  | fwActivate _ => exact .run _
  | ringMciMessage _ => exact .run _
  | registerWrite _ _ _ => exact .write _
  | seqClear _ _ _ => exact .write _
  | wmNoticeClear _ _ _ => exact .write _
  | qosDegradedClear _ _ => exact .write _
  | ingEnable _ _ => exact .write _
  | gristEnable _ _ => exact .write _
  | spareActivate _ _ => exact .write _
  | wrwSelect _ _ => exact .write _
  | parityInjectArm _ _ => exact .write _
  | dbgEnable _ _ => exact .write _
  | dbgHalt _ _ => exact .write _
  | dbgStep _ _ => exact .write _
  | dbgResume _ _ => exact .write _
  | faultInject _ _ => exact .write _
  | histPop _ _ => exact .write _
  | telSnap _ _ => exact .write _
  | telCntClr _ _ => exact .write _
  | telEnable _ _ => exact .write _
  | wmConfigWrite _ _ _ => exact .write _
  | eccCntClr _ _ _ => exact .write _
  | eccMarkWrite _ _ _ _ => exact .write _
  | steepStart _ _ _ => exact .write _
  | onlineRunStart _ _ _ => exact .write _
  | offlineRunStart _ _ _ => exact .write _
  | i3cGo _ _ _ => exact .write _
  | schedEnable _ _ _ => exact .write _
  | schedDisable _ _ _ => exact .write _
  | refEnable _ _ _ => exact .write _
  | rgEnable _ _ _ => exact .write _
  | trnEnable _ _ _ => exact .write _
  | scrubEnable _ _ _ => exact .write _
  | dirEnable _ _ => exact .write _
  | cryEnable _ _ => exact .write _
  | cryLock _ _ => exact .write _
  | qosEnable _ _ => exact .write _
  | qosCommit _ _ => exact .write _
  | ringEnable _ _ => exact .write _
  | arbPrioWrite _ _ _ => exact .write _
  | arbCtrlWrite _ _ _ => exact .write _
  | tbSet _ _ => exact .write _
  | pwrCmdGo _ _ => exact .write _
  | mailboxPayloadWrite _ _ _ _ => exact .write _
  | mailboxConsume _ _ => exact .write _
  | mailboxRing _ _ => exact .write _
  | mailboxRelease _ _ => exact .write _
  | mbxLock _ _ => exact .write _
  | coreKick _ _ => exact .write _
  | semAcq _ _ _ _ => exact .write _
  | semRel _ _ _ _ => exact .write _
  | semClrAbn _ _ _ _ => exact .write _
  | parWinExpiry _ _ => exact .run _
  | entropyWaitExpiry => exact .run _
  | recoveryWindowExpiry => exact .run _
  | suppliesRise => exact .run _
  | supplyLoss => exact .losing _ _

/-- What a property of the three shapes says of every command. -/
theorem exec_rec {P : State → State → Prop} (hr : ∀ s f, P s (s.run f)) (hw : ∀ s f, P s (s.runWrite f))
    (hl : ∀ s lost f, P s (s.runLosing lost f)) (i : Instr) (s : State) : ∃ t, exec i s = .next t ∧ P s t := by
  have h := exec_shape i s
  generalize exec i s = o at h
  cases h with
  | run f => exact ⟨_, rfl, hr s f⟩
  | write f => exact ⟨_, rfl, hw s f⟩
  | losing lost f => exact ⟨_, rfl, hl s lost f⟩

end Sys2Proof.Machine
end

