-- ==== Sys2Proof/Machine/Pins.lean ====
section
/-! DEFINITION. The levels of the engine's output pins in every state (R36–R38, R54, R59, R60, R64): what each signal
group shows is a function of the state. IRQ, ERR_N, REG_AVAIL and REFCLK_REQ are those of Cores. -/

namespace Sys2Proof.Machine

/-- What an output group shows: a fixed level, a running clock, activity of its block, a level that retention cells
hold, an open line that pull resistors set, or nothing at all. -/
inductive Level where
  | low | high | running | active | held | released | floating
  deriving DecidableEq, Repr

/-- The columns of the table of R64. -/
inductive PinMode where
  | reset | run | idle | sleep | off
  deriving DecidableEq, Repr

/-- The column that holds now. Clock loss applies the reset column (R436), and so does a PLL that has not locked. -/
def pinMode (e : Engine) : PinMode :=
  if released e = false then .reset
  else if pwrState e = 4 then .off
  else if pwrState e = 2 ∨ pwrState e = 3 then .sleep
  else if clocked e = false then .reset
  else if pwrState e = 1 then .idle
  else .run

/-- FAB_CLK and REG_CLK (R38, R64): they stop low while the root PLL is stopped or unlocked. -/
def clockPins (e : Engine) : Level :=
  if pinMode e = .off then .floating else if clocked e then .running else .low

/-- The outputs of the request ports (R64). -/
def portPins (e : Engine) : Level :=
  match pinMode e with
  | .run | .idle => .active
  | .reset | .sleep => .low
  | .off => .floating

/-- REG_RDATA, REG_DONE and REG_ERR (R36, R47): they answer accesses while REG_AVAIL is high, and float in OFF. The spec gives
them no level in reset, SLEEP and DEEP. -/
def regPins (e : Engine) : Option Level :=
  if pinMode e = .off then some .floating else if regAvail e then some .active else none

/-- The outputs of the entropy port (R64): ENT_READY is `entReady` while the port is in use. -/
def entropyPins (e : Engine) : Level :=
  match pinMode e with
  | .run | .idle => .active
  | .reset | .sleep => .low
  | .off => .floating

/-- RING_OUT (R56, R57, R64): the closed relay connects RING_IN to it, otherwise the own interface drives it. -/
def ringRelay (e : Engine) : Bool := e.pins.relayClosed

/-- PD_PHYn of a channel has its supply (R452). -/
def phyOn (e : Engine) (n : Nat) : Bool := (reg e PWR_CH_PWR).getLsbD (n + 16)

/-- The outputs of PD_PHYn, by what the columns of R64 give a group. -/
def phyPins (e : Engine) (n : Nat) (inReset inSleep : Level) : Level :=
  match pinMode e with
  | .reset => inReset
  | .off => .floating
  | .sleep => if phyOn e n then inSleep else .floating
  | .run | .idle => if phyOn e n then .active else .floating

/-- CHn_s_CK: stopped in reset, at a low level. -/
def ckPins (e : Engine) (n : Nat) : Level := phyPins e n .low .held

/-- CHn_s_CA and CHn_s_PAR. -/
def caPins (e : Engine) (n : Nat) : Level := phyPins e n .low .held

/-- CHn_s_CS_N[i]: with one module per channel, those of slot 1 are held high (R60). -/
def csPins (e : Engine) (n i : Nat) : Level :=
  let l := phyPins e n .high .held
  if decide (2 ≤ i) && !twoSlots e && l == .active then .high else l

/-- CHn_s_DQ, CHn_s_CB and CHn_s_DQS: termination is off while they are released. -/
def dqPins (e : Engine) (n : Nat) : Level := phyPins e n .released .released

/-- CHn_RESET_N of a module slot (R60, R64, R65): in OFF it floats and is pulled low. -/
def resetPin (e : Engine) (n slot : Nat) : Level :=
  if pinMode e = .off then .floating else if resetHigh e n slot then .high else .low

/-- I3C_SCL[k] and I3C_SDA[k], which PD_PHY of the lower channel drives. -/
def i3cPins (e : Engine) (k : Nat) : Level := phyPins e (2 * k) .released .released

/-- CHn_s_PAR (R59, R239): even parity over the seven bits of CHn_s_CA. -/
def caParity (ca : BitVec 7) : Bool := (List.range 7).foldl (fun p i => p != ca.getLsbD i) false

end Sys2Proof.Machine
end

