-- ==== Sys2Proof/Tests/Slice0.lean ====
section
/-! SUPPORT. The tests: ill-formed commands that WellFormed refuses, the worked examples of the manual, one step of some
commands, and for every statement with hypotheses a state and operands that meet them. -/

open Sys2Proof Sys2Proof.Machine

namespace Sys2Proof.Tests

set_option Elab.async false

/-! ## Ill-formed commands -/

/-- Class 2 does not arrive (R66), and class 1 does not leave (R83). -/
theorem test_wf_classes : (Instr.inboundCreditReturn 5 2).wf = false ∧ (Instr.outboundCredit 5 1).wf = false ∧
    (Instr.outboundCredit 5 3).wf = false ∧ (Instr.outboundCredit 5 2).wf = true := by
  decide

/-- A packet of class `c` with one header flit: OPCODE `op` of agent 7, bad or not. -/
def oneFlit (c : Fin 4) (op : Nat) (bad : Bool) : List Flit := [⟨BitVec.ofNat 256 (7 * 2 ^ 8 + op), true, bad, c⟩]

/-- A rewound packet needs a bad last flit (R79); a framing error needs broken framing and a good last flit (R69, R70). -/
theorem test_wf_packets : (Instr.packetRewind 5 (oneFlit 3 1 false)).wf = false ∧
    (Instr.packetRewind 5 []).wf = false ∧ (Instr.packetRewind 5 (oneFlit 3 1 true)).wf = true ∧
    (Instr.framingError 5 (oneFlit 3 1 false)).wf = false ∧ (Instr.framingError 5 (oneFlit 3 0x10 true)).wf = false ∧
    (Instr.framingError 5 (oneFlit 3 0x10 false)).wf = true := by decide +kernel

/-- R72, R73: header bits of a MemRd from agent 0x123 under CTX 5, QC 6, a deadline of 0x0102, TAG 0xBEEF, REQ_ST S and
ADDR field 0x3_0000_0040; CreditYield names its credits inside ADDR; and class 3 has no opcode 0x10. -/
theorem test_flit_headers :
    let h : BitVec 256 := 0x300000040#256 <<< 96 ||| 0xBEEF#256 <<< 64 ||| 1#256 <<< 52 ||| 0x0102#256 <<< 36 ||| 1#256 <<< 35 |||
      6#256 <<< 32 ||| 5#256 <<< 20 ||| 0x123#256 <<< 8 ||| 0x01#256
    let y : BitVec 256 := 3#256 <<< 112 ||| 2#256 <<< 104 ||| 1#256 <<< 96 ||| 0x14#256
    packetCommand 5 .clean [⟨h, true, false, 3⟩] =
      .memRd ⟨5, 0x123, 5, 0xBEEF, 0x300000040, 6, some 0x0102⟩ 1 .clean ∧
    packetCommand 5 .clean [⟨y, true, false, 0⟩] = .creditYield 5 1 2 3 ∧
    packetCommand 5 .clean (oneFlit 3 0x10 false) = .framingError 5 (oneFlit 3 0x10 false) ∧
    packetCommand 5 .clean (oneFlit 0 0x14 true) = .packetRewind 5 (oneFlit 0 0x14 true) := by decide +kernel

/-- R77: the first data flit is bytes 0 to 31; R82: the places of a response's fields. -/
theorem test_flit_data :
    dataOf [⟨0, false, false, 0⟩, ⟨1, false, false, 0⟩, ⟨2, true, false, 0⟩] = 2#512 <<< 256 ||| 1#512 ∧
    outHeader ⟨0, 0x43, 0x123, 0xBEEF, 0, 0, 3, some 2, true, 1, 0, none, 0⟩ =
      0xBEEF#256 <<< 32 ||| 3#256 <<< 26 ||| 2#256 <<< 24 ||| 1#256 <<< 23 ||| 1#256 <<< 22 ||| 1#256 <<< 20 |||
        0x123#256 <<< 8 ||| 0x43#256 := by decide +kernel

/-- A Vref code with the ranges of three lanes (R228). -/
def threeLanes : Sweep := ⟨0, 0, 0, [(4, [(0, 9), (0, 9), (0, 9)])]⟩

/-- Vref codes that do not rise. -/
def fallingCodes : Sweep := ⟨0, 0, 0, [(4, List.replicate 4 (0, 9)), (4, List.replicate 4 (0, 9))]⟩

theorem test_wf_sweeps : threeLanes.wf = false ∧ fallingCodes.wf = false ∧
    (Instr.trainingUnit 0 [threeLanes] [] none 0).wf = false ∧
    (Instr.steepStepComplete 0 [fallingCodes] [] none 0 0 0).wf = false ∧
    (⟨0, 0, 0, [(4, List.replicate 4 (0, 9)), (5, List.replicate 4 (0, 9))]⟩ : Sweep).wf = true := by decide

/-- A burst without words, and one whose TYPE is another event's (R119). -/
theorem test_wf_ring : (Instr.ringMgmt [] 0).wf = false ∧ (Instr.ringMgmt [0x2000#16] 0).wf = false ∧
    (Instr.ringMgmtAck [0x0000#16] 0).wf = false ∧ (Instr.ringTbSync [0x2000#16] 0).wf = false ∧
    (Instr.ringFault [0x4000#16] 0).wf = false ∧ (Instr.ringPresence [0x6000#16] 0).wf = false ∧
    (Instr.ringPresence [0x8000#16] 0).wf = true ∧ (Instr.ringMgmt [0xE000#16] 0).wf = true := by decide

/-- Blocks 10 to 15 are asked by no power step (R460). -/
theorem test_wf_blocks : (Instr.handshakeAnswer 10 0).wf = false ∧ (Instr.handshakeReask 15).wf = false ∧
    (Instr.handshakeDelayLimit 12).wf = false ∧ (Instr.handshakeAnswer 16 0).wf = true := by decide

/-- GC_ID has no SEQ (R586). -/
theorem test_wf_seq : (Instr.seqClear .ext (BitVec.ofNat 24 GC_ID) 0).wf = false ∧
    (Instr.seqClear .ext (BitVec.ofNat 24 FLT_STATUS) 0).wf = true := by decide +kernel

/-- One timing field with two minimum times. -/
theorem test_wf_stage : (Instr.bringUpStage [(3, 1, 0), (3, 1, 7)] true).wf = false ∧
    (Instr.bringUpStage [(3, 1, 0), (3, 2, 7)] true).wf = true := by decide

/-! ## Worked examples of the manual -/

/-- The 16 TiB configuration of the manual (R100, R107). -/
def exampleGrist : GCfg :=
  { c := 4, slotBits := 1, prankBits := 1, cidBits := 2, r := 17
    masks := [[1, 21, 25, 29, 33], [2, 22, 26, 30, 34], [3, 23, 27, 31, 35], [4, 24, 28, 32, 36], [5, 21, 37],
        [12, 21, 24], [13, 22, 25], [14, 23, 26], [15, 27], [16, 28], [17], [18], [19], [20]].map
      fun bs => (bs.map fun b => 2 ^ b).sum
    macRows := 3641, ctrRows := 131, spareRows := 8192, dumpRows := 8 }

/-- Address 0x05B5_2B4E_CC80 reaches CH11, subchannel A, bank group 2, bank 0, RANK 6, row 46,757 and COL 88. -/
theorem test_grist_example : gristMap exampleGrist (0x05B52B4ECC80 / 64) =
    { ch := 11, sc := 0, rank := 6, bg := 2, bank := 0, row := 46757, col := 88 } := by decide +kernel

/-- MATRIX_RANK 14, 118,844 data rows, the data top 0x0E81_E000_0000; the mask registers of CH[0]. -/
theorem test_grist_bands : matrixRank exampleGrist = 14 ∧ dataRows exampleGrist = 118844 ∧
    dataTop exampleGrist * 64 = 0x0E81E0000000 ∧ (gristCheck exampleGrist).ok = true ∧
    nth exampleGrist.masks 0 0 = 0x222200002 := by decide +kernel

/-- The same line under rank sparing of RANK 6: L = 383,034,032, and its place in the spare band. -/
theorem test_spare_example :
    let s : SpareCfg := ⟨true, true, 11, 6, 0⟩
    let l := gristMap exampleGrist (0x05B52B4ECC80 / 64)
    unitOffset exampleGrist s l = 383034032 ∧ spareTarget exampleGrist s 383034032 =
      { ch := 11, sc := 1, rank := 2, bg := 4, bank := 0, row := 125989, col := 56 } := by decide +kernel

/-- The set and the tag of the same line, and the set of its partner (R344). -/
theorem test_set_example : setOf 0x16D4AD3B32 = 0x8E19 ∧ tagOf 0x16D4AD3B32 = 0x5B52B ∧ setOf 0x16D4AD3B33 = 0x8E18 := by
  decide +kernel

/-- The Fresh region of the manual's example. -/
def exampleRegion : Region := ⟨0x5B500000, 0x6B4FFFFF, 42, 3, true, false, false, 3, 0x2000000, 0x400000⟩

/-- MAC index, and the positions of the line's path through the counter tree. -/
theorem test_fresh_example : macIx exampleRegion 0x16D4AD3B32 = 2158836530 ∧ 2158836530 / 9 = 239870725 ∧
    2158836530 % 9 = 5 ∧ freshIx exampleRegion 0x16D4AD3B32 = 0x10AD3B32 ∧
    (List.range 5).map (fun k => pathNode 0x10AD3B32 (k + 1)) =
      [(4371692, 50), (68307, 44), (1067, 19), (16, 43), (0, 16)] := by decide +kernel

/-- The drift of the worked example of R234: five steps. -/
theorem test_drift_example : driftOf 400 388 = 5 := by decide +kernel

/-- Two seconds of SLEEP: the advance of 1,993,521 Kiln ticks of 1,003.25 ns, and the uncertainty (R446). -/
theorem test_sleep_example :
    let e := { (wr (wr engineReset PWR_KILN_PER_PERIOD 65748992) PWR_TB_CFG_UNC_PPM 200) with
      clk := { engineReset.clk with kiln := 1993521, uncert := 10 } }
    let w := sleepAdvance e
    w.clk.tb = 199999994325 * 2 ^ 24 / 100 ∧ w.clk.uncert = 400074 ∧ on w PWR_TB_STATE_WOKE = true ∧
      w.clk.lastSleep = 1993521 := by decide +kernel

/-- Firmware writes CH_SPARGE of CH5 with another HIGH while SCHED_EN is 1: CH_CFG_REJECT reads 0x0120_0044 (R569). -/
theorem test_reject_example :
    let e := wr (setReg engineReset (CH_SPARGE 5) 0x60) (CH_SCHED_CTRL_SCHED_EN 5) 1
    ∀ d, regDesc (CH_SPARGE 5) = some d →
      reg (storeWrite e .mc01 (CH_SPARGE 5) 0 d (setFields (reg e (CH_SPARGE 5)) [(CH_SPARGE_HIGH 5, 7)])).e
        (CH_CFG_REJECT 5) = 0x01200044 := by
  decide +kernel

/-- The levels of the counter tree for FRESH_LOG2 = 34 start at the offsets of R327. -/
theorem test_tree_example :
    let e := wr engineReset CRY_CTRL_FRESH_LOG2 34
    (List.range 5).map (fun k => (levelBase e (k + 1) - levelBase e 1) * 64) =
      [0, 0x400000000, 0x410000000, 0x410400000, 0x410410000] ∧ treeLines e * 64 = 17452565504 := by decide +kernel

/-- The reservations of the manual's 16 TiB system: w of QC0, QC1 and QC2 in units of 10 MB/s. -/
theorem test_weights_example :
    let e := wr engineReset CRY_CTRL_FRESH_LOG2 34
    weightOf e ⟨12000, 6000, 1⟩ = 18000 ∧ weightOf e ⟨15000, 5000, 2⟩ = 26875 ∧ weightOf e ⟨4000, 1000, 3⟩ = 9063 := by
  decide +kernel

/-- CH6 turns hot: the classes 7 to 1 shed, and SHORT is 960 units of 10 MB/s (R409). -/
theorem test_shed_example :
    let r := shedWalk (fun c => [(1875 : Rat), 53750 / 16, 32813 / 16, 875, 0, 0, 0, 0].getD c 0) 8000
    classMask r.set = 0xFE ∧ ratNat r.short = 960 ∧ nth r.cuts 0 0 = 0 := by decide +kernel

/-- A slew of -120,000 ns is absorbed in 192,000 TBS cycles and not before (R444). -/
theorem test_slew_example :
    let c := { engineReset.clk with bin := 0, slew := -(120000 * 2 ^ 24 : Int), tb := 2 ^ 60 }
    (tbsCycles c 192000).slew = 0 ∧ (tbsCycles c 191999).slew ≠ 0 := by decide +kernel

/-- The two lines of the manual's packed pair: δ of two bytes under tag 4, and counters under tag 3 (R286). -/
theorem test_pack_example :
    let a : Line := BitVec.ofNat 512 ((List.range 8).map fun i => (0x00007F3A00100000 + 0x40 * i) * 2 ^ (64 * i)).sum
    let b : Line := BitVec.ofNat 512 ((List.range 16).map fun i => (1000 + i) * 2 ^ (32 * i)).sum
    (encodeField a).map (·.headD 0) = some 4 ∧ (encodeField b).map (·.headD 0) = some 3 ∧
      ((packPair a b).bind unpackPair) = some (a, b) := by decide +kernel

/-- Known answers of the named standards: CRC-32C, SHA-384 and AES-256. -/
theorem test_crc32c : crc32c [0x31, 0x32, 0x33, 0x34, 0x35, 0x36, 0x37, 0x38, 0x39] = 0xE3069283 := by decide +kernel

theorem test_sha384 : ofBE (sha384 [0x61, 0x62, 0x63]) =
    0xcb00753f45a35e8bb5a03d699ac65007272c32ab0eded1631a8b605a43ff5bed8086072ba1e7cc2358baeca134c825a7 := by
  decide +kernel

theorem test_aes256 : ofBE (aesEnc (List.range 32) ((List.range 16).map fun i => 17 * i)) =
    0x8ea2b7ca516745bfeafc49904b496089 := by decide +kernel

/-- A stored slot decodes as clean; with one device turned over it is corrected, and two devices are found (R255, R257). -/
theorem test_ecc :
    let d : Line := 0x123456789ABCDEF0#512
    decodeSlot none (encodeSlot d) = .clean ∧
    (match decodeSlot none (encodeSlot d ^^^ deviceError 3 fun _ => 0xBEEF#16) with
      | .corrected t dev _ => t == encodeSlot d && dev == 3
      | _ => false) = true ∧
    (match decodeSlot none (encodeSlot d ^^^ deviceError 3 (fun _ => 0xBEEF#16) ^^^ deviceError 7 fun _ => 0x1234#16) with
      | .uncorrectable _ => true
      | _ => false) = true := by decide +kernel

/-! ## States that meet the hypotheses of the statements -/

/-- Registers set to words. -/
def poke (e : Engine) (l : List (Nat × Word)) : Engine := l.foldl (fun e x => setReg e x.1 x.2) e

/-- A machine with an empty queue and nothing stored. -/
def mk (e : Engine) : State := ⟨[], e, ⟨[], []⟩⟩

/-- An engine after its resets: clocks and both pairs run, the relay is open, every module is out of reset, and every
channel is powered. -/
def up : Engine :=
  { poke engineReset [(PWR_CH_PWR, 0xFFFFFFFF)] with
    clk := { engineReset.clk with root := .locked }
    pins := { engineReset.pins with porst := false, relayClosed := false, chReset := List.replicate 32 true }
    cores := [⟨0, none, true, 0⟩, ⟨0, none, true, 0⟩] }

/-- Port 5 holds three credits of each class, has one of each due and one outbound. -/
def port5 : Port := { portReset with held := [3, 3, 3, 3], due := [1, 1, 1, 1], out := [1, 1, 1, 1] }

/-- Requests arrive: ING_EN is 1, and one Open region covers all, which the agents 7 and 9 may read and write. -/
def open_ (hdmDb : Bool) : Engine :=
  let b : ProtBank := ⟨[(0, ⟨0, 0xFFFFFFFF, 0, 0, hdmDb, false, false, 0, 0, 0⟩)], [(7, 3), (9, 3)]⟩
  let e := poke up [(GC_ING_CTRL, 0x80000000), (GC_PORT_MASK 0, 0xFFFFFFFF), (QOS_SERVICE, 0xFFFF)]
  putEnroll (putEnroll (putPort { e with sec := { e.sec with banks := [b, b] } } 5 port5) 7 ⟨true, true, false, 5, 0, 0⟩)
    9 ⟨true, true, false, 6, 1, 0⟩

def hdr : Hdr := ⟨5, 7, 0, 1, 0, 0, none⟩

/-- The same from an agent without rights. -/
def hdrDenied : Hdr := ⟨5, 8, 0, 1, 0, 0, none⟩

def reads : List Req := [reqOf .memRd hdr 0 false 0 0 0, reqOf .memRdData hdr 0 false 0 0 0]
def backs : List Req := [reqOf .memInv hdr 0 false 0 0 0, reqOf .memInvNT hdr 0 false 0 0 0, reqOf .memClnEvct hdr 0 false 0 0 0]
def stores : List Req := [reqOf .memWr hdr 0 false 0 0 5, reqOf .memWrPtl hdr 0 false 1 0 5, reqOf .placeWr hdr 0 false 0 9 5]

/-- A class 3 packet that has waited in its FIFO. -/
def waiting : FifoReq := ⟨reqOf .memRd hdr 0 false 0 0 0, 0, .clean⟩

/-- RequestsPassIngress: requests to an HDM-H region, requests to an HDM-DB region, and a class 3 packet behind another. -/
theorem test_met_RequestsPassIngress :
    (∀ c ∈ [0, 3], ∀ r ∈ (if c = 3 then reads else stores.take 2), let s := mk (open_ false)
      let e := useCredit s.fresh r.port c
      CanArrive s r.port c ∧ ¬ FifoHolds e r ∧ Passes (newTxn e r e.clk.tb).1 r ∧ isHdmDb (committed e r) r.la = false) ∧
    (∀ c ∈ [0, 3], ∀ r ∈ (if c = 3 then reads ++ backs else stores), let s := mk (open_ true)
      let e := useCredit s.fresh r.port c
      CanArrive s r.port c ∧ ¬ FifoHolds e r ∧ Passes (newTxn e r e.clk.tb).1 r ∧ isHdmDb (committed e r) r.la = true ∧
        enrolledOn (wayError (committed e r) r.la .clean) r.agent r.port = true) ∧
    (∀ r ∈ reads, let s := mk (putPort (open_ true) 5 { port5 with fifo3 := [waiting] })
      CanArrive s r.port 3 ∧ FifoHolds (useCredit s.fresh r.port 3) r) := by
  unfold CanArrive Passes FifoHolds; decide +kernel

/-- DeniedRequestIsAnsweredOnItsPort. -/
theorem test_met_DeniedRequest : ∀ c ∈ [0, 3], let s := mk (open_ false)
    let r := if c = 3 then reqOf .memRd hdrDenied 0 false 0 0 0 else reqOf .memWr hdrDenied 0 false 0 0 0
    CanArrive s 5 c ∧ isSafe s.e = false ∧ (getPort s.fresh 5).fifo3 = [] ∧ denied (useCredit s.fresh 5 c) r = true := by
  unfold CanArrive; decide +kernel

/-- A response that waits in a port. -/
def waitPkt (c : Nat) (t : Option Nat) : OutPkt :=
  { cls := c, op := 0x40, agent := 7, tag := 1, bitag := 0, la := 0, devload := 0, err := none, poison := false
    grant := 0, data := 0, txn := t, qc := 0 }

/-- PortCommandsAct: bad and misframed packets of classes 0 and 3, a CreditYield among them, credits, a recall with what
the sender holds, and packets of class 0 and 2 in the arbiter. -/
theorem test_met_PortCommandsAct :
    let s := mk (open_ false)
    let q := fun (v : Port) => mk (putPort (open_ false) 5 v)
    (∀ x ∈ [oneFlit 3 1 true, oneFlit 0 0x13 true], lastBad x = true ∧ x.all usesCredit = true) ∧
    (∀ x ∈ [oneFlit 3 0x10 false, oneFlit 0 0x10 false],
      lastBad x = false ∧ framed x = none ∧ x.all usesCredit = true) ∧
    (∀ b ∈ [true, false], let x : List Flit := [⟨0x14, true, b, 0⟩, ⟨0, true, b, 0⟩]
      lastBad x = b ∧ framed x = none ∧ (x.take 1).all usesCredit = false) ∧
    CanArrive s 5 0 ∧ CanArrive s 5 3 ∧ clocked s.fresh = true ∧ nth (getPort s.fresh 5).due 0 0 ≠ 0 ∧
    withheld s.fresh 5 0 = false ∧ portTakes s.fresh 5 = true ∧ nth (getPort s.fresh 5).out 0 0 < 63 ∧
    (let f := q { port5 with out := [63, 63, 63, 63], recallAt := some 0 }
     portTakes f.fresh 5 = true ∧ nth (getPort f.fresh 5).out 2 0 ≥ 63 ∧ (getPort f.fresh 5).recallAt = some 0 ∧
       ∀ c ∈ [0, 1, 3], nth (getPort f.fresh 5).held c 0 = (3 : BitVec 5).toNat) ∧
    (let f := q { port5 with outq := [waitPkt 0 none] }
     nextOut f.fresh (getPort f.fresh 5) = some (waitPkt 0 none) ∧ (waitPkt 0 none).txn.bind (getTxn f.fresh) = none) ∧
    (let f := q { port5 with outq := [waitPkt 2 none, waitPkt 0 none], run0 := 16 }
     nextOut f.fresh (getPort f.fresh 5) = some (waitPkt 2 none)) ∧
    (let e := (newTxn (putPort (open_ false) 5 { port5 with outq := [waitPkt 0 (some 0)] }) (reqOf .memRd hdr 0 false 0 0 0) 0).1
     nextOut (mk e).fresh (getPort (mk e).fresh 5) = some (waitPkt 0 (some 0)) ∧
       ((waitPkt 0 (some 0)).txn.bind (getTxn (mk e).fresh)).isSome = true) := by
  unfold CanArrive; decide +kernel

/-- GristMapsNoTwoLinesToOneLocation, and the two clauses of GristChecksItsConfigurationAndBands. -/
theorem test_met_Grist : (gristCheck exampleGrist).ok = true ∧ dataTop exampleGrist - 1 < capLines exampleGrist ∧
    dataTop exampleGrist < capLines exampleGrist ∧
    (let s := fun (mac : Word) => mk { poke up [(GC_CARVE_MAC, mac)] with dbg := { up.dbg with gristEnd := some (512, false) } }
     (s 0).fresh.dbg.gristEnd = some (512, false) ∧ clocked (s 0).fresh = true ∧
       (gristCheck (gcfg (s 0).fresh)).ok = true ∧ (gristCheck (gcfg (s 0x1FFFF).fresh)).ok = false) ∧
    (let e := poke up ([(GC_GRIST_CTRL, 0x4E11), (GC_CARVE_MAC, 3641), (GC_CARVE_CTR, 131), (GC_CARVE_SPARE, 8192),
        (GC_CARVE_DUMP, 8)] ++ (List.range 14).flatMap fun j =>
        [(GC_GRIST_MASK_LO j, BitVec.ofNat 32 (nth exampleGrist.masks j 0)),
         (GC_GRIST_MASK_HI j, BitVec.ofNat 32 (nth exampleGrist.masks j 0 / 2 ^ 32))])
     gcfg (mk e).fresh = exampleGrist) := by decide +kernel

def ringUp : Engine := mapRing (poke up [(RING_CTRL, 0x81010002)]) fun r => { r with beats := [] }

def msg (typ src dst : Nat) (bcast : Bool) (p : List (BitVec 16)) : RingMsg := ⟨typ, src, dst, bcast, 9, 0, p⟩

/-- RingBurstIsReceivedAsItsMessage, at the greatest payload and the greatest fields. -/
theorem test_met_RingBurst : (⟨7, 7, 7, true, 255, 7, List.replicate 32 0xFFFF⟩ : RingMsg).Fits ∧
    ringActive (mk ringUp).fresh = true := by
  unfold RingMsg.Fits; decide +kernel

/-- RingCommandsAct: broken bursts, each type, the bypass, and the timers. -/
theorem test_met_RingCommandsAct :
    (let s := mk ringUp
     let good := ringBurst (msg 0 4 2 false [1, 2])
     ringActive s.fresh = true ∧ good ≠ [] ∧ hfield (good.headD 0) 15 13 = 0 ∧
       (hfield (good.headD 0) 5 0 ≤ 32 ∧ good.length = hfield (good.headD 0) 5 0 + 3) ∧
       (good.dropLast).length < hfield (good.headD 0) 5 0 + 3 ∧
       (good.set 4 0).getD 4 0 ≠ ringCrc ((good.set 4 0).take 4) ∧
       hfield ((0x0021 : BitVec 16)) 5 0 > 32) ∧
    (let s := mk ringUp
     (typeGood (msg 0 4 2 false (List.replicate 4 0)) = true ∧ Own s.fresh (msg 0 4 2 false (List.replicate 4 0)) ∧
       s.fresh.ring.lastSeq.contains (4, 9) = false) ∧
     (∀ m ∈ [msg 2 4 0 true (List.replicate 7 0), msg 3 4 0 true [0], msg 4 4 0 true [0, 0]],
       typeGood m = true ∧ Passing s.fresh m)) ∧
    (let m := msg 2 4 0 true (List.replicate 7 0)
     let r := fun (n : Nat) => { ringUp.ring with transit := List.replicate n ⟨0, m⟩, own := [⟨0, m⟩] }
     transitWords (r 0) 0 + burstLen m ≤ 70 ∧ 70 < transitWords (r 7) 0 + burstLen m ∧ (ringNext (r 1)).isSome = true ∧
       (ringNext { r 0 with transit := [] }).isSome = true) ∧
    (let u : Unacked := ⟨msg 0 2 4 false [], 0, 0⟩
     let s := mk (mapRing ringUp fun r =>
       { r with unacked := [u], copies := [(0, msg 3 2 0 true [])], laps := [⟨0, true, 0, true⟩, ⟨1, false, 0, false⟩, ⟨2, true, 0, false⟩] })
     ringActive s.fresh = true ∧ typeGood (msg 1 4 2 false []) = true ∧ Own s.fresh (msg 1 4 2 false []) ∧
       s.fresh.ring.unacked.any (fun u => u.msg.dst == 4 && u.msg.seq == 9) = true ∧ u.resends < 3 ∧
       s.fresh.ring.unacked.find? (fun u => u.msg.dst == (4 : Fin 8).val) = some u ∧
       s.fresh.ring.copies = [(0, msg 3 2 0 true [])] ∧ s.fresh.ring.laps.find? (fun l => !l.late) = some ⟨1, false, 0, false⟩ ∧
       (s.fresh.ring.laps.drop 2).find? (fun l => !l.late) = some ⟨2, true, 0, false⟩) ∧
    (let e := poke ringUp [(RING_CTRL, 0x82010002), (RING_PRESENT, 0xFF)]
     let s := mk { e with clk := { e.clk with epochInvalid := false } }
     isSyncSender s.fresh = true ∧ presentBit s.fresh 4 = true) ∧
    (let s := mk { ringUp with clk := { ringUp.clk with epochInvalid := false } }
     s.fresh.clk.epochInvalid = false) ∧
    ringActive (mk up).fresh = false := by
  unfold Own Passing RingMsg.Fits; decide +kernel

/-! ### Channels -/

def loc0 : Loc := ⟨0, 0, 0, 0, 0, 7, 3⟩

/-- A queued read of line 5 at a location. -/
def read0 (l : Loc) : RqEntry := ⟨1, [.agent 0], some 0, 5, l, 0, 3, 0, false, false, none, false, false, 0, false⟩

/-- A queued write. -/
def write0 (l : Loc) : WqEntry := ⟨2, some 0, none, false, 5, l, 0, 0, false⟩

/-- Channel 0 in a state, with registers set. -/
def chan0 (l : List (Nat × Word)) (c : Chan) : Engine := putChan (poke up l) 0 c

/-- The scheduler of channel 0 is enabled and holds the channel. -/
def schedOn : List (Nat × Word) := [(CH_SCHED_CTRL 0, 0xC0000000 ||| reg up (CH_SCHED_CTRL 0)), (CH_ARB_STATE 0, 0x40000000)]

/-- MEn holds channel 0 for an operation of a kind, with the refresh and Row Guard blocks and scrubbing enabled. -/
def meOn (kind : Nat) : List (Nat × Word) :=
  [(CH_ARB_STATE 0, BitVec.ofNat 32 (2 * 2 ^ 30 + kind * 2 ^ 23)), (CH_REF_CTRL 0, 0x80000000 ||| reg up (CH_REF_CTRL 0)),
   (CH_RG_CTRL 0, 0x80000000 ||| reg up (CH_RG_CTRL 0)), (CH_SCRUB_CTRL 0, 0x80000000 ||| reg up (CH_SCRUB_CTRL 0))]

/-- SchedulerChoosesALegalCommand: an ACT for a queued read. -/
theorem test_met_SchedulerChooses : (chooseCmd (chan0 schedOn { chanReset with rq := [read0 loc0] }) 0 0 4000).isSome = true := by
  decide +kernel

/-- SchedulerCommandsAct, clause by clause. -/
theorem test_met_SchedulerCommandsAct :
    (let s := mk (chan0 schedOn { chanReset with rq := [read0 loc0] })
     let e := slotEngine s.fresh 0 1000 0
     clocked s.fresh = true ∧ on e (CH_SCHED_CTRL_SCHED_EN 0) = true ∧ schedHolds e 0 4000 = true ∧
       (chooseCmd (spargeLook e 0) 0 0 4000).isSome = true) ∧
    (let s := mk (chan0 schedOn (putBank chanReset (bankKey loc0) { bankReset with row := some 7 }))
     let e := schedYield (placeDeferred (tick s.fresh 9000) 0 36000) 0
     on e (CH_SCHED_CTRL_SCHED_EN 0) = true ∧ rd e (CH_SCHED_CTRL_PAGE_POL 0) = 2 ∧ schedHolds e 0 36000 = true ∧
       (idleRow e 0 0 36000).isSome = true) ∧
    (let s := mk (chan0 (schedOn ++ [(CH_SPARGE 0, reg up (CH_SPARGE 0) ||| 0xFF)]) { chanReset with wq := [write0 loc0] })
     let c := getChan s.fresh 0
     let e := tick s.fresh ((getSub c 0).idleSince + rd s.fresh (CH_SPARGE_IDLE_DRAIN 0) - s.fresh.clk.cyc)
     on e (CH_SCHED_CTRL_SCHED_EN 0) = true ∧ rd s.fresh (CH_SPARGE_IDLE_DRAIN 0) ≠ 0 ∧ queuedReads c 0 = [] ∧
       queuedWrites c 0 ≠ [] ∧ drainKind c 0 = none) ∧
    (let r := { read0 loc0 with issued := some 64 }
     nextBurst (getChan (mk (chan0 schedOn { chanReset with rq := [r] })).fresh 0) 0 = some r ∧ r.issued = some 64) := by
  decide +kernel

/-- ContestGrantsAndWatchdogBites, its last clause at the first cycle that it covers. -/
theorem test_met_WaiterOutranks :
    let e := { chan0 [] { chanReset with rq := [{ read0 loc0 with pri := 7 }], arb := { arbReset with me := some 3 } } with
      clk := { up.clk with cyc := 1796 } }
    (∀ r ∈ (getChan e 0).rq, r.pri ≤ 7) ∧ 3 + 1793 ≤ e.clk.cyc ∧ (getChan e 0).arb.me = some 3 := by decide +kernel

/-- TSn's run on channel 0 is in a mode, with its step and its physical rank 0. -/
def tsOn (mode step : Nat) : List (Nat × Word) :=
  [(CH_TRN_STATE 0, BitVec.ofNat 32 (2 ^ 31 + mode * 2 ^ 29 + step * 2 ^ 24)),
   (CH_TRN_CTRL 0, 0x80000000 ||| reg up (CH_TRN_CTRL 0))]

/-- ContestGrantsAndWatchdogBites: each bidder wins once, nobody bids, and each holder. -/
theorem test_met_Contest :
    let e := fun (l : List (Nat × Word)) (c : Chan) => (mk (chan0 l c)).fresh
    let t := fun (l : List (Nat × Word)) (c : Chan) =>
      let w := tick (e l c) 10
      syncLines (blockYield (schedYieldAt w 0 (w.clk.cyc + 1)) 0) 0
    let wins := fun (x : Engine) (b : Bids → Option Nat) => holder x 0 = 0 ∧ b (bids x 0) = some (topScore (bids x 0))
    clocked (e [] chanReset) = true ∧
    wins (t (schedOn.take 1) { chanReset with rq := [read0 loc0] }) (·.sched) ∧
    wins (t [] { chanReset with rereads := [⟨loc0, 0, 0, false⟩] }) (·.me) ∧
    wins (t (tsOn 1 6) chanReset) (·.ts) ∧
    (let x := t [] chanReset
     holder x 0 = 0 ∧ (bids x 0).me = none ∧ (bids x 0).ts = none ∧ (bids x 0).sched = none) ∧
    (∀ k ∈ [1, 2, 3], holder (e [(CH_ARB_STATE 0, BitVec.ofNat 32 (k * 2 ^ 30))] chanReset) 0 = k) := by decide +kernel

/-- RowGuardCountsEveryActivation: a table that holds the row, one with room, and a full one without it. -/
theorem test_met_RowGuard :
    let full := (List.range 64).map fun k => (⟨k, k + 1, false, false⟩ : RgRow)
    rgWf full ∧ full.length = 64 ∧ (∀ r ∈ full, r.row ≠ 64) ∧ rgWf [] ∧
      (∃ r ∈ full, r.row = 63 ∧ { r with count := r.count + 1 } ∈ rgCount 63 full) := by
  unfold rgWf; decide +kernel

/-- MaintenanceActs, its first part: the refresh schedule. -/
theorem test_met_Refresh :
    (let s := mk (chan0 (meOn 1) chanReset)
     chanLive s.fresh 0 = true ∧ rankServes s.fresh 0 0 = true ∧ on s.fresh (CH_REF_CTRL_REF_EN 0) = true ∧
       rankQueued s.fresh (getChan s.fresh 0) 0 = false ∧
       -(rd s.fresh (CH_REF_CTRL_PULL_MAX 0) : Int) < debt s.fresh 0 0 ∧ holder s.fresh 0 = 2 ∧
       rd s.fresh (CH_ARB_STATE_ME_KIND 0) = 1) ∧
    (let at_ := fun (opp urgent : Bool) (mode : Nat) => (mk (wr (chan0 (meOn 5) { chanReset with
        pranks := [{ prankReset with opp := opp, mode := mode }, prankReset, prankReset, prankReset] })
          (urgentF 0 0) (bit urgent))).fresh
     let w := fun (x : Engine) => wakeRank (toGrant x 0) 0 0
     rd (at_ true false 0) (CH_ARB_STATE_ME_KIND 0) = 5 ∧
     (refreshWanted (toGrant (at_ true false 1) 0) 0 0 = true ∧ modeDiffers (w (at_ true false 1)) 0 0 = true) ∧
     (refreshWanted (toGrant (at_ true false 0) 0) 0 0 = true ∧ modeDiffers (w (at_ true false 0)) 0 0 = false ∧
       on (w (at_ true false 0)) (urgentF 0 0) = false) ∧
     (refreshWanted (toGrant (at_ true true 0) 0) 0 0 = true ∧ modeDiffers (w (at_ true true 0)) 0 0 = false ∧
       on (w (at_ true true 0)) (urgentF 0 0) = true)) ∧
    (let p := { prankReset with deferred := some loc0, credits := 16384 }
     let s := mk (chan0 [] { chanReset with pranks := [p, prankReset, prankReset, prankReset] })
     (getPRank (getChan s.fresh 0) 0).deferred = some loc0 ∧
       heldAt s.fresh (getChan s.fresh 0) loc0.rank (earliest (cidBits s.fresh) (getSub (getChan s.fresh 0) 0).log
         (mkCmd s.fresh 0 .drfm loc0 0) (nowPhy s.fresh)) = false ∧
       (getPRank (getChan s.fresh 0) 0).credits ≥ 16384) := by decide +kernel

/-- MaintenanceActs, its second part: mitigation, RFM and power-down. -/
theorem test_met_Mitigation :
    (let s := mk (chan0 (meOn 2) (putBank chanReset (bankKey loc0) { bankReset with rg := [⟨7, 900, true, false⟩] }))
     let t := toGrant s.fresh 0
     chanLive s.fresh 0 = true ∧ holder s.fresh 0 = 2 ∧ rd s.fresh (CH_ARB_STATE_ME_KIND 0) = 2 ∧
       meMay t 0 (prankIx s.fresh 0) = true ∧ on t (CH_RG_CTRL_RG_EN 0) = true ∧
       canMitigate t 0 ⟨0, 0, 0, 0, 0, 0, 0⟩ = true) ∧
    (let s := mk (wr (chan0 (meOn 2) (putBank chanReset (bankKey loc0) { bankReset with raa := 4000 })) (CH_RG_RFM_RFM_REQ 0) 1)
     let t := toGrant s.fresh 0
     on t (CH_RG_RFM_RFM_REQ 0) = true ∧
       (bankAt (getChan t 0) ⟨0, 0, 0, 0, 0, 0, 0⟩).raa ≥ rd t (CH_RG_RFM_RAAIMT 0)) ∧
    (let s := mk (chan0 [(PWR_STATE, 0x20000000), (PWR_CTRL, setFields (reg up PWR_CTRL) [(PWR_CTRL_PDE_IDLE, 64)])] chanReset)
     rankServes s.fresh 0 0 = true ∧ rd s.fresh PWR_STATE_STATE = 1 ∧ rankOpen s.fresh 0 0 none = false ∧
       rankQueued s.fresh (getChan s.fresh 0) 0 = false ∧ (getPRank (getChan s.fresh 0) 0).pd = false ∧
       rankFree s.fresh 0 0 = true ∧ rd s.fresh PWR_CTRL_PDE_IDLE ≠ 0) := by decide +kernel

/-- MaintenanceActs, its last part: the states of an alert. -/
theorem test_met_Alerts :
    let a : Alert := ⟨100, false, false, 48, none, 0, none⟩
    let s := fun (k : Nat) (a : Alert) => mk (chan0 (meOn 5) { chanReset with alerts := [(k, a)] })
    tlookup (getChan (s 0 a).fresh 0).alerts 0 = some a ∧ tlookup (getChan (s 0 a).fresh 0).alerts 1 = none ∧
    (let lo := rd (s 0 a).fresh (CH_RG_ABO_PW_MIN 0) * 4
     let hi := rd (s 0 a).fresh (CH_RG_ABO_PW_MAX 0) * 64
     0 < lo ∧ lo ≤ hi) ∧
    tlookup (getChan (s 2 a).fresh 0).alerts ((0 : Fin 2) + 2 : Nat) = some a ∧ holder (s 2 a).fresh 0 = 2 ∧
    rd (s 2 a).fresh (CH_ARB_STATE_ME_KIND 0) = 5 ∧
    (∀ i ∈ backoffRanks (toGrant (s 2 a).fresh 0) 0 0, meMay (toGrant (s 2 a).fresh 0) 0 i = true) ∧
    backoffRanks (toGrant (s 2 a).fresh 0) 0 0 ≠ [] ∧ twoSlots (wr up (GC_GRIST_CTRL_SLOT_BITS) 1) = true ∧
    tlookup (getChan (s 0 { a with parity := true }).fresh 0).alerts 0 = some { a with parity := true } := by decide +kernel

/-- MaintenanceActs: a temperature poll's two halves, and an in-band interrupt between and during transactions. -/
theorem test_met_Temperature :
    let s := fun (c : Chan) => mk (chan0 (meOn 1) c)
    let want := (s { chanReset with mrrWant := true }).fresh
    chanLive want 0 = true ∧ (getChan (s chanReset).fresh 0).mrrWant = false ∧ (getChan want 0).mrrWant = true ∧
    holder want 0 = 2 ∧ rd want (CH_ARB_STATE_ME_KIND 0) = 1 ∧ awakeRanks (toGrant want 0) 0 ≠ [] ∧
    (∀ i ∈ awakeRanks (toGrant want 0) 0, rankFree (toGrant want 0) 0 i = true) ∧
    (getChan (s chanReset).fresh 0).i3c.queue = [] ∧
    (getChan (s { chanReset with i3c := ⟨[⟨4, .host, 0, 0⟩], 4, []⟩ }).fresh 0).i3c.queue ≠ [] := by decide +kernel

/-- CenteringChoosesTheWidestCode: a table with a passing code, and one without. -/
theorem test_met_Centering :
    (chooseCode [((4 : Fin 128), List.replicate 4 ((3 : Fin 256), (9 : Fin 256))), (5, List.replicate 4 (2, 9))]).map (·.1) =
      some 5 ∧ chooseCode [((4 : Fin 128), List.replicate 4 ((9 : Fin 256), (3 : Fin 256)))] = none := by decide +kernel

/-- TrainingCommandsAct: a drift measurement that is due, one that starts the oscillators, one that reads them, and one that
the slice of a run has no room for. -/
theorem test_met_Drift :
    let s := fun (k : Option (Nat × Option Nat)) => (mk (chan0 [(CH_ARB_STATE 0, 0xC0000000), (CH_TRN_CTRL 0, 0x80000000)]
      { chanReset with train := { trainReset with slice := some 0, track := k } })).fresh
    let later := fun (e : Engine) => { e with clk := { e.clk with cyc := 600, nominal := 10 ^ 12 } }
    chanLive (s none) 0 = true ∧ isSafe (s none) = false ∧ on (s none) (CH_TRN_CTRL_TRN_EN 0) = true ∧
    (getChan (s none) 0).train.track = none ∧
    (∀ o ∈ [none, some 64], let e := later (s (some (0, o)))
      (getChan e 0).train.track = some (0, o) ∧ holder e 0 = 3 ∧ steepRuns e 0 = false ∧ rankFree e 0 0 = true ∧
        (getChan e 0).repair = none ∧ on e (CH_TRN_STATE_BUSY 0) = false ∧ 64 + 2048 ≤ nowPhy (toGrant e 0)) ∧
    ∀ o ∈ [none, some 64], let e := wr (later (s (some (0, o)))) (CH_TRN_STATE_BUSY 0) 1
      steepRuns (wr e (CH_TRN_STATE_RUN_MODE 0) 1) 0 = false ∧
        unitFits (toGrant (wr e (CH_TRN_STATE_RUN_MODE 0) 1) 0) 0 = false := by decide +kernel

/-- TrainingCommandsAct, clause by clause. -/
theorem test_met_Training :
    (let c := { chanReset with train := { trainReset with slice := some 0, pranks := 1, steps := 0x7FF } }
     let s := fun (mode step : Nat) (c : Chan) => mk (chan0 ((CH_ARB_STATE 0, 0xC0000000) :: tsOn mode step) c)
     let t := toUnit (toGrant (s 1 6 c).fresh 0) 0 1 6 0 0
     rankFree (s 1 6 c).fresh 0 0 = true ∧ chanLive (s 1 6 c).fresh 0 = true ∧ isSafe (s 1 6 c).fresh = false ∧ on (s 1 6 c).fresh (CH_TRN_STATE_BUSY 0) = true ∧
       rd (s 1 6 c).fresh (CH_TRN_STATE_RUN_MODE 0) = 1 ∧ rd (s 2 6 c).fresh (CH_TRN_STATE_RUN_MODE 0) = 2 ∧
       rd (s 0 6 c).fresh (CH_TRN_STATE_RUN_MODE 0) = 0 ∧ holder (s 1 6 c).fresh 0 = 3 ∧ unitFits t 0 = true ∧
       unitPrep (toGrant (s 1 6 c).fresh 0) 0 6 0 0 = none ∧ (getChan (s 2 6 c).fresh 0).train.stop = none ∧
       unitRefused t 0 6 0 0 = false ∧ (runUnit ⟨[], []⟩ t 0 [] [] none 0).2 = true ∧ spdWaits (s 0 0 c).fresh 0 = false ∧
       unitFits (toGrant (s 1 6 chanReset).fresh 0) 0 = false ∧ on (s 1 6 c).fresh (CH_TRN_CTRL_TRN_EN 0) = true ∧
       (let m := (runRanks 1).foldl (steepCmds ⟨[], []⟩ 0 6) (toGrant (s 0 6 c).fresh 0)
        (steepMeasured m 0 6 (runRanks 1) [] [] none).2 = none ∧
          (steepMeasured m 0 6 (runRanks 1) [] [] (some ⟨0, 0, 4⟩)).2 = some ⟨0, 0, 4⟩) ∧
       (∀ x ∈ [{ c with pranks := { prankReset with pd := true } :: c.pranks.tail },
           { chanReset with pranks := { prankReset with pd := true } :: chanReset.pranks.tail }],
         let g := toGrant (s 1 6 x).fresh 0
         let t := toPhy g (firstSlot g 0 (some (prepFirst g 0 (.wake 0))))
         unitPrep g 0 6 0 0 = some (.wake 0) ∧ unitFits t 0 = x.train.slice.isSome ∧ unitRefused t 0 6 0 0 = false)) ∧
    (let r := { read0 loc0 with issued := some 64, miss := true }
     let s := fun (again : Bool) => mk (chan0 schedOn { chanReset with rq := [{ r with again := again }] })
     oldestMiss (getChan (s false).fresh 0) 0 = some r ∧ oldestMiss (getChan (s true).fresh 0) 0 = some { r with again := true } ∧
       (let e := toPhy (s false).fresh (r.issued.getD 0 + 4 * rd (s false).fresh (CH_TRN_CFG_PAR_WIN 0))
        alertOf e (getChan e 0) r.loc.rank = none)) ∧
    (∀ k ∈ [I3cKind.log, .temp, .spd, .host], i3cNext ⟨[⟨2, k, 0, 0⟩], 4, []⟩ = some ⟨2, k, 0, 0⟩) := by decide +kernel

/-- OneDeviceErrorIsCorrected. -/
theorem test_met_OneDevice : ∃ q, (fun _ : Fin 4 => (1 : BitVec 16)) q ≠ 0 := ⟨0, by decide⟩

/-- StoredSlotIsDecodedAndCounted: every outcome of a decoding, and room in the write queue or none. -/
theorem test_met_StoredSlot :
    let x := encodeSlot 77
    let one := x ^^^ deviceError 3 fun _ => 0xBEEF#16
    let two := one ^^^ deviceError 7 fun _ => 0x1234#16
    decodeSlot none x = .clean ∧ decodeSlot none poisonSlot = .poisoned ∧
    (match decodeSlot none one with | .corrected _ _ _ => true | _ => false) = true ∧
    (match decodeSlot (some 3) one with | .marked _ _ => true | _ => false) = true ∧
    (match decodeSlot none two with | .uncorrectable _ => true | _ => false) = true ∧
    (match decodeSlot (some 4) one with | .second _ _ => true | _ => false) = true ∧
    singlePos (1, gfAlphaN 9 1) = some 9 ∧
    (let e := chan0 schedOn chanReset
     findWrite (getChan e 0) loc0 = none ∧ intakeOn e 0 = true ∧ (getChan e 0).wq.length < 192 ∧
       bankRoom (getChan e 0) (rd e (CH_SPARGE_BANK_MAX 0)) [loc0] = true) ∧
    findWrite { chanReset with wq := [write0 loc0] } loc0 ≠ none := by decide +kernel

/-- ScrubAndRepairAct, its first part: patrol, a commanded pass, a second read, and the intervals. -/
theorem test_met_Scrub :
    (let s := fun (c : Chan) => mk (chan0 (meOn 3) c)
     let t := fun (c : Chan) => toGrant (s c).fresh 0
     let past := fun (e : Engine) => { e with clk := { e.clk with cyc := 9000 } }
     let r : Reread := ⟨loc0, 0, 0, false⟩
     holder (s chanReset).fresh 0 = 2 ∧ rd (s chanReset).fresh (CH_ARB_STATE_ME_KIND 0) = 3 ∧
       scrubReady (t chanReset) 0 = true ∧ missDue (t chanReset) 0 0 = none ∧ patrolReady (t chanReset) 0 = true ∧
       (let c := { chanReset with scrubAt := 1, pass := [⟨0, 0, 9, 0, 0⟩] }
        scrubReady (t c) 0 = true ∧ missDue (t c) 0 0 = none ∧ patrolReady (t c) 0 = false) ∧
       (let m : Missed := ⟨loc0, 0, 0, false, false, false, .scrub⟩
        let x := past (t { chanReset with missed := [m] })
        scrubReady x 0 = true ∧ missDue x 0 0 = some m) ∧
       (let m : Missed := ⟨loc0, 0, 0, false, false, false, .reread r⟩
        let x := past (t { chanReset with missed := [m] })
        rereadReady x 0 = true ∧ missDue x 0 1 = some m ∧ m.use = .reread r) ∧
       (∀ b ∈ [true, false], let q : Reread := { r with cancelled := b }
        let x := t { chanReset with rereads := [q] }
        let u := putChan x 0 { getChan x 0 with rereads := [] }
        rereadReady x 0 = true ∧ missDue x 0 1 = none ∧ (getChan x 0).rereads = [q] ∧ findWrite (getChan x 0) loc0 = none ∧
          (meReads u 0 [loc0] 0 fun _ => (0, .reread q)).2 = [] ∧ (meReads u 0 [loc0] 1 fun _ => (0, .reread q)).2 ≠ []) ∧
       (let d : Dram := ⟨[], [(locKey loc0, 0)]⟩
        let e := (s chanReset).fresh
        let got := fun (x : Slot) => (meDecode e 0 r.origin loc0 (dramAt d e loc0 ^^^ x) false).2
        let was := dramAt d e loc0
        (got (was ^^^ encodeSlot 5 ^^^ deviceError 3 (fun _ => 1) ^^^ deviceError 7 fun _ => 2)).got = .ue ∧
          (got (was ^^^ encodeSlot 5 ^^^ deviceError 3 fun _ => 1)).fixed = some (encodeSlot 5) ∧
          (got (was ^^^ encodeSlot 5)).fixed = none ∧ (got (was ^^^ encodeSlot 5)).got ≠ .ue) ∧
       (let c := { chanReset with ecsWant := true }
        (getChan (s c).fresh 0).ecsWant = true ∧ ecsReady (t c) 0 = true ∧ (getChan (s chanReset).fresh 0).ecsWant = false) ∧
       chanLive (s chanReset).fresh 0 = true ∧ on (s chanReset).fresh (CH_SCRUB_CTRL_SCRUB_EN 0) = true) := by decide +kernel

/-- ScrubAndRepairAct, its second part: a repair, a copied line, the last one, and a spared channel that is empty. -/
theorem test_met_Repair :
    let spare := fun (ptr : Nat) => [(GC_SPARE_CTRL, setFields 0 [(GC_SPARE_CTRL_ACTIVE, 1), (GC_SPARE_CTRL_FAIL_CH, 0)]),
      (GC_SPARE_PTR_LO, BitVec.ofNat 32 ptr)]
    let s := fun (l : List (Nat × Word)) (c : Chan) =>
      mk (chan0 (meOn 4 ++ (GC_GRIST_CTRL, 0x1011) :: (CH_SCHED_CTRL 1, 0xC0000000 ||| reg up (CH_SCHED_CTRL 1)) :: l) c)
    let r : Repair := ⟨loc0, none, false, 0, [], 0, [], none, 0, none⟩
    (let t := toGrant (s [] { chanReset with repair := some r }).fresh 0
     holder (s [] { chanReset with repair := some r }).fresh 0 = 2 ∧
       rd (s [] { chanReset with repair := some r }).fresh (CH_ARB_STATE_ME_KIND 0) = 4 ∧
       (getChan t 0).repair = some r ∧ repairReady t 0 = true) ∧
    (let x := (s (spare 0) chanReset).fresh
     let t := toGrant x 0
     let c := spareCfg x
     let g := gcfg x
     let y := spareTarget g c c.ptr
     let m : Missed := ⟨unitLoc g c c.ptr, 0, 0, false, false, false, .copy⟩
     let z := toGrant (s (spare 0) { chanReset with missed := [m] }).fresh 0
     let late := { z with clk := { z.clk with cyc := 9000 } }
     let full := (mk (putChan x 1 { chanReset with wq := (List.range 64).map fun k => write0 { y with row := y.row + 1 + k } })).fresh
     isSafe x = false ∧ c.active = true ∧ c.failCh = 0 ∧ c.ptr < unitLines g c ∧ c.ptr + 1 < unitLines g c ∧
       copyRuns x 0 = true ∧ copyRoom x y = true ∧ copyReady t 0 = true ∧ missDue t 0 3 = none ∧
       copyReady late 0 = true ∧ missDue late 0 3 = some m ∧
       (copySlot ⟨[], []⟩ t 0 (unitLoc g c 0) 0 1).2 = none ∧ (copySlot ⟨[], []⟩ t 0 (unitLoc g c 0) 0 0).2 ≠ none ∧
       copyDue full 0 = true ∧ copyRoom full y = false ∧
       unitLines g (spareCfg (s (spare (unitLines g c - 1)) chanReset).fresh) = c.ptr + unitLines g c ∧
       (spareCfg (s (spare (unitLines g c - 1)) chanReset).fresh).ptr + 1 = unitLines g c) ∧
    (let g := gcfg (s (spare 0) chanReset).fresh
     let n := unitLines g (spareCfg (s (spare 0) chanReset).fresh)
     let x := (mk (chan0 (schedOn ++ (GC_GRIST_CTRL, 0x1011) :: spare n) chanReset)).fresh
     (spareCfg x).rankScope = false ∧ unitLines (gcfg x) (spareCfg x) ≤ (spareCfg x).ptr ∧
       isSafe x = false ∧ on x (CH_SCHED_CTRL_SCHED_EN 0) = true ∧ (getChan x 0).rq = [] ∧ (getChan x 0).wq = [] ∧
       (getChan x 0).replay = [] ∧ (getChan x 0).repair = none) := by decide +kernel

/-! ### Packer, security and directory -/

/-- A line that does not fit in 30 bytes. -/
def hard : Line := (List.range 64).foldl (fun a i => a ^^^ (BitVec.ofNat 512 ((i * 77 + 13) * 37 % 251)) <<< (8 * i)) 0

/-- PackedPairOpensToItsLines and PackerDecidesByItsTable. -/
theorem test_met_Packer : (encodeField 0).isSome = true ∧ (packPair 0 1).isSome = true ∧
    cellFits (some hard) = false ∧ cellFits none = false ∧ packCells (some 0) (some 1) = packPair 0 1 := by decide +kernel

/-- A write of a line by agent 7, bound to the version in force. -/
def txnW (e : Engine) (la : Nat) : Txn := { (newTxn e { reqOf .memWr hdr 0 false 0 0 0 with la := la } 0).2 with id := 0, stage := .qos }

/-- Channel 0 in service, with that write in its queue. -/
def queued (l : List (Nat × Word)) (f : Engine → Engine) (la : Nat) : State :=
  let e := f (poke (open_ false) (schedOn ++ l))
  mk { e with txns := [txnW e la], nextId := 1, qos := { e.qos with writes := [(0, [0])] } }

/-- PackerAndMetadataAct: the first write goes, stops or passes. -/
theorem test_met_WriteQueue :
    (let s := queued [] id 0
     let e := s.fresh
     let t := txnW e 0
     let r := txnRegion e t
     isSafe e = false ∧ clocked e = true ∧ on e (CH_SCHED_CTRL_SCHED_EN 0) = true ∧ tget [] e.qos.writes 0 = [0] ∧
       getTxn e 0 = some t ∧ intakeShut e 0 = false ∧ earlierRead e t = false ∧ heldReads e 0 0 = [] ∧ (match gristTarget (gcfg e) (spareCfg e) 0 with | .at _ => true | _ => false) = true ∧
       pairEntry e 0 = none ∧ mergeOfPair e 0 = false ∧ rebuilding e 0 = false ∧ pathLost e r 0 = false ∧
       pairBits e r 0 = some 0 ∧ isPartial t.req = false ∧
       (match tryDecision s.dram e t r (decideSeparate 0 r.pack (applyWrite t.req none)
         (queuedCell e r 1)) 0 with | .done _ => true | _ => false) = true) ∧
    (let s := queued [] (fun e => mapPack e fun p => { p with rebuilds := [0] }) 0
     (match lookWrite s.dram s.fresh 0 (txnW s.fresh 0) with | .pass _ => true | _ => false) = true) ∧
    (let s := queued [] (fun e => mapPack e fun p => { p with waits := [1] }) 0
     let e := { s.fresh with txns := { txnW s.fresh 0 with id := 1, stage := .chan, req := reqOf .memRd hdr 0 false 0 0 0 } :: s.fresh.txns }
     intakeShut e 0 = false ∧ getTxn e 0 = some (txnW s.fresh 0) ∧
       (match lookWrite s.dram e 0 (txnW s.fresh 0) with | .passLine _ => true | _ => false) = true) ∧
    (let s := queued [] (fun e => mapPack e fun p => { p with pairs := [⟨0, 0, [], []⟩] }) 0
     (match lookWrite s.dram s.fresh 0 (txnW s.fresh 0) with | .stop _ => true | _ => false) = true) := by decide +kernel

/-- PackerAndMetadataAct: returned reads, the retry buffer, a push, metadata and the two rebuilds. -/
theorem test_met_Returns :
    (let e := fun (u : Use) (st : Stage) => (mk (let e := open_ false; { e with
       txns := [{ txnW e 0 with stage := st }], nextId := 1, pack := { e.pack with
         pairs := [⟨0, 0, [0], []⟩], rets := [⟨u, 0, .data 0⟩], rebuilds := [3, 5] } })).fresh
     (returnedMerge (e (.merge 0) .chan)).isSome = true ∧ (returnedPair (e (.partner 0) .chan)).isSome = true ∧
     (let x := e (.push 0) .push
      x.txns.filter (fun t => t.stage == .push && !pushFlies x t.id) = [{ txnW x 0 with stage := .push }] ∧
        x.pack.rets.find? (fun r => r.use == .push 0) = some ⟨.push 0, 0, .data 0⟩) ∧
     (let x := e .metaRead .push
      x.pack.rets.find? (fun r => r.use == .push 0) = none ∧
        x.pack.rets.filter (fun r => r.use == .metaRead) = [⟨.metaRead, 0, .data 0⟩])) ∧
    (let x := (mk (let e := open_ false; { e with pack := { e.pack with rets := [⟨.metaRead, dataTop (gcfg e), .poison⟩] } })).fresh
     (metaTake (takeRet x ⟨.metaRead, dataTop (gcfg x), .poison⟩) (dataTop (gcfg x)) .poison).isSome = true) ∧
    (let e := poke (open_ false) schedOn
     let b : Rebuild := ⟨0, 256, [0], 0, false⟩
     let x := fun (rets : List Ret) => (mk { e with pack := { e.pack with rets := rets, rebuild := some b } }).fresh
     let r : Ret := ⟨.rebuild 0, 0, .data 0⟩
     let y := fun (rets : List Ret) => rebuildTakes (rebuildAsk (256 : Fin 257) (rebuildTakes (rebuildStart (x rets))))
     let o := fun (g : Got) => openSlot (x []) (regionNow (x []) 0) 0 none g
     ((y []).pack.rebuild.map (·.left)) = some [0] ∧ (x []).pack.rebuild = some b ∧
       (match (y [r]).pack.rebuild with
         | some b => decide (b.left = []) && ((metaFit (y [r]) (dataTop (gcfg (y [r])) + b.slot)).full == none) &&
           ((metaFit (y [r]) (dataTop (gcfg (y [r])) + b.slot)).cap == none) &&
           !lineHeld (y [r]) (dataTop (gcfg (y [r])) + b.slot)
         | none => false) = true ∧
       (match o (.data 0), o .poison with | .line _, .poison => true | _, _ => false) = true) ∧
    (let x := (mk (let e := poke (open_ false) schedOn; { e with sec := { e.sec with lostCtr := [nodeLa e 1 0] } })).fresh
     x.sec.ctrTasks = [] ∧ nextLost x = some (1, 0) ∧ hasAgreed x 8 = false ∧
       ∀ la ∈ [nodeLa x 1 0, 0], (metaFit x la).full = none ∧ (metaFit x la).cap = none ∧ lineHeld x la = false) := by
  decide +kernel

/-- PackerAndMetadataAct: an entry of the retry buffer whose cause still stands, and one whose cause is gone. -/
theorem test_met_Retry :
    let hs : List Way := (List.range 16).map fun k => ⟨k, k + 1, [⟨7, true, 0⟩], [9]⟩
    let e := fun (full : Bool) => let e := open_ true
      (mk { e with
        txns := [{ (newTxn e (reqOf .memRdData hdr 1 false 0 0 0) 0).2 with stage := .retry .setPinned }], nextId := 1
        dir := { e.dir with sets := if full then [(setOf 0, ⟨hs, 0⟩)] else [] } }).fresh
    clocked (e true) = true ∧ isSafe (e true) = false ∧ (retryEntries (e true) 0).length = 1 ∧
      (∀ t ∈ retryEntries (e true) 0, causeGone (e true) t = false) ∧
      (retryEntries (e false) 0).map (causeGone (e false)) = [true] := by decide +kernel

/-- ProtectionCheckDenies: the rights of a table are below 4, and the check allows and denies. -/
theorem test_met_Protection :
    let e := open_ false
    (bankOf e (curVer e)).rights.all (fun p => p.2 < 4) = true ∧ denied e (reqOf .memWr hdr 0 false 0 0 0) = false ∧
      denied e (reqOf .memWr hdrDenied 0 false 0 0 0) = true := by decide +kernel

/-- VersionsNeverRepeat: a minor at its last value, and a major below its own. -/
theorem test_met_Versions : minorOf (setMinor 0 63 126) 63 = 126 ∧ minorOf (setMinor 0 63 127) 63 = 127 ∧
    majorOf (rebased 0) + 1 < 2 ^ 56 := by decide +kernel

/-- TableCommitSwitchesBanks. -/
theorem test_met_TableCommit : (open_ false).sec.banks.length = 2 := by decide +kernel

/-- SecurityHardwareActs, clause by clause. -/
theorem test_met_Security :
    let s := fun (f : Sec → Sec) => (mk (mapSec up f)).fresh
    clocked (s id) = true ∧ entReady (s id) = true ∧
    (let x := s fun c => { c with rct := some (5, 3), apt := some (5, 9, 12) }
     entReady x = true ∧ x.sec.rct = some (5, 3) ∧ x.sec.apt = some (5, 9, 12)) ∧
    (let x := s fun c => { c with cond := [1, 2, 3], waitKey := [(1, 2, 0)] }
     seedReady x = true ∧ keyWork x = false ∧ x.sec.waitKey = [(1, 2, 0)] ∧ pairRuns x 1 = true) ∧
    (let x := s fun c => { c with cond := [1, 2, 3] }
     seedReady x = true ∧ keyWork x = false ∧ x.sec.waitKey = [] ∧ x.sec.drbg.seeded = false ∧
       seedReady (s fun c => { c with cond := [1, 2, 3], zeroized := true }) = true ∧
       keyWork (s fun c => { c with cond := [1, 2, 3], zeroized := true }) = true) ∧
    (∀ w ∈ [none, some (SecWork.sanitize 4 2 true)],
      let c := secContinue (s fun c => { c with zeroized := true, work := w })
      pairRuns c 1 = true ∧ isSafe c = false ∧ c.sec.zeroized = true ∧ on c CRY_PT_VER_DRAINING = false ∧
        c.sec.work = w) := by decide +kernel

/-- GrantsKeepOneWriter: a line with one writer, and one with readers. -/
theorem test_met_OneWriter : OneWriter [⟨7, true, 0⟩] ∧ OneWriter [⟨7, false, 0⟩, ⟨9, false, 0⟩] ∧ OneWriter [] ∧
    isClass3 .memRdData = true := by
  unfold OneWriter; decide +kernel

/-- DirectoryAnswersAndWalks, clause by clause. -/
theorem test_met_Directory :
    let sn : Snoop := ⟨some 3, 0, 7, true, .victim, 0, 1000⟩
    let s := fun (f : Dir → Dir) => let e := open_ true; mk { e with dir := f e.dir }
    let found := s fun d => { d with snoops := [sn] }
    TakesBi found 5 7 ∧ matchSnoop (creditDue (useCredit found.fresh 5 1) 5 1) 5 7 3 = some sn ∧
    (let f := s fun d => { d with snoops := [{ sn with inv := false }] }
     TakesBi f 5 7 ∧ matchSnoop (creditDue (useCredit f.fresh 5 1) 5 1) 5 7 3 = some { sn with inv := false }) ∧
    matchSnoop (creditDue (useCredit found.fresh 5 1) 5 1) 5 7 4 = none ∧
    clocked found.fresh = true ∧ isSafe found.fresh = false ∧
    found.fresh.dir.snoops.find? (fun x => x.tag == some 3) = some sn ∧
    (∀ set ∈ [0, 2 ^ 18 - 1],
      let w : Walk := ⟨false, 7, set, 0, false, []⟩
      let x := (s fun d => { d with walks := [w] }).fresh
      walkNow x false = some w ∧ walkNow (reclaimSet (tick x 1) w) false = some w) ∧
    (∀ set ∈ [0, 2 ^ 18 - 1],
      let w : Walk := ⟨true, 7, set, 0, false, []⟩
      let t : Ticket := ⟨4, 0, 0, 0x0303, 0, false, false, false, [word 7]⟩
      let e := open_ true
      let x := (mk { e with dir := { e.dir with walks := [w] }, mci := { e.mci with tickets := [t] } }).fresh
      walkNow x true = some w ∧ (unenrollSet (tick x 1) w).2 = true ∧
        unenrollTicket (putWalk (unenrollSet (tick x 1) w).1 w ⟨true, 7, set + 1, 0, false, []⟩) 7 = some t) ∧
    (let w : Walk := ⟨true, 7, 0, 0, false, []⟩
     let x := (s fun d => { d with
       walks := [w], evicts := List.replicate 128 5
       sets := [(setOf 0, ⟨[⟨0, tagOf 0, [⟨7, true, 0⟩], []⟩], 0⟩)] }).fresh
     walkNow x true = some w ∧ (unenrollSet (tick x 1) w).2 = false) ∧
    (s fun d => { d with initEnd := some 262144 }).fresh.dir.initEnd = some 262144 := by
  unfold TakesBi CanArrive; decide +kernel

/-! ### QoS, telemetry, time, power and management -/

/-- ShedCutsFitTheCapacity: shares that exceed the capacity, for each group; BucketsStayWithinBurst: the bucket that
covers a charge; HotlistBoundsTheTrueCount: a full list. -/
theorem test_met_Qos :
    (0 < nth (shedWalk (fun _ => 100) 10).cuts 0 0 ∧ 0 < nth (shedWalk (fun _ => 100) 200).cuts 1 0 ∧
      0 < nth (shedWalk (fun _ => 100) 600).cuts 5 0) ∧
    (let e := fun (g x : Rat) => { poke up [] with qos := { up.qos with
       active := [(QOS_CLASS 1, reg up (QOS_CLASS 1) ||| 0xFF)], buckets := [(16, ⟨g, x, 0⟩)] } }
     let b := fun g x => refill (e g x) 1 0
     (64 : Rat) ≤ (b 64 0).g ∧ ((b 0 0).g < 64 ∧ (64 : Rat) ≤ (b 0 0).x) ∧
       ((b 0 0).g < 1000000000 ∧ (b 0 0).x < 1000000000 ∧ - depth (e 0 0) 1 ≤ (b 0 0).g)) ∧
    ((List.range 4).foldl hotUpdate []).length = 4 := by decide +kernel

/-- RegulatorsAndTelemetryAct, clause by clause. -/
theorem test_met_Telemetry :
    let s := mk { poke up [(TEL_CTRL, 0x80000000)] with
      tel := { up.tel with fifo := [5], epoch := 1 }, qos := { up.qos with shedDue := true } }
    clocked s.fresh = true ∧ s.fresh.qos.shedDue = true ∧ on s.fresh TEL_CTRL_TEL_EN = true ∧
      s.fresh.tel.fifo = 5 :: [] ∧ pairRuns s.fresh 0 = true ∧ 0 < s.fresh.tel.epoch ∧
      on s.fresh TEL_HOT_STATE_SORTED = false := by decide +kernel

/-- TimebaseFollowsTheReference, at the greatest remainder, and EstimatesSleepAndKilnMoveTime, clause by clause. -/
theorem test_met_Time :
    12799 < binRate 0 ∧ 4799 < binRate 6 ∧ up.clk.rem < binRate up.clk.bin ∧ up.clk.slew = 0 ∧ up.clk.tb < 2 ^ 88 ∧
    (let at_ := fun (inv : Bool) => { up with clk := { up.clk with epochInvalid := inv, tb := 5 } }
     (rd up PWR_TB_CFG_STEP_TH * nsUnit : Nat) < ((2 ^ 88 - 1 : Nat) : Int) - (at_ false).clk.tb ∧
       (0 : Int) < (6 : Int) - (at_ true).clk.tb ∧
       (6 : Int) - (at_ false).clk.tb ≤ (rd up PWR_TB_CFG_STEP_TH * nsUnit : Nat)) ∧
    (let s := fun (f : Clk → Clk) => (mk { up with clk := f up.clk }).fresh
     let per := fun (x : Engine) => ((tick x 0).clk.tb - (tick x 0).clk.winTb) / 2 ^ 22
     let lo := s fun c => { c with tb := 800 * 65536 * 2 ^ 22, winDirty := false }
     let bad := s fun c => { c with tb := (1250 * 65536 + 1) * 2 ^ 22, winDirty := false }
     lo.pins.supply = true ∧ lo.pins.porst = false ∧ clocked lo = true ∧ (tick lo 0).clk.winDirty = false ∧
       800 * 65536 ≤ per lo ∧ per lo ≤ 1250 * 65536 ∧ (tick bad 0).clk.winDirty = false ∧ 1250 * 65536 < per bad ∧
       (tick (s id) 0).clk.winDirty = true ∧ clocked (s fun c => { c with root := .stopped }) = false) := by decide +kernel

/-- The engine in a power state, or in a transition to `t` at a step. -/
def power (st t step : Nat) : Engine :=
  poke up [(PWR_CTRL, 0xFFFFFFFF), (PWR_STATE, BitVec.ofNat 32 (st * 2 ^ 29 + t * 2 ^ 26 + bit (t != st) * 2 ^ 21 + step * 2 ^ 16))]

/-- PowerRequestsAndHandshakesAct, clause by clause. -/
theorem test_met_Power :
    (inTrans (power 0 0 0) = false ∧ pwrState (power 0 0 0) = 0 ∧ pwrState (power 1 1 0) = 1 ∧
      inTrans (power 1 1 0) = false ∧ on (power 0 0 0) PWR_CTRL_IN_SERVICE = true ∧ inTrans (power 0 2 2) = true ∧
      pwrTarget (power 0 2 2) = 2 ∧ reversible (setPending (power 0 2 2) 0 none) = true ∧
      reversible (setPending (power 0 2 6) 0 none) = false ∧ (power 0 0 0).pins.wake = false) ∧
    (let w := fun (st : Nat) => let e := power st st 0; { e with pins := { e.pins with wake := true } }
     let out := fun (st : Nat) => wr (w st) PWR_CTRL_IN_SERVICE 0
     (w 0).pins.wake = true ∧ on (w 0) PWR_CTRL_IN_SERVICE = true ∧ pwrState (w 0) < 2 ∧ inTrans (w 0) = false ∧
       pwrState (w 2) = 2 ∧ inTrans (w 2) = false ∧ on (out 0) PWR_CTRL_IN_SERVICE = false ∧ inTrans (out 0) = false ∧
       kilnGood (mapClk (wr (power 0 0 0) PWR_CTRL_IN_SERVICE 0) fun c => { c with calValid := true }) = true) ∧
    (mk (power 0 2 1)).fresh.pwr.reverse = none ∧
    (let s := fun (step : Nat) (f : Engine → Engine) => (mk (f (power 0 2 step))).fresh
     let t : Ticket := ⟨4, 0, 0, 0x200, 0, false, false, false, []⟩
     let busy := fun (x : Engine) => { x with mci := { x.mci with tickets := [t] } }
     let full := fun (x : Engine) => mapPwr (busy x) fun p => { p with delay := [(0, msUnits 10)] }
     (isAsked (s 1 id) 0 = true ∧ canAgree (s 1 id) 0 = true ∧ tget 0 (s 1 id).pwr.reask 0 = 0) ∧
     (let x := s 1 fun e => { e with pins := { e.pins with wake := true } }
      isAsked x 2 = true ∧ canAgree x 2 = false) ∧
     (isAsked (s 1 full) 0 = true ∧ canAgree (s 1 full) 0 = false ∧ msUnits 10 ≤ tget 0 (s 1 full).pwr.delay 0 ∧
       tget 0 (s 1 full).pwr.reask 0 = 0) ∧
     (isAsked (s 1 busy) 0 = true ∧ canAgree (s 1 busy) 0 = false ∧ tget 0 (s 1 busy).pwr.delay 0 < msUnits 10) ∧
     (let x := s 1 fun e => mapPwr e fun p => { p with reask := [(0, 7)] }
      isAsked x 0 = true ∧ tget 0 x.pwr.reask 0 ≠ 0)) := by decide +kernel

/-- EntryTakesItsSteps: each step of each target, agreed or by command, and a port that has not yielded. -/
theorem test_met_Entry :
    let by_ := fun (st t step : Nat) => wr (power st t step) PWR_CTRL_IN_SERVICE 0
    let s := fun (t step : Nat) => (mk (by_ (if step = 7 then 2 else 0) t step)).fresh
    (∀ q ∈ [(1, 1), (2, 1), (2, 2), (2, 3), (4, 3), (2, 4), (2, 5), (4, 5), (2, 6), (3, 6), (3, 7), (4, 8)],
      inTrans (s q.1 q.2) = true ∧ (s q.1 q.2).pwr.wake = none ∧ (s q.1 q.2).pwr.reverse = none ∧
        on (s q.1 q.2) PWR_CTRL_IN_SERVICE = false ∧ lapDone (s q.1 q.2) = true ∧
        pwrTarget (s q.1 q.2) = q.1 ∧ pwrStep (s q.1 q.2) = q.2) ∧
    pwrState (s 4 8) ≠ 4 ∧
    (let lap := fun (t step : Nat) => (mk (mapRing (poke (by_ 0 t step) [(RING_CTRL, 0x81010002)]) fun r => { r with
       laps := [⟨0, true, 0, true⟩] })).fresh
     lapDone (lap 2 6) = false ∧ lapDone (lap 4 8) = false) ∧
    (let at_ := fun (c : Chan) => (mk (putChan (poke (by_ 0 2 4) schedOn) 0 c)).fresh
     allAsleep (inParallel (s 2 4) (sleepChannel ⟨[], []⟩)) = true ∧
       allAsleep (inParallel (at_ { chanReset with rq := [read0 loc0] }) (sleepChannel ⟨[], []⟩)) = false) ∧
    (let x := (mk (mapPwr (power 0 2 2) fun p => { p with reverse := some 4 })).fresh
     inTrans x = true ∧ x.pwr.wake = none ∧ x.pwr.reverse = some 4 ∧ stepReady x = false) ∧
    (let x := (mk (mapPwr (by_ 0 2 2) fun p => { p with reverse := some 4 })).fresh
     inTrans x = true ∧ x.pwr.wake = none ∧ x.pwr.reverse = some 4 ∧ stepReady x = true ∧ pwrStep x ≠ 4) ∧
    (let x := mapPwr (poke (power 0 1 1) [(MBX_CORE_STATE, 0x50000000)]) fun p => { p with done := 1 }
     haltsNow x = true ∧ ∀ p < 2, rd x (pairField p) = 1) ∧
    (let x := (mk (mapPwr (power 0 2 1) fun p => { p with agreed := [0, 1, 2, 3] })).fresh
     ∀ b ∈ askedBlocks x, b ∈ x.pwr.agreed) ∧
    (let y := fun (e : Engine) => (mk (putPort e 5 { port5 with recallAt := some 0 })).fresh
     let w := fun (x : Engine) => tickTo x (usUnits 100)
     (getPort (y (power 0 2 2)) 5).recallAt = some 0 ∧ clocked (y (power 0 2 2)) = true ∧
       inTrans (w (y (power 0 2 2))) = true ∧ on (w (y (power 0 2 2))) PWR_CTRL_IN_SERVICE = true ∧
       pwrStep (w (y (power 0 2 2))) = 2 ∧ inTrans (w (y (power 0 0 0))) = false ∧
       on (w (y (by_ 0 2 2))) PWR_CTRL_IN_SERVICE = false) := by decide +kernel

/-- WakeRunsItsStages: each stage, and WAKE_N in OFF and out of it. -/
theorem test_met_Wake :
    (∀ k ∈ [0, 1, 2, 3, 4, 5], (mk (mapPwr (power 2 0 0) fun p => { p with wake := some k })).fresh.pwr.wake = some k) ∧
    (let s := fun (st : Nat) (r : Root) => (mk { power st st 0 with clk := { up.clk with root := r } }).fresh
     released (s 4 .stopped) = true ∧ pwrState (s 4 .stopped) = 4 ∧ pwrState (s 2 .stopped) ≠ 4 ∧
       (s 2 .stopped).clk.root ≠ .starting) := by decide +kernel

/-- Mailbox 3 is bound to pair 0 and in a state. -/
def boxed (st : Nat) : Engine :=
  poke up [(MBX_BIND 3, 0x80000007), (MBX_MB_STATE 3, BitVec.ofNat 32 (st * 2 ^ 29))]

/-- CoresAndMailboxesAct, clause by clause. -/
theorem test_met_Cores :
    let s := fun (e : Engine) => (mk e).fresh
    clocked (s (boxed 1)) = true ∧ regAvail (s (boxed 1)) = true ∧ (∀ st ∈ [0, 1, 2, 3, 4], boxUsable (s (boxed st)) 3 = true ∧ boxState (s (boxed st)) 3 = st) ∧
    boxUsable (s up) 3 = false ∧
    (let r : Rec := ⟨3, 1, false, [7]⟩
     let x := s { boxed 0 with mci := { up.mci with records := [r] } }
     boxServed x 3 = true ∧ nextRec x 3 = some r ∧ boxState x 3 = 0 ∧ boxUsable x 3 = true) ∧
    (∀ p ∈ [0, 1], coreLive (s up) p = true ∧ pairRuns (s up) p = true ∧
      rd (s (poke up [(MBX_CORE_STATE, 0xA0000000)])) (pairField p) = 2) ∧
    (∀ w ∈ [SecWork.protFirst 4 ⟨[], []⟩ [] [] [] [], .protInit 4 [] false, .ending 4 [], .destroy 4 5 [], .zeroize true, .zeroizing],
      (mapSec up fun c => { c with work := some w }).sec.work = some w) ∧
    (let c : Commit := ⟨4, [], false, [1], [0], 0, 0, 0, [], none⟩
     let x := mapMci up fun m => { m with commit := some c }
     x.mci.commit = some c ∧ isSafe x = false ∧ c.quiesce = false) := by decide +kernel

/-- SemaphoresHaveOneOwner: a free semaphore, an own one and a foreign one. -/
theorem test_met_Semaphores :
    let s := fun (w : Word) => (mk (poke up [(MBX_SEM 3, w)])).fresh
    clocked (s 0) = true ∧ on (s 0) (MBX_SEM_HELD 3) = false ∧
    (let x := s (setFields 0 [(MBX_SEM_HELD 3, 1), (MBX_SEM_OWNER 3, 4095)])
     on x (MBX_SEM_HELD 3) = true ∧ rd x (MBX_SEM_KIND 3) = 0 ∧ rd x (MBX_SEM_OWNER 3) = (4095 : BitVec 12).toNat) := by
  decide +kernel

/-! ### Mulum -/

/-- A command's header word. -/
def head (op len : Nat) : Word := BitVec.ofNat 32 (op + 5 * 2 ^ 16 + len * 2 ^ 24)

/-- A ticket of mailbox 3. -/
def ticketOf (op : Nat) : Ticket := ⟨4, 3, 5, op, 0, false, false, false, []⟩

/-- The worked example's map, with channels in service and the pages of a hotlist sorted. -/
def hosted : Engine :=
  let l := [(GC_GRIST_CTRL, 0x80004E11), (GC_CARVE_MAC, 3641), (GC_CARVE_CTR, 131), (GC_CARVE_SPARE, 8192), (GC_CARVE_DUMP, 8),
      (QOS_SERVICE, 0xFFFF), (PWR_CTRL, 0xFFFFFFFF), (CRY_CTRL, setFields 0 [(CRY_CTRL_PRIV_AGENT, 7)]),
      (TEL_HOT_STATE, 0x8000)] ++ (List.range 14).flatMap fun j =>
        [(GC_GRIST_MASK_LO j, BitVec.ofNat 32 (nth exampleGrist.masks j 0)),
         (GC_GRIST_MASK_HI j, BitVec.ofNat 32 (nth exampleGrist.masks j 0 / 2 ^ 32))]
  mapSec (poke up (l ++ [(CH_REF_CTRL 0, 0x80000000), (CH_RG_CTRL 0, 0x80000000)])) fun c => { c with active := [0, 5] }

/-- Mailbox 3, bound to the privileged agent 7 and to a pair, holds a message in a session. -/
def told (core : Nat) (f : Engine → Engine) (ws : List Word) : State :=
  let e := f hosted
  mk (poke { e with mci := { e.mci with sessions := [(3, some ⟨0x203, [], []⟩)] } }
    ([(MBX_BIND 3, BitVec.ofNat 32 (0x80000007 + core * 2 ^ 30)), (MBX_MB_STATE 3, 0x40000000)] ++
      ws.zipIdx.map fun p => (MBX_MB_D 3 p.2, p.1)))

/-- The mailbox holds a command of an opcode for a running pair, and the message passes its checks. -/
def Told (s : State) (op : Nat) (l : Cmd → Layout) : Bool :=
  on s.fresh (MBX_BIND_VALID 3) && boxState s.fresh 3 == 2 && pairRuns s.fresh (rd s.fresh (MBX_BIND_CORE 3)) &&
    (messageOf s.fresh 3).op == op && !leavesWaiting s.fresh (rd s.fresh (MBX_BIND_CORE 3)) op &&
    (mciCheck (tookMessage s.fresh 3) (messageOf s.fresh 3) (l (messageOf s.fresh 3))).isNone

/-- So it is the hypothesis of the statements. -/
theorem told_holds (s : State) (op : Nat) (l : Cmd → Layout) (h : Told s op l = true) : HoldsCommand s.fresh 3 op ∧
    mciCheck (tookMessage s.fresh 3) (messageOf s.fresh 3) (l (messageOf s.fresh 3)) = none := by
  simp only [Told, Bool.and_eq_true, beq_iff_eq, Bool.not_eq_true', Option.isNone_iff_eq_none] at h
  exact ⟨⟨h.1.1.1.1.1, h.1.1.1.1.2, h.1.1.1.2, h.1.1.2, h.1.2⟩, h.2⟩

/-- The engine that a ticketed command of mailbox 3 works on. -/
def ticketed (s : State) : Engine := (withTicket (tookMessage s.fresh 3) (messageOf s.fresh 3)).1

/-- MulumSessionAndConfigCommands: its first part, check by check. -/
theorem test_met_Checks :
    let s := fun (core : Nat) (f : Engine → Engine) => (told core f [head 0x102 2]).fresh
    let c : Nat → Cmd := fun op => ⟨3, op, 5, 2, [head op 2]⟩
    getSession (s 0 id) 4 = none ∧ getSession (s 0 id) 3 ≠ none ∧ permits (s 0 id) 3 .reader = true ∧
      permits (s 0 fun e => poke e [(CRY_CTRL, 0)]) 3 .priv = false ∧ pairServes (boxPair (s 1 id) 3) 0x102 = false ∧
      pairServes (boxPair (s 0 id) 3) 0x102 = true ∧ mciBusy (s 0 id) (c 0x102) false = false ∧
      tagTaken (s 0 id) 3 5 = false ∧ tagTaken (s 0 fun e => { e with mci := { e.mci with tickets := [ticketOf 0x200] } }) 3 5 = true ∧
      mciBusy (s 0 fun e => poke e [(FLT_STATUS, setFields 0 [(FLT_STATUS_SAFE, 1)])]) (c 0x101) true = true := by
  decide +kernel

/-- Its second part, command by command. -/
theorem test_met_SessionCommands :
    (let s := told 0 id [head 0 2, 0x02030200]
     let c := messageOf s.fresh 3
     Told s 0 (fun c => ⟨.any, false, named c [0xFFFFFFFF], c.len == 2⟩) ∧ c.f 1 15 0 ≤ c.f 1 31 16 ∧
       max (c.f 1 15 0) 0x200 ≤ min (c.f 1 31 16) 0x203 ∧ boxTickets (tookMessage s.fresh 3) c.box = []) ∧
    Told (told 0 id [head 1 1]) 1 (fun c => ⟨.any, false, named c [], c.len == 1⟩) ∧
    (∀ d ∈ [false, true], let t := { ticketOf 0x0700 with declared := d }
     let s := told 0 (fun e => { e with mci := { e.mci with tickets := [t] } }) [head 2 2, 5]
     let c := messageOf s.fresh 3
     let e := tookMessage s.fresh 3
     Told s 2 (fun c => ⟨.any, false, named c [if sessionVer e c.box ≥ 0x203 then 0x1FF else 0xFF], c.len == 2⟩) ∧ sessionVer e 3 ≥ 0x203 ∧
       (c.w 1).getLsbD 8 = false ∧ (boxTickets e c.box).find? (fun t => t.tag == c.f 1 7 0) = some t ∧
       (abortTicket e t).isSome = !d) ∧
    (let s := told 0 id [head 0x100 4, 0, 0x00000062, 100]
     let e := tookMessage s.fresh 3
     let full := (List.range 128).map fun k => (0xB2 + k, 1, (0 : Word))
     Told s 0x100 (fun c => ⟨.admin, false, c.w 1 &&& ~~~1 == 0 && (named c []) && (List.range ((c.len - 2) / 2)).all fun k =>
        itemKnown (sessionVer e c.box) (c.f (2 * k + 2) 15 0) && c.f (2 * k + 2) 31 24 == 0,
        decide (c.len ≥ 2) && decide (c.len ≤ 64) && c.len % 2 == 0 && (stageItems c).all itemOk⟩) ∧
     ((stageItems (messageOf s.fresh 3)).foldl stagePut []).length ≤ 128 ∧
     128 < ((stageItems (messageOf s.fresh 3)).foldl stagePut full).length) ∧
    (let s := told 0 id [head 0x102 2, 0x00000062]
     let e := tookMessage s.fresh 3
     let c := messageOf s.fresh 3
     Told s 0x102 (fun c => ⟨.any, false, named c [0x01FFFFFF] && itemKnown (sessionVer e c.box) (c.f 1 15 0), c.len == 2 &&
        (c.f 1 15 0 == 0xFFFF && c.f 1 23 16 == 0 || ((itemRoute (c.f 1 15 0)).isSome && scopeOk (c.f 1 15 0) (c.f 1 23 16)))⟩) ∧
       (c.w 1).getLsbD 24 = false ∧ c.f 1 15 0 ≠ 0xFFFF ∧ itemScope (c.f 1 15 0) ≠ .chan ∧ c.f 1 23 16 ≠ 0xFF) ∧
    (∀ q ∈ ([(0x0010020, 1), (0x1010020, 1), (0x0FFFF, 0), (0x0FF0020, 0xFF)] : List (Nat × Nat)),
     let s := mk (putStage (told 0 id [head 0x102 2, BitVec.ofNat 32 q.1]).e 3 [(0x20, 1, 7)])
     let e := tookMessage s.fresh 3
     let c := messageOf s.fresh 3
     Told s 0x102 (fun c => ⟨.any, false, named c [0x01FFFFFF] && itemKnown (sessionVer e c.box) (c.f 1 15 0), c.len == 2 &&
        (c.f 1 15 0 == 0xFFFF && c.f 1 23 16 == 0 || ((itemRoute (c.f 1 15 0)).isSome && scopeOk (c.f 1 15 0) (c.f 1 23 16)))⟩) ∧
       (c.w 1).getLsbD 24 = (q.1 == 0x1010020) ∧ stagedValue e c.box 0x20 1 = some 7 ∧
       (c.f 1 15 0 = 0xFFFF ↔ q.1 = 0xFFFF) ∧ (c.f 1 23 16 = 0xFF ↔ q.2 = 0xFF)) ∧
    (let s := told 0 id [head 0x101 2, 1]
     let c := messageOf s.fresh 3
     let p := putStage (tookMessage s.fresh 3) c.box []
     HoldsCommand s.fresh 3 0x101 ∧ mciCheck p c ⟨.admin, true, named c [1], c.len == 2⟩ = none ∧
       (commitCheck (withTicket p c).1 [(0x80, 0, 100)] false).isSome = true) := by
  unfold HoldsCommand; decide +kernel

/-- Its commits: a roll, and a quiesced change of the mapping with equal modules and with others. -/
theorem test_met_Commit :
    ∀ q ∈ ([(100, [(0x62, 0, 100)]), (100, [(0x80, 0, reg hosted GC_GRIST_CTRL)]),
       (101, [(0x80, 0, reg hosted GC_GRIST_CTRL)])] : List (Nat × List (Nat × Nat × Word))),
     let t := told 0 (fun e => poke e (((List.range 16).map fun n => (CH_PHY_SPD n, 100)) ++ [(CH_PHY_SPD 1, word q.1)])) [head 0x101 2, 1]
     let s := mk (putStage t.e 3 q.2)
     let c := messageOf s.fresh 3
     let p := putStage (tookMessage s.fresh 3) c.box []
     let o := withTicket p c
     getStage (tookMessage s.fresh 3) c.box = q.2 ∧ HoldsCommand s.fresh 3 0x101 ∧
       mciCheck p c ⟨.admin, true, named c [1], c.len == 2⟩ = none ∧ commitCheck o.1 q.2 true = none ∧
       quiesceGeom o.1 q.2 = (if q.1 = 100 then none else some 1) := by
  unfold HoldsCommand; decide +kernel

/-- MulumMaintenanceCommands: training, sparing, repair, scrubbing and power. -/
theorem test_met_WorkCommands :
    (∀ mode ∈ [1, 2], ∀ runs ∈ [([] : List OffRun), [⟨1, 1, 1, 9, true, 0⟩]], ∀ held ∈ [0, 17],
     let s := told 0 (fun e => { mapMci e fun m => { m with offRuns := runs } with qos := { e.qos with
       hold := [(0, List.range held)] } }) [head 0x200 2, BitVec.ofNat 32 (0x00010100 + mode * 16)]
     let c := messageOf s.fresh 3
     let o := ticketed s
     let w := mapMci o fun m => { m with offRuns := [⟨0, 1, 1, (withTicket (tookMessage s.fresh 3) c).2, false, 0⟩] }
     let t := throttleAll w true
     Told s 0x200 (fun c => ⟨.admin, true, named c [0x07FF0F3F] && c.f 1 5 4 != 3, c.len == 2 && c.f 1 5 4 != 0⟩) ∧ c.f 1 3 0 = 0 ∧
       inService o 0 = true ∧ on o (CH_TRN_STATE_BUSY 0) = false ∧ (∀ r ∈ o.mci.offRuns, r.ch ≠ 0) ∧ o.mci.offRuns = runs ∧
       c.f 1 5 4 = mode ∧ offlineOk o 0 = true ∧ o.mci.commit = none ∧ pairRuns w 0 = true ∧ isSafe w = false ∧
       rollDrained t 0 = (held == 0) ∧ offlineOk (mapMci (throttleAll t false) fun m => { m with offRuns := [] }) 0 = true) ∧
    (let s := told 0 id [head 0x200 2, BitVec.ofNat 32 (onlineSteps * 2 ^ 16 + 0x110)]
     let c := messageOf s.fresh 3
     c.f 1 5 4 = 1 ∧ c.f 1 26 16 &&& onlineSteps = c.f 1 26 16) ∧
    (∀ w ∈ [0, 0x010], let s := told 0 id [head 0x201 2, BitVec.ofNat 32 w]
     let c := messageOf s.fresh 3
     Told s 0x201 (fun c => ⟨.admin, true, named c [0xF1F], c.len == 2⟩) ∧ c.f 1 3 0 = 0 ∧ c.f 1 11 8 = 0 ∧
       canSpare (ticketed s) (c.f 1 4 4) = true ∧ 0 < 2 ^ (gcfg (tookMessage s.fresh 3)).k ∧ (ticketed s).mci.commit = none) ∧
    (let s := told 0 id [head 0x202 3, 0x40, 5]
     let c := messageOf s.fresh 3
     Told s 0x202 (fun c => ⟨.admin, true, named c [0x1FFF7F, 0x3FFFF], c.len == 3⟩) ∧
       c.f 1 3 0 = 0 ∧ c.f 1 15 12 = 0 ∧ c.f 2 17 0 = 5 ∧ (gcfg (tookMessage s.fresh 3)).r = 17 ∧ c.f 1 6 6 = 1 ∧ c.f 1 5 5 = 0 ∧
       (getChan (ticketed s) 0).repair = none) ∧
    (let s := told 0 id [head 0x700 5, 0, 0, 0xFFC0, 0]
     let g := gcfg (ticketed s)
     Told s 0x700 (fun c => ⟨.admin, true, named c [0xFFFFFFFF, 0xFFFFFFFF, 0xFFFFFFFF, 0xFFFFFFFF], c.len == 5⟩) ∧
       rangeOf (messageOf s.fresh 3).words 1 (dumpBase g * sliceLines g) = some (0, 1023) ∧
       on (ticketed s) GC_GRIST_CTRL_GRIST_EN = true ∧ (passNext (ticketed s) 0 ⟨0, 0, 1023, 0, 1⟩).isSome = true) ∧
    (let s := told 0 id [head 0x400 2, 2]
     let c := messageOf s.fresh 3
     Told s 0x400 (fun c => ⟨.power, true, named c [0x1F] && decide (c.f 1 2 0 ≤ 4), c.len == 2⟩) ∧ c.f 1 4 3 = 0 ∧
       on (ticketed s) PWR_CTRL_IN_SERVICE = true ∧ isSafe (ticketed s) = false ∧ 0 < c.f 1 2 0) := by
  decide +kernel

/-- MulumMaintenanceCommands: an image that is being verified, and one that has been. -/
theorem test_met_Verification : ∀ p ∈ [0, 264],
    let st : FwStage := ⟨2, List.replicate 264 0, none⟩
    let x := mapMci { up with boot := { up.boot with stageBuf := some st } } fun m => { m with
      verify := some 4, tickets := [{ ticketOf 0x0800 with progress := p }] }
    x.mci.verify = some 4 ∧ findTicket x 4 = some { ticketOf 0x0800 with progress := p } ∧ x.boot.stageBuf = some st ∧
      pairRuns x 0 = true ∧ (p < (stageImage st).length ↔ p = 0) := by decide +kernel

/-- MulumMaintenanceCommands: the hotlist, dumps and firmware images. -/
theorem test_met_DataCommands :
    (let s := told 0 id [head 0x500 4, 0, 0, 0]
     let e := tookMessage s.fresh 3
     let c := messageOf s.fresh 3
     Told s 0x500 (fun c => ⟨.reader, false, named c [0xFFFFFFFF, 0x1FFF, 0xFFFFFF], c.len == 4⟩) ∧
       on e TEL_HOT_STATE_SORTED = true ∧ (c.w 1).toNat = e.tel.snapEpoch ∧ c.f 2 12 0 ≤ e.tel.snap.length) ∧
    (let x : Dump := ⟨1, false, List.replicate 8 3⟩
     let s := told 0 (fun e => { e with flt := { e.flt with tun := some x } }) [head 0x600 3, 1, 4]
     let e := tookMessage s.fresh 3
     let c := messageOf s.fresh 3
     Told s 0x600 (fun c => ⟨.admin, false, named c [0xFFFF, 0xFFFFFFFF], c.len == 3 && (c.w 2).toNat % 4 == 0⟩) ∧ 0 < c.f 1 15 0 ∧
       rd e FLT_SAFE_PHASE = 0 ∧ findDump e (c.f 1 15 0) = some x ∧ (c.w 2).toNat = 4 ∧ 4 < x.bytes.length) ∧
    (∀ safe ∈ [0, 1], let s := told 0 (fun e => poke e [(FLT_STATUS, setFields 0 [(FLT_STATUS_SAFE, safe)]),
       (FLT_SAFE, setFields 0 [(FLT_SAFE_PHASE, 4 * safe), (FLT_SAFE_DUMP_DONE, safe)])]) [head 0x601 2, 1]
     let e := tookMessage s.fresh 3
     let c := messageOf s.fresh 3
     Told s 0x601 (fun c => ⟨.admin, false, named c [3], c.len == 2⟩) ∧ rd e FLT_SAFE_NO_AUTO = 0 ∧ c.f 1 1 1 = 0 ∧
       isSafe e = (safe == 1) ∧
       (safe = 1 → isSafe (reply { e with flt := { e.flt with tunHeld := false } } c stOk 0 []) = true ∧
         on e FLT_SAFE_DUMP_DONE = true ∧ c.f 1 0 0 = 1)) ∧
    (∀ fin ∈ [0, 0x80000000], let s := told 0 id [head 0x800 4, BitVec.ofNat 32 (fin + 2), 0, 7]
     let e := tookMessage s.fresh 3
     let c := messageOf s.fresh 3
     Told s 0x800 (fun c => ⟨if c.f 1 1 0 = 1 then .priv else .admin, (c.w 1).getLsbD 31,
        !(c.w 0).getLsbD 31 && c.w 1 &&& 0x7FFFFFFC == 0,
        decide (3 ≤ c.len) && decide (c.len ≤ 64) && c.f 1 1 0 != 0 && c.f 1 1 0 != 3⟩) ∧ e.flt.tunHeld = false ∧ e.mci.verify = none ∧
       c.f 1 1 0 = 2 ∧ c.w 2 = 0 ∧ (stageChunk e.boot.stageBuf 2 0 (260 + payloadMax 2 + 3)
        (wordBytes ((c.words.take c.len).drop 3))).isSome = true) ∧
    (let s := told 0 (fun e => { e with boot := { e.boot with stageBuf := some ⟨1, List.replicate 264 0, some 3⟩ } })
       [head 0x801 2, 1]
     let c := messageOf s.fresh 3
     let o := ticketed s
     Told s 0x801 (fun c => ⟨if c.f 1 1 0 = 1 then .priv else .admin, true, named c [3],
        c.len == 2 && c.f 1 1 0 != 0⟩) ∧ o.mci.commit = none ∧
       o.boot.stageBuf = some ⟨c.f 1 1 0, List.replicate 264 0, some 3⟩ ∧
       sessionsServed o (kindPair (c.f 1 1 0)) ((stageImage ⟨c.f 1 1 0, List.replicate 264 0, some 3⟩).drop 260) = true) := by
  decide +kernel

/-- MulumSecurityCommands, command by command. -/
theorem test_met_SecurityCommands :
    (let s := told 1 id [head 0x300 2, 9]
     let c := messageOf s.fresh 3
     Told s 0x300 (fun c => ⟨.priv, true, named c [0xFFF], c.len == 2⟩) ∧ 0 < c.f 1 11 0 ∧
       c.f 1 11 0 ∉ (ticketed s).sec.active ∧ (ticketed s).sec.waitKey = []) ∧
    (let s := told 1 id [head 0x301 2, 5]
     let c := messageOf s.fresh 3
     Told s 0x301 (fun c => ⟨.priv, true, named c [0xFFF], c.len == 2⟩) ∧ 0 < c.f 1 11 0 ∧
       c.f 1 11 0 ∈ (ticketed s).sec.active ∧ HasTurn (withTicket (tookMessage s.fresh 3) c) c) ∧
    (let s := told 1 id [head 0x302 8, 0x003, 4, 0, 100, 0x00004000, 0, 0]
     let c := messageOf s.fresh 3
     let e := tookMessage s.fresh 3
     let o := ticketed s
     let cur := bankOf o (curVer o)
     Told s 0x302 (fun c => ⟨.priv, true, named c (protMasks c) && (decide (c.f 1 3 1 ≤ 1) ||
        (decide (c.f 1 3 1 ≤ 4) && decide (sessionVer e c.box ≥ 0x202))), protValid c⟩) ∧ (protRecs c.words).any (badRec o) = false ∧
       noOverlap (((cur.regions.filter fun p => (protRecs c.words).all fun r => r.idx != p.1).map (·.2)) ++
         ((protRecs c.words).filter (·.valid)).map (·.reg)) = true ∧ HasTurn (withTicket e c) c ∧ (c.w 1).getLsbD 0 = true ∧
       (applyRecs o cur.regions (protRecs c.words) ⟨cur.regions.filter (keepsEntry (protRecs c.words)), []⟩).map (·.created) =
         some [4]) ∧
    (∀ d ∈ [true, false], let s := told 1 (fun e => mapSec (wr e CRY_PT_VER_DRAINING (bit d)) fun x =>
       { x with work := some .zeroizing }) [head 0x302 8, 0x003, 4, 0, 100, 0x00004000, 0, 0]
     let e := tookMessage s.fresh 3
     Told s 0x302 (fun c => ⟨.priv, true, named c (protMasks c) && (decide (c.f 1 3 1 ≤ 1) ||
        (decide (c.f 1 3 1 ≤ 4) && decide (sessionVer e c.box ≥ 0x202))), protValid c⟩) ∧
       on (ticketed s) CRY_PT_VER_DRAINING = d ∧ secFree (ticketed s) = false) ∧
    (∀ q ∈ [(0x00010009, false), (9, true), (9, false)],
     let s := told 1 (fun e => if q.2 then putEnroll e 9 ⟨true, false, false, 5, 0, 0⟩ else e) [head 0x303 2, BitVec.ofNat 32 q.1]
     let c := messageOf s.fresh 3
     Told s 0x303 (fun c => ⟨.priv, true, named c [0x01FF0FFF], c.len == 2⟩) ∧ (ticketed s).dir.walks = [] ∧
       (getEnroll (ticketed s) 9).enrolled = q.2 ∧ c.f 1 16 16 = (if q.1 = 9 then 0 else 1) ∧
       shadow (ticketed s) = false ∧ (freeVidx (ticketed s)).isSome = true) ∧
    (let s := told 0 id [head 0x701 2, 5]
     let c := messageOf s.fresh 3
     Told s 0x701 (fun c => ⟨.priv, true, named c [0x10FFF, 0xFFFFFFFF, 0xFFFFFFFF, 0xFFFFFFFF, 0xFFFFFFFF],
        c.len == if c.f 1 16 16 = 1 then 6 else 2⟩) ∧
       c.f 1 16 16 = 0 ∧ c.f 1 11 0 ∈ (ticketed s).sec.active ∧ HasTurn (withTicket (tookMessage s.fresh 3) c) c) ∧
    (let s := told 0 id [head 0x701 6, 0x10000, 0x40, 0, 0xFFC0, 0]
     let c := messageOf s.fresh 3
     Told s 0x701 (fun c => ⟨.priv, true, named c [0x10FFF, 0xFFFFFFFF, 0xFFFFFFFF, 0xFFFFFFFF, 0xFFFFFFFF],
        c.len == if c.f 1 16 16 = 1 then 6 else 2⟩) ∧ HasTurn (withTicket (tookMessage s.fresh 3) c) c ∧
       c.f 1 16 16 = 1 ∧ rangeOf c.words 2 (dataTop (gcfg (ticketed s))) = some (1, 1023) ∧
       rangeAssigned (ticketed s) 1 1023 = false) ∧
    (let s := mk (mapRing up fun r => { r with inbox := [(4, [head 0x102 2, 0x62])] })
     s.fresh.ring.inbox.find? (fun y => y.1 == 4) = some (4, [head 0x102 2, 0x62]) ∧ pairRuns s.fresh 0 = true) := by
  unfold HasTurn; decide +kernel

/-- RollAndQuiesceAct: a drained channel, one that is not, the third try, a stop, and each step of a quiesced commit. -/
theorem test_met_Roll :
    let k : Commit := ⟨4, [(0x11, 0, 0)], false, [0, 1], [], 0, 0, 0, [], none⟩
    let s := fun (k : Commit) (q : List Txn) => (mk (mapMci { up with txns := q, qos := { up.qos with
      hold := if q.isEmpty then [] else [(0, List.range 17)] } } fun m => { m with commit := some k })).fresh
    let t := (newTxn up (reqOf .memRd hdr 0 false 0 0 0) 0).2
    (s k []).mci.commit = some k ∧ pairRuns (s k []) 0 = true ∧ isSafe (s k []) = false ∧
    (let x := fun k q => throttleAll (wr (s k q) GC_CFG_GEN_NEXT_CH 0) true
     rollDrained (x k []) 0 = true ∧ rollDrained (x k [t]) 0 = false ∧
       rollDrained (s { k with step := 1, tries := 2 } [t]) 0 = false) ∧
    (s k []).mci.offRuns = [] ∧ (s k []).pwr.rollAt = none ∧
    (∀ thr ∈ [false, true], ∀ tries ∈ [0, 2], ∀ held ∈ [0, 17], let r : OffRun := ⟨0, 1, 1, 9, thr, tries⟩
     let x := (mk (mapMci { up with qos := { up.qos with hold := [(0, List.range held)] } } fun m => { m with
       offRuns := [r] })).fresh
     x.mci.offRuns = r :: [] ∧ pairRuns x 0 = true ∧ isSafe x = false ∧
       rollDrained (if r.throttled then x else throttleAll x true) r.ch = (held == 0)) ∧
    (let d := { k with quiesce := true, step := 2 }
     class3Done (s d []) = true ∧ allYielded (s d []) = true ∧ writesDone (s d []) = true ∧ writesDone (s d [t]) = false ∧
       nothingHeld (s d []) = true) := by decide +kernel

/-! ### Faults, registers, resets and bring-up -/

/-- EventsArePromotedAndRecorded and FullHistoryQueueKeepsTheGraverRecords: full queues with and without a record to
displace. -/
theorem test_met_History :
    let e := fun (h : List HistRec) => { up with flt := { up.flt with hist := h } }
    let r : FClass → HistRec := fun c => ⟨0, c, false, false, 2, 0, 0⟩
    srcDefined 2 = true ∧ 0 < promoteW up 2 ∧ isSafe up = false ∧ (tget noCount up.flt.counts 2).ctCount = 0 ∧
    0 < promoteN up 2 ∧ promoteN up 2 ≠ 1 ∧ (tget noCount up.flt.counts 2).ceCount = 0 ∧
    (e (List.replicate 31 (r .fatal))).flt.hist.length < 32 ∧
    (e (List.replicate 32 (r .fatal))).flt.hist.length = 32 ∧
    (∀ x ∈ (e (List.replicate 32 (r .fatal))).flt.hist, classCode .contained < classCode x.cls) ∧
    (e (List.replicate 31 (r .fatal) ++ [r .corrected])).flt.hist = List.replicate 31 (r .fatal) ++ r .corrected :: [] ∧
    classCode (r .corrected).cls ≤ classCode .corrected := by decide +kernel

/-- DumpAndRecoveryAct: a dump to the tun, to DRAM, and to the tun in place of DRAM; the quiet period; an old recovery. -/
theorem test_met_Dump :
    let s := fun (phase rows : Nat) (held : Bool) => (mk (let e := poke hosted [(GC_CARVE_DUMP, word rows),
        (FLT_STATUS, setFields 0 [(FLT_STATUS_SAFE, 1)]), (FLT_CTRL, 0x40000001),
        (FLT_SAFE, setFields 0 [(FLT_SAFE_PHASE, phase), (FLT_SAFE_DUMP_DONE, phase / 3)]), (PWR_CH_PWR, 0xFFFFFFFF)]
      if held then mapArb e 0 fun a => { a with dump := true } else e)).fresh
    let w := fun (e : Engine) => wr (tickTo e (e.flt.safeAt + usUnits 20000)) FLT_SAFE_DUMP_ID (nextDumpId e)
    (∀ q ∈ [(0, false), (8, true), (0, true)], let e := s 2 q.1 q.2
      clocked e = true ∧ isSafe e = true ∧ rd e FLT_SAFE_PHASE = 2 ∧ pairRuns e 0 = true ∧
        dumpChan (w e) = (if q.2 then some 0 else none) ∧ (q.2 = true → dramDump (w e) 0 = (q.1 == 8))) ∧
    (let e := s 3 0 false
     isSafe e = true ∧ rd e FLT_SAFE_PHASE = 3 ∧ on e FLT_CTRL_AUTO_EXIT = true ∧ on e FLT_SAFE_DUMP_DONE = true ∧
       rd e FLT_SAFE_NO_AUTO = 0 ∧ inTrans e = false ∧ pairRuns e 0 = true) ∧
    recentNow (mk { up with flt := { up.flt with recent := [0] } }).fresh = 0 :: [] := by decide +kernel

/-- FirstErroredAccessIsRecorded: an access that completes with REG_ERR before and after another one. -/
theorem test_met_Errored :
    let s := mk up
    let t := traced s .ext 0xFFFFFF 0
    portUp s.fresh .ext = true ∧ accessError t 0xFFFFFF ≠ 0 ∧ rd t GC_REG_STATUS_CAUSE = 0 ∧
      rd (traced (mk (poke up [(GC_REG_STATUS, setFields 0 [(GC_REG_STATUS_CAUSE, 1)])])) .ext 0xFFFFFC 0) GC_REG_STATUS_CAUSE ≠ 0 ∧
      accessError (traced (mk up) .ext 0xFFFFFC 0) 0xFFFFFC ≠ 0 := by decide +kernel

/-- WritesTakeTheirFields: a discarded write, one of an enable that is set, refused, cleared and kept, and others. -/
theorem test_met_Writes :
    let e := fun (l : List (Nat × Word)) => poke up l
    let q := fun (x : Engine) (a : Nat) (data : Word) => match regDesc a with
      | some d => (discarded x .ext a 0 data (wanted d 0 (reg x a) data), isEnableReg a, isSeqReg d)
      | none => (some 99, false, false)
    (q (e []) PWR_BIN_NEXT 7).1 = some 2 ∧ lockMask (e []) .ext PWR_BIN_NEXT = 0 ∧
    q (e []) (CH_RG_CTRL 0) 0x80000000 = (none, true, false) ∧
    (let on' := enableOk (setReg (e []) (CH_REF_CTRL 0) (0x80000000 ||| reg up (CH_REF_CTRL 0))) (CH_REF_CTRL 0)
     let no := enableOk (setReg (e []) GC_ING_CTRL 0x80000000) GC_ING_CTRL
     on' = true ∧ no = false) ∧
    (clearRefused (e [(TEL_CTRL, 0x80000000)]) TEL_CTRL = false ∧
     clearRefused { e [(DIR_CTRL, 0x80000000), (GC_ING_CTRL, 0x80000000)] with pins := up.pins } DIR_CTRL = true) := by
  decide +kernel

/-- SequenceNumbersGuardStatus: a change, no change, and a SEQ at its last value. -/
theorem test_met_Seq :
    let e := poke up [(GC_ING_STATUS, 0xFF000000)]
    setFields (reg e (GC_ING_STATUS)) [(GC_ING_STATUS_YIELD_MISMATCH, 1)] ≠ reg e (GC_ING_STATUS) ∧
      setFields (reg e (GC_ING_STATUS)) [(GC_ING_STATUS_YIELD_MISMATCH, 0)] = reg e (GC_ING_STATUS) ∧
      wordField (reg e (GC_ING_STATUS)) 31 24 = 255 ∧ GC_ING_STATUS ≠ QOS_DEGRADED ∧
      ¬ (TEL_WM_STATUS 0 ≤ GC_ING_STATUS ∧ GC_ING_STATUS / 0x100000 = 8) := by decide +kernel

/-- StoringCommandsSetTheirBlocksGoing and RegisterCommandsActOnTheirRegisters: a port that takes an access, one that does
not, an access with REG_ERR, and every selector of a capture. -/
theorem test_met_Registers :
    (∀ p ∈ [RegPort.ext, .mc01, .mc23], portUp (mk up).fresh p = true) ∧
    portUp (mk engineReset).fresh .ext = false ∧
    accessError (traced (mk (poke up [(PWR_CH_PWR, 0)])) .ext (CH_TRN_CTRL 0) 0) (CH_TRN_CTRL 0) = 3 ∧
    (∀ a ∈ [GC_ING_CTRL, GC_GRIST_CTRL, DIR_CTRL, GC_SPARE_CTRL, GC_PAR_INJ, GC_DBG_CTRL, TEL_CTRL, TEL_WM_CFG 0,
      CH_ECC_CTRL 0, CH_ECC_MARK 0 0, CH_TRN_CMD 0, CH_I3C_CMD 0, CH_SCHED_CTRL 0, CH_REF_CTRL 0, CH_RG_CTRL 0,
      CH_TRN_CTRL 0, CH_SCRUB_CTRL 0, CH_ARB_PRIO 0, CH_ARB_CTRL 0, CRY_CTRL, QOS_CTRL, RING_CTRL, PWR_TB_SETC, PWR_CMD,
      MBX_CTRL, GC_WRW_SEL, FLT_HIST_POP, FLT_INJECT, GC_DBG_CORE, MBX_MB_D 0 0, MBX_MB_CMD 0, MBX_CORE_KICK,
      TEL_WM_STATUS 0, QOS_DEGRADED],
      (regDesc a).isSome = true ∧ accessError (traced (mk up) .ext a 0) a = 0) ∧
    (match regDesc (valueAddr FLT_STATUS) with | some d => isSeqReg d | none => false) = true ∧
    (let s := fun (sel : Nat) (pend : Bool) => mk (let e := putChan up 15 { chanReset with
          ecc := [⟨0, 0, 0, 0, 0, loc0, 0⟩] }
       putWrw e (wrwIx .ext) { getWrw e (wrwIx .ext) with sel := sel, pend := pend })
     (∀ sel ∈ [0, 0xFF, 0x10F, 0x110, 0x1FF, 0x400, 0x500, 0x51F, 0x1600, 0x1FFF, 0x2002],
       clocked (s sel true).fresh = true ∧ (getWrw (s sel true).fresh (wrwIx .ext)).pend = true ∧
         (getWrw (s sel true).fresh (wrwIx .ext)).sel = sel) ∧
     (getWrw (s 0 false).fresh (wrwIx .ext)).pend = false ∧ (getChan (s 0x10F true).fresh 15).ecc.length = 1) ∧
    (let x := { up with dbg := { up.dbg with badLanes := [(CH_TRN_CTRL 0, (1, reg up (CH_TRN_CTRL 0)))] } }
     badNow up (CH_TRN_CTRL 0) = 0 ∧ badNow x (CH_TRN_CTRL 0) ≠ 0 ∧ chanPowered x (CH_TRN_CTRL 0) = true) := by
  decide +kernel

/-- ResetsClocksAndSuppliesAct, clause by clause. -/
theorem test_met_Resets :
    let s := fun (f : Engine → Engine) => (mk (f up)).fresh
    let pins := fun (g : Pins → Pins) (e : Engine) => { e with pins := g e.pins }
    canLoseClock (s id) false = true ∧ canLoseClock (s fun _ => engineReset) true = false ∧
    offFromSleep (s fun e => poke e [(PWR_STATE, 0x40000000)]) = true ∧ offFromSleep (s id) = false ∧
    (let x := s fun _ => engineReset
     x.pins.porst = true ∧ x.pins.supply = true ∧ x.pins.engPresent = true ∧ x.pins.srst = false ∧ x.clk.lost = false) ∧
    (∀ a ∈ [false, true], ∀ b ∈ [false, true], let x := s (pins fun p => { p with porst := true, engPresent := a, srst := b })
      x.pins.porst = true ∧ x.pins.supply = true ∧ x.pins.engPresent = a ∧ x.pins.srst = b ∧ x.clk.lost = false) ∧
    (∀ b ∈ [false, true], let x := s (pins fun p => { p with srst := true, engPresent := b })
      x.pins.srst = true ∧ released { x with pins := { x.pins with srst := false } } = b) ∧
    (let x := s fun e => { e with clk := { e.clk with root := .starting } }
     x.clk.root = .starting ∧ released x = true) := by decide +kernel

/-- BringUpTakesItsStages: the boot mailbox's request with each outcome, three images, and the stages. -/
theorem test_met_BringUp :
    (let s := fun (ws : List Word) => (mk (poke up ([(MBX_MB_STATE 0, 0x40000000)] ++
       ws.zipIdx.map fun p => (MBX_MB_D 0 p.2, p.1)))).fresh
     let c := fun ws => messageOf (s ws) 0
     (∀ ws ∈ [[head 0x800 4, 2, 0, 7], [head 0x800 4, 0x80000002, 0, 7], [head 0x801 2, 0], [head 0x800 2, 2], [head 0x800 4, 2, 4, 7]],
       bootBox (s ws) 0 = true ∧ boxState (s ws) 0 = 2 ∧ (s ws).boot.stage = 1 ∧ pairRuns (s ws) 1 = true) ∧
     (c [head 0x801 2, 0]).op ≠ 0x800 ∧ (c [head 0x800 2, 2]).len < 3 ∧
     (let g := fun (ws : List Word) => stageChunk none 2 ((c ws).w 2).toNat (260 + payloadMax 2 + 3)
        (wordBytes (((c ws).words.take (c ws).len).drop 3))
      (g [head 0x800 4, 2, 4, 7]).isNone = true ∧ (g [head 0x800 4, 0x80000002, 0, 7]).map verifyStage = some none)) ∧
    (let e := { up with boot := { up.boot with images := [(1, 5, []), (2, 6, []), (3, 7, List.replicate 8 0)] } }
     bootImage e 1 = some (5, []) ∧ bootImage e 2 = some (6, []) ∧ bootImage e 3 = some (7, List.replicate 8 0) ∧
       e.cores.length = 2) ∧
    (let e := fun (k : Nat) (recs : List (Nat × Nat × Word)) => (mk { up with boot := { up.boot with stage := k, recs := recs } }).fresh
     (∀ k ∈ [2, 3, 12, 13], clocked (e k []) = true ∧ pairRuns (e k []) 0 = true ∧ (e k []).boot.failed = false ∧
       isSafe (e k []) = false) ∧
     bindsMb0 (e 2 []) = false ∧ badBootRec (e 2 []) = none ∧ (badBootRec (e 2 [(0xFFFF, 0, 0)])).isSome = true ∧
     (let x := (mk { poke up ((List.range 16).map fun n => (CH_PHY_SPD n, setFields 0 [(CH_PHY_SPD_MAX_RATE 0, 8000),
          (CH_PHY_SPD_TYPE 0, 1)])) with boot := { up.boot with stage := 5 } }).fresh
      x.boot.stage = 5 ∧ bootChans x ≠ [] ∧ (∀ n ∈ bootChans x, reg x (CH_PHY_SPD n) = reg x (CH_PHY_SPD ((bootChans x).headD 0))) ∧
        (∀ n ∈ bootChans x, binRate x.clk.bin ≤ rd x (CH_PHY_SPD_MAX_RATE n) ∧ rateFits x n = true)) ∧
     (match stageRun (e 12 []) [] false with | .done _ => true | _ => false) = true ∧
     (match stageRun (e 2 []) [] false with | .fail _ _ _ _ => true | _ => false) = true) := by decide +kernel

/-- EveryStepKeepsTheMachineSound and EveryCommandCompletesAndKeepsTheQueue: a sound state, and the states that idle. -/
theorem test_met_Machine : (mk up).Ok ∧ clocked (mk up).e = true ∧ (mk up).pending = [] ∧
    (let e := { engineReset with pins := { engineReset.pins with porst := false } }
     clocked (mk e).e = false ∧ (mk e).e.pins.supply = true ∧ (mk e).e.pins.porst = false) ∧
    clocked (mk engineReset).e = false ∧ (mk engineReset).e.pins.porst = true := by
  refine ⟨⟨?_, by decide⟩, by decide +kernel⟩
  simp [mk, Dram.ok]

/-- IngressWaitsForItsBlocks: an attempt of each kind, with a value and at an alias. -/
theorem test_met_IngressWaits :
    let t := fun (ing blk : Word) (b addr : Nat) => traced (mk (poke up [(GC_ING_CTRL, ing), (b, blk)])) .ext addr 0x80000000
    ∀ b ∈ [GC_GRIST_CTRL, CRY_CTRL, DIR_CTRL, QOS_CTRL], portUp (mk up).fresh .ext = true ∧
      (∀ al ∈ [0, 1, 3], let x := t 0 0 b (GC_ING_CTRL + 4 * al)
        valueAddr (GC_ING_CTRL + 4 * al) = GC_ING_CTRL ∧ on x GC_ING_CTRL_ING_EN = false ∧ on x ⟨b, 31, 31⟩ = false ∧
          (aliasApply (aliasOf (GC_ING_CTRL + 4 * al)) (reg x GC_ING_CTRL) 0x80000000).getLsbD 31 = true) ∧
      (∀ al ∈ [2, 3], let x := t 0x80000000 0x80000000 b (b + 4 * al)
        valueAddr (b + 4 * al) = b ∧ on x ⟨b, 31, 31⟩ = true ∧ on x GC_ING_CTRL_ING_EN = true ∧
          (aliasApply (aliasOf (b + 4 * al)) (reg x b) 0x80000000).getLsbD 31 = false) := by decide +kernel

end Sys2Proof.Tests
end

/-! ING_EN and the enables that it waits for (O54): what a write of an enable does when R105, R341, R369 or R395
refuses it. The enable stays, and the region's CFG_REJECT takes the attempt. -/

namespace Sys2Proof.Machine

/-! ## Fields of a word -/

/-- Bits `hi` to `lo` of a word with this field replaced are the new value's, the others the word's. -/
theorem getLsbD_setWordField (w : Word) {hi lo : Nat} (v i : Nat) (hlo : lo ≤ hi) (hhi : hi < 32) :
    (setWordField w hi lo v).getLsbD i = if lo ≤ i ∧ i ≤ hi then v.testBit (i - lo) else w.getLsbD i := by
  have hlow : w.toNat % 2 ^ lo < 2 ^ lo := Nat.mod_lt _ (Nat.two_pow_pos lo)
  have hmid : 2 ^ lo * (v % 2 ^ (hi + 1 - lo)) + w.toNat % 2 ^ lo < 2 ^ (hi + 1) := by
    have hv : v % 2 ^ (hi + 1 - lo) < 2 ^ (hi + 1 - lo) := Nat.mod_lt _ (Nat.two_pow_pos _)
    calc 2 ^ lo * (v % 2 ^ (hi + 1 - lo)) + w.toNat % 2 ^ lo
        < 2 ^ lo * (v % 2 ^ (hi + 1 - lo)) + 2 ^ lo := by omega
      _ = 2 ^ lo * (v % 2 ^ (hi + 1 - lo) + 1) := by ring
      _ ≤ 2 ^ lo * 2 ^ (hi + 1 - lo) := Nat.mul_le_mul_left _ hv
      _ = 2 ^ (hi + 1) := by rw [← Nat.pow_add]; congr 1; omega
  have hsum : w.toNat / 2 ^ (hi + 1) * 2 ^ (hi + 1) + v % 2 ^ (hi + 1 - lo) * 2 ^ lo + w.toNat % 2 ^ lo =
      2 ^ (hi + 1) * (w.toNat / 2 ^ (hi + 1)) + (2 ^ lo * (v % 2 ^ (hi + 1 - lo)) + w.toNat % 2 ^ lo) := by ring
  simp only [setWordField]
  rw [hsum, BitVec.getLsbD_ofNat, Nat.testBit_two_pow_mul_add _ hmid, Nat.testBit_two_pow_mul_add _ hlow,
    Nat.testBit_mod_two_pow, Nat.testBit_mod_two_pow, Nat.testBit_div_two_pow, ← BitVec.getLsbD, ← BitVec.getLsbD]
  rcases Nat.lt_or_ge i lo with h | h
  · simp [h, show i < 32 by omega, show i < hi + 1 by omega, show ¬ lo ≤ i by omega]
  rcases Nat.lt_or_ge hi i with h' | h'
  · rcases Nat.lt_or_ge i 32 with h32 | h32
    · simp [h32, show ¬ i < hi + 1 by omega, show ¬ i ≤ hi by omega, show i - (hi + 1) + (hi + 1) = i by omega]
    · simp [show ¬ i < 32 by omega, show ¬ i ≤ hi by omega, BitVec.getLsbD_of_ge w i h32]
  · simp [h, h', show i < 32 by omega, show i < hi + 1 by omega, show ¬ i < lo by omega,
      show i - lo < hi + 1 - lo by omega]

theorem testBit_wordField (w : Word) (hi lo j : Nat) :
    (wordField w hi lo).testBit j = (decide (j < hi + 1 - lo) && w.getLsbD (j + lo)) := by
  simp [wordField, Nat.testBit_mod_two_pow, Nat.testBit_div_two_pow, BitVec.getLsbD]

theorem wordField_setWordField_same (w : Word) {hi lo : Nat} (v : Nat) (hlo : lo ≤ hi) (hhi : hi < 32) :
    wordField (setWordField w hi lo v) hi lo = v % 2 ^ (hi + 1 - lo) := by
  refine Nat.eq_of_testBit_eq fun j => ?_
  rw [testBit_wordField, getLsbD_setWordField _ _ _ hlo hhi, Nat.testBit_mod_two_pow]
  by_cases h : j < hi + 1 - lo
  · simp [h, show j + lo ≤ hi by omega]
  · simp [h]

theorem wordField_setWordField_disjoint (w : Word) {hi lo hi' lo' : Nat} (v : Nat) (hlo : lo ≤ hi) (hhi : hi < 32)
    (h : hi' < lo ∨ hi < lo') : wordField (setWordField w hi lo v) hi' lo' = wordField w hi' lo' := by
  refine Nat.eq_of_testBit_eq fun j => ?_
  rw [testBit_wordField, testBit_wordField, getLsbD_setWordField _ _ _ hlo hhi]
  by_cases hj : j < hi' + 1 - lo'
  · rw [if_neg (by omega)]
  · simp [hj]

/-- A one-bit field at bit 31 is the top bit of its register. -/
theorem on_top (e : Engine) (a : Nat) : on e ⟨a, 31, 31⟩ = (reg e a).getLsbD 31 := by
  have hlt : wordField (reg e a) 31 31 < 2 := wordField_lt _ 31 31
  have hbit : (wordField (reg e a) 31 31).testBit 0 = (reg e a).getLsbD 31 := testBit_wordField _ 31 31 0
  rw [← hbit]
  simp only [on, rd]
  generalize wordField (reg e a) 31 31 = n at hlt
  interval_cases n <;> rfl

/-! ## Status updates and rejections -/

/-- A field below SEQ reads after a status update as the update has set it (R565). -/
theorem rd_sqSet (e : Engine) (r : Nat) (fs : List (Fld × Nat)) {hi : Nat} (lo : Nat) (h : hi < 24) :
    rd (sqSet e r fs) ⟨r, hi, lo⟩ = wordField (setFields (reg e r) fs) hi lo := by
  by_cases heq : setFields (reg e r) fs = reg e r
  · rw [sqSet_of_eq e r fs heq, heq, rd]
  · rw [rd, reg_sqSet_of_ne e r fs heq, wordField_setWordField_disjoint _ _ (by omega) (by omega) (.inl h)]

theorem sqSet_dbg (e : Engine) (a : Nat) (fs : List (Fld × Nat)) : (sqSet e a fs).dbg = e.dbg := by
  rw [sqSet_eq]

/-- The region whose CFG_REJECT register stands at `r` holds a rejection. -/
def holdRejection (r : Nat) (e : Engine) : Engine := { e with dbg := { e.dbg with rejHeld := r :: e.dbg.rejHeld } }

theorem holdRejection_regs (r : Nat) (e : Engine) : (holdRejection r e).regs = e.regs := rfl

theorem holdRejection_rejHeld (r : Nat) (e : Engine) : (holdRejection r e).dbg.rejHeld = r :: e.dbg.rejHeld := rfl

/-- A rejection that finds one recorded sets MULTI (R569). -/
theorem rejectIn_of_held {e : Engine} {r : Nat} (h : e.dbg.rejHeld.contains r = true) (p : RegPort) (a c : Nat) :
    rejectIn e r p a c = sqSet e r [(⟨r, 20, 20⟩, 1)] := if_pos h

/-- A rejection that finds none recorded is recorded itself (R569). -/
theorem rejectIn_of_clear {e : Engine} {r : Nat} (h : e.dbg.rejHeld.contains r = false) (p : RegPort) (a c : Nat) :
    rejectIn e r p a c = holdRejection r (sqSet e r
      [(⟨r, 23, 22⟩, c), (⟨r, 21, 21⟩, bit (isInternal p)), (⟨r, 17, 0⟩, rejectAddr a)]) :=
  if_neg (by rw [h]; exact Bool.false_ne_true)

theorem reg_rejectIn_ne (e : Engine) {r b : Nat} (p : RegPort) (a c : Nat) (h : b ≠ r) :
    reg (rejectIn e r p a c) b = reg e b := by
  cases hr : e.dbg.rejHeld.contains r
  · rw [rejectIn_of_clear hr, reg_congr (holdRejection_regs ..), reg_sqSet_ne e _ h]
  · rw [rejectIn_of_held hr, reg_sqSet_ne e _ h]

/-- After a rejection the region's register holds one. -/
theorem rejHeld_rejectIn_same (e : Engine) (r : Nat) (p : RegPort) (a c : Nat) :
    (rejectIn e r p a c).dbg.rejHeld.contains r = true := by
  cases hr : e.dbg.rejHeld.contains r
  · simp [rejectIn_of_clear hr, holdRejection_rejHeld]
  · rw [rejectIn_of_held hr, sqSet_dbg, hr]

theorem rejHeld_rejectIn_ne (e : Engine) {r b : Nat} (p : RegPort) (a c : Nat) (h : b ≠ r) :
    (rejectIn e r p a c).dbg.rejHeld.contains b = e.dbg.rejHeld.contains b := by
  cases hr : e.dbg.rejHeld.contains r
  · simp [rejectIn_of_clear hr, holdRejection_rejHeld, sqSet_dbg, h]
  · rw [rejectIn_of_held hr, sqSet_dbg]

/-- The first rejection leaves its address in ADDR. -/
theorem rd_addr_rejectIn_of_clear {e : Engine} {r : Nat} (h : e.dbg.rejHeld.contains r = false) (p : RegPort)
    {a : Nat} (c : Nat) (ha : a / 0x100000 ≠ 1) : rd (rejectIn e r p a c) ⟨r, 17, 0⟩ = a % 0x100000 / 4 := by
  rw [rejectIn_of_clear h, rd_congr (holdRejection_regs ..), rd_sqSet e r _ 0 (by omega)]
  simp only [setFields, rejectAddr, if_neg ha]
  rw [wordField_setWordField_same _ _ (by omega) (by omega)]
  exact Nat.mod_eq_of_lt (by omega)

/-- A further rejection leaves ADDR and sets MULTI. -/
theorem rd_addr_rejectIn_of_held {e : Engine} {r : Nat} (h : e.dbg.rejHeld.contains r = true) (p : RegPort)
    (a c : Nat) : rd (rejectIn e r p a c) ⟨r, 17, 0⟩ = rd e ⟨r, 17, 0⟩ := by
  rw [rejectIn_of_held h, rd_sqSet e r _ 0 (by omega)]
  simp only [setFields]
  rw [wordField_setWordField_disjoint _ _ (by omega) (by omega) (.inl (by omega)), rd]

theorem on_multi_rejectIn_of_held {e : Engine} {r : Nat} (h : e.dbg.rejHeld.contains r = true) (p : RegPort)
    (a c : Nat) : on (rejectIn e r p a c) ⟨r, 20, 20⟩ = true := by
  rw [rejectIn_of_held h, on, rd_sqSet e r _ 20 (by omega)]
  simp only [setFields]
  rw [wordField_setWordField_same _ _ (by omega) (by omega)]
  rfl

/-! ## Flagged attempts -/

/-- A rejection flags the attempt, where the region's register stands as it did before the write. -/
theorem flagged_rejectIn {t e : Engine} {r a : Nat} (h : e.dbg.rejHeld.contains r = t.dbg.rejHeld.contains r)
    (p : RegPort) (c : Nat) (ha : a / 0x100000 ≠ 1) : Flagged t (rejectIn e r p a c) r a where
  held := rejHeld_rejectIn_same e r p a c
  first ht := rd_addr_rejectIn_of_clear (h.trans ht) p c ha
  further ht := on_multi_rejectIn_of_held (h.trans ht) p a c

/-- The flag rests on the region's register and on whether it holds a rejection. -/
theorem Flagged.congr {t e e' : Engine} {r a : Nat} (hf : Flagged t e r a) (hreg : reg e' r = reg e r)
    (hheld : e'.dbg.rejHeld.contains r = e.dbg.rejHeld.contains r) : Flagged t e' r a where
  held := hheld.trans hf.held
  first ht := by rw [← hf.first ht, rd, rd, hreg]
  further ht := by rw [← hf.further ht, on, on, rd, rd, hreg]

/-- A flag outlasts every further rejection, of its own region or of another. -/
theorem Flagged.rejectIn {t e : Engine} {r a : Nat} (hf : Flagged t e r a) (r' : Nat) (p : RegPort) (b c : Nat) :
    Flagged t (rejectIn e r' p b c) r a := by
  by_cases h : r = r'
  · subst h
    exact { held := rejHeld_rejectIn_same e r p b c
            first := fun ht => (rd_addr_rejectIn_of_held hf.held p b c).trans (hf.first ht)
            further := fun _ => on_multi_rejectIn_of_held hf.held p b c }
  · exact hf.congr (reg_rejectIn_ne e p b c h) (rejHeld_rejectIn_ne e p b c h)

/-! ## A refused ING_EN -/

/-- The enables whose regions flag a refused ING_EN beside its own, each with its region's CFG_REJECT (R569). -/
def flaggingBlocks : List (Nat × Nat) :=
  [(CRY_CTRL, CRY_CFG_REJECT), (DIR_CTRL, DIR_CFG_REJECT), (QOS_CTRL, QOS_CFG_REJECT)]

/-- The rejection of ING_EN in the region of a block whose enable is 0 (R569). -/
def flagBlock (p : RegPort) (en r : Nat) (e : Engine) : Engine :=
  if on e ⟨en, 31, 31⟩ then e else rejectIn e r p GC_ING_CTRL 1

theorem ingRefused_eq (e : Engine) (p : RegPort) : ingRefused e p =
    flagBlock p QOS_CTRL QOS_CFG_REJECT (flagBlock p DIR_CTRL DIR_CFG_REJECT (flagBlock p CRY_CTRL CRY_CFG_REJECT e)) :=
  rfl

theorem reg_flagBlock_ne (p : RegPort) (en : Nat) {r b : Nat} (e : Engine) (h : b ≠ r) :
    reg (flagBlock p en r e) b = reg e b := by
  unfold flagBlock
  split
  · rfl
  · exact reg_rejectIn_ne e p _ _ h

theorem rejHeld_flagBlock_ne (p : RegPort) (en : Nat) {r b : Nat} (e : Engine) (h : b ≠ r) :
    (flagBlock p en r e).dbg.rejHeld.contains b = e.dbg.rejHeld.contains b := by
  unfold flagBlock
  split
  · rfl
  · exact rejHeld_rejectIn_ne e p _ _ h

theorem Flagged.flagBlock {t e : Engine} {r a : Nat} (hf : Flagged t e r a) (p : RegPort) (en r' : Nat) :
    Flagged t (flagBlock p en r' e) r a := by
  unfold Machine.flagBlock
  split
  · exact hf
  · exact hf.rejectIn r' p _ _

theorem flagged_flagBlock {t e : Engine} {en r : Nat} (hoff : (reg e en).getLsbD 31 = false)
    (h : e.dbg.rejHeld.contains r = t.dbg.rejHeld.contains r) (p : RegPort) :
    Flagged t (flagBlock p en r e) r GC_ING_CTRL := by
  rw [flagBlock, on_top, if_neg (by rw [hoff]; exact Bool.false_ne_true)]
  exact flagged_rejectIn h p 1 (by norm_num)

theorem reg_ingRefused_ne (e : Engine) (p : RegPort) {b : Nat}
    (h : b ∉ [CRY_CFG_REJECT, DIR_CFG_REJECT, QOS_CFG_REJECT]) : reg (ingRefused e p) b = reg e b := by
  simp only [List.mem_cons, List.not_mem_nil, or_false, not_or] at h
  obtain ⟨hcry, hdir, hqos⟩ := h
  rw [ingRefused_eq, reg_flagBlock_ne _ _ _ hqos, reg_flagBlock_ne _ _ _ hdir, reg_flagBlock_ne _ _ _ hcry]

theorem Flagged.ingRefused {t e : Engine} {r a : Nat} (hf : Flagged t e r a) (p : RegPort) :
    Flagged t (ingRefused e p) r a := by
  rw [ingRefused_eq]
  exact ((hf.flagBlock p _ _).flagBlock p _ _).flagBlock p _ _

/-- A refused ING_EN is flagged in the region of each block whose enable is 0. -/
theorem flagged_ingRefused {t e : Engine} (p : RegPort) {q : Nat × Nat}
    (hq : q ∈ flaggingBlocks) (hoff : (reg e q.1).getLsbD 31 = false)
    (hheld : e.dbg.rejHeld.contains q.2 = t.dbg.rejHeld.contains q.2) :
    Flagged t (ingRefused e p) q.2 GC_ING_CTRL := by
  simp only [flaggingBlocks, List.mem_cons, List.not_mem_nil, or_false] at hq
  rw [ingRefused_eq]
  rcases hq with rfl | rfl | rfl
  · exact ((flagged_flagBlock hoff hheld p).flagBlock p _ _).flagBlock p _ _
  · refine (flagged_flagBlock ?_ ?_ p).flagBlock p _ _
    · rwa [reg_flagBlock_ne _ _ _ (by decide)]
    · rwa [rejHeld_flagBlock_ne _ _ _ (by decide)]
  · refine flagged_flagBlock ?_ ?_ p
    · rwa [reg_flagBlock_ne _ _ _ (by decide), reg_flagBlock_ne _ _ _ (by decide)]
    · rwa [rejHeld_flagBlock_ne _ _ _ (by decide), rejHeld_flagBlock_ne _ _ _ (by decide)]

/-! ## Storing a register -/

/-- Storing a register leaves the rejections held as they were. -/
@[simp] theorem storeReg_rejHeld (e : Engine) (a : Nat) (w : Word) : (storeReg e a w).dbg.rejHeld = e.dbg.rejHeld := by
  unfold storeReg
  simp only
  split
  · rw [setReg_dbg]
  · split
    · rw [setReg_dbg, wr_dbg]
    · rw [setReg_dbg]

@[simp] theorem reg_storeReg_same (e : Engine) (a : Nat) (w : Word) : reg (storeReg e a w) a = w := by
  unfold storeReg
  simp only
  split
  · exact reg_setReg_same e a w
  · exact (reg_congr rfl a).trans (reg_setReg_same _ a w)

/-- No other register changes but GC_PAR_INJ, whose ARM the store may use up. -/
theorem reg_storeReg_ne (e : Engine) {a b : Nat} (w : Word) (h : b ≠ a) (hp : b ≠ GC_PAR_INJ) :
    reg (storeReg e a w) b = reg e b := by
  unfold storeReg
  simp only
  split
  · exact reg_setReg_ne e w h
  · refine (reg_congr rfl b).trans ((reg_setReg_ne _ w h).trans ?_)
    split
    · exact reg_wr_ne e _ _ hp
    · rfl

/-! ## A refused write of an enable -/

/-- The registers of ING_EN and of the enables that it waits for. -/
def ingressEnables : List Nat := [GC_ING_CTRL, GC_GRIST_CTRL, CRY_CTRL, DIR_CTRL, QOS_CTRL]

/-- The enable in bit 31 is an RW field of each of them. -/
theorem regDesc_ingressEnables {a : Nat} (h : a ∈ ingressEnables) :
    ∃ d, regDesc a = some d ∧ isSeqReg d = false ∧ (accMask [.rw, .rwd] d.fields).getLsbD 31 = true ∧
      (accMask [.rwd] d.fields).getLsbD 31 = false := by
  have hall : ∀ a ∈ ingressEnables, (regDesc a).any (fun d => !isSeqReg d &&
      (accMask [.rw, .rwd] d.fields).getLsbD 31 && !(accMask [.rwd] d.fields).getLsbD 31) = true := by decide
  obtain ⟨d, hd, hx⟩ := (Option.any_eq_true _ _).mp (hall a h)
  simp only [Bool.and_eq_true, Bool.not_eq_true'] at hx
  obtain ⟨⟨hseq, hrw⟩, hrwd⟩ := hx
  exact ⟨d, hd, hseq, hrw, hrwd⟩

theorem getLsbD_mixWord (m new old : Word) (i : Nat) :
    (mixWord m new old).getLsbD i = if m.getLsbD i then new.getLsbD i else old.getLsbD i := by
  rcases Nat.lt_or_ge i 32 with hi | hi
  · cases hm : m.getLsbD i <;> simp [mixWord, hm, hi, -BitVec.getLsbD_eq_getElem]
  · simp [BitVec.getLsbD_of_ge _ i hi]

/-- No lock keeps the enable of these registers: R340 locks other fields of CRY_CTRL. -/
theorem lockMask_ingressEnables (e : Engine) (p : RegPort) {a : Nat} (h : a ∈ ingressEnables) :
    (lockMask e p a).getLsbD 31 = false := by
  have hne : a ≠ GC_DBG_CTRL := by rintro rfl; exact absurd h (by decide)
  unfold lockMask
  split
  · decide
  · simp [hne]

/-- Neither a lock nor an enabled block keeps the enable's bit at its value. -/
theorem enable_not_kept {e : Engine} {a : Nat} {d : RegDesc} (p : RegPort) (ha : a ∈ ingressEnables)
    (hd : regDesc a = some d) :
    ((if d.blk.any (blkOn e (chIx a)) then accMask [.rwd] d.fields else 0) ||| lockMask e p a).getLsbD 31 = false := by
  obtain ⟨d', hd', -, -, hrwd⟩ := regDesc_ingressEnables ha
  obtain rfl : d = d' := Option.some.inj (hd.symm.trans hd')
  rw [BitVec.getLsbD_or, lockMask_ingressEnables e p ha, Bool.or_false]
  split
  · exact hrwd
  · rfl

/-- A write at one of them wants the enable bit that the access asks for. -/
theorem wanted_enable {a : Nat} {d : RegDesc} (ha : a ∈ ingressEnables) (hd : regDesc a = some d) (al : Nat)
    (old data : Word) : (wanted d al old data).getLsbD 31 = (aliasApply al old data).getLsbD 31 := by
  obtain ⟨d', hd', -, hrw, -⟩ := regDesc_ingressEnables ha
  obtain rfl : d = d' := Option.some.inj (hd.symm.trans hd')
  rw [wanted, getLsbD_mixWord, if_pos hrw]

/-- Whatever a stored write is rejected for, it is one rejection. -/
theorem exists_reject_cause (P Q : Prop) [Decidable P] [Decidable Q] (p : RegPort) (a : Nat) (x : Engine) :
    ∃ c, (if P then reject x p a 3 else if Q then reject x p a 0 else reject x p a 1) = reject x p a c :=
  ⟨if P then 3 else if Q then 0 else 1, by simp only [apply_ite (reject x p a)]⟩

theorem isEnableReg_ingressEnables : ∀ a ∈ ingressEnables, isEnableReg a = true := by decide

/-- The refused write of an enable: a rule of the field table discards it, or it is stored with the enable as it
was; either way the region takes a rejection, and nothing is set going. -/
theorem storeWrite_refused {e : Engine} {a : Nat} {d : RegDesc} (p : RegPort) (al : Nat) (data : Word)
    (ha : a ∈ ingressEnables) (hd : regDesc a = some d)
    (hask : (aliasApply al (reg e a) data).getLsbD 31 = !(reg e a).getLsbD 31)
    (hset : (reg e a).getLsbD 31 = false → ∀ w, enableOk (setReg e a w) a = false)
    (hclr : (reg e a).getLsbD 31 = true → clearRefused e a = true) :
    (∃ c, discarded e p a al data (wanted d al (reg e a) data) = some c ∧
      storeWrite e p a al d data = ⟨reject e p a c, false, false, false⟩) ∨
    ∃ w c, w.getLsbD 31 = (reg e a).getLsbD 31 ∧ storeWrite e p a al d data =
      ⟨if (reg e a).getLsbD 31 = false ∧ a = GC_ING_CTRL then ingRefused (reject (storeReg e a w) p a c) p
        else reject (storeReg e a w) p a c, false, false, true⟩ := by
  have hspare : a ≠ GC_SPARE_CTRL := by rintro rfl; exact absurd ha (by decide)
  cases hdis : discarded e p a al data (wanted d al (reg e a) data) with
  | some c => exact .inl ⟨c, rfl, by simp only [storeWrite, hdis]⟩
  | none =>
    right
    have hnew := getLsbD_mixWord
      ((if d.blk.any (blkOn e (chIx a)) then accMask [.rwd] d.fields else 0) ||| lockMask e p a)
      (reg e a) (wanted d al (reg e a) data) 31
    rw [if_neg (Bool.eq_false_iff.mp (enable_not_kept p ha hd)), wanted_enable ha hd, hask] at hnew
    have hcause := exists_reject_cause ((reg e a ^^^ wanted d al (reg e a) data) &&& lockMask e p a ≠ 0)
      ((reg e a ^^^ wanted d al (reg e a) data) &&&
        (if d.blk.any (blkOn e (chIx a)) then accMask [.rwd] d.fields else 0) ≠ 0) p a
    simp only [storeWrite, hdis, if_neg hspare, isEnableReg_ingressEnables a ha, Bool.true_and]
    generalize mixWord _ (reg e a) (wanted d al (reg e a) data) = new at hnew ⊢
    cases hold : (reg e a).getLsbD 31 with
    | false =>
      rw [hold] at hnew
      obtain ⟨c, hc⟩ := hcause (storeReg e a (setWordField new 31 31 0))
      refine ⟨setWordField new 31 31 0, c, getLsbD_setWordField new 0 31 (by omega) (by omega), ?_⟩
      simp only [← hc, hnew, hset hold, Bool.not_false, Bool.not_true, Bool.and_true, Bool.true_and, Bool.false_and,
        Bool.true_or, if_true, true_and]
    | true =>
      rw [hold] at hnew
      obtain ⟨c, hc⟩ := hcause (storeReg e a (setWordField new 31 31 1))
      refine ⟨setWordField new 31 31 1, c, getLsbD_setWordField new 1 31 (by omega) (by omega), ?_⟩
      simp only [← hc, hnew, hclr hold, Bool.not_false, Bool.not_true, Bool.and_true, Bool.false_and,
        Bool.and_false, Bool.false_or, if_true, Bool.false_eq_true, if_false, false_and, reduceCtorEq]

/-! ## What follows the write -/

/-- Writing buckets one after another changes the state of the QoS block only. -/
theorem foldl_putBucket_eq (f : Engine → Nat → Bucket) (ks : List Nat) (e : Engine) :
    ∃ q, ks.foldl (fun e k => putBucket e (k / 16) (k % 16) (f e k)) e = { e with qos := q } := by
  induction ks generalizing e with
  | nil => exact ⟨e.qos, rfl⟩
  | cons k ks ih =>
    obtain ⟨q, hq⟩ := ih (putBucket e (k / 16) (k % 16) (f e k))
    exact ⟨q, hq⟩

/-- COMMIT changes neither a register nor the rejections held. -/
theorem qosCommit_eq (e : Engine) : ∃ q, qosCommit e = { e with qos := q } := by
  obtain ⟨q, hq⟩ : ∃ q, refillAll e = { e with qos := q } :=
    foldl_putBucket_eq (fun e k => refill e (k / 16) (k % 16)) (List.range 128) e
  rw [qosCommit, hq]
  generalize hact : List.foldl _ _ (List.range 8) = act
  obtain ⟨q', hq'⟩ := foldl_putBucket_eq (fun e k =>
    { getBucket e (k / 16) (k % 16) with
      g := min (depth e (k / 16)) (getBucket e (k / 16) (k % 16)).g
      x := min (depth e (k / 16)) (getBucket e (k / 16) (k % 16)).x }) (List.range 128)
    { e with qos := { q with active := act } }
  exact ⟨{ q' with shedDue := true }, congrArg shedAsk hq'⟩

/-- A write that sets no enable sets nothing going in these registers, but QOS_CTRL's COMMIT still acts (R413). -/
theorem afterWrite_of_not_set {w : Wrote} {a : Nat} (p : RegPort) (al : Nat) (old data : Word) (ha : a ∈ ingressEnables)
    (hset : w.set = false) :
    afterWrite w p a al old data = w.e ∨
      a = QOS_CTRL ∧ (afterWrite w p a al old data = reject w.e p QOS_CTRL 2 ∨
        afterWrite w p a al old data = qosCommit w.e) := by
  simp only [ingressEnables, List.mem_cons, List.not_mem_nil, or_false] at ha
  rcases ha with rfl | rfl | rfl | rfl | rfl
  · left; simp [afterWrite, hset, GC_ING_CTRL]
  · left; simp [afterWrite, hset, GC_GRIST_CTRL]
  · left; simp [afterWrite, hset, CRY_CTRL]
  · left; simp [afterWrite, hset, DIR_CTRL]
  · by_cases hc : al = 0 ∧ data.getLsbD 30 = true
    · refine .inr ⟨rfl, ?_⟩
      cases hbad : commitBad w.e
      · exact .inr (by simp [afterWrite, afterQos, hset, QOS_CTRL, hc, hbad])
      · exact .inl (by simp [afterWrite, afterQos, hset, QOS_CTRL, hc, hbad])
    · exact .inl (by simp [afterWrite, afterQos, hset, QOS_CTRL, if_neg hc, -BitVec.getLsbD_eq_getElem])

/-- A refused write of the enable at `a` has taken `e` to `x`: the enable is as it was, and the attempt is flagged. -/
structure Refused (e x : Engine) (a : Nat) : Prop where
  enable : (reg x a).getLsbD 31 = (reg e a).getLsbD 31
  flagged : Flagged e x (rejectReg a) a

/-- Each of these registers lies in a region with a CFG_REJECT register of its own. -/
theorem ingressEnables_region {a : Nat} (ha : a ∈ ingressEnables) :
    a / 0x100000 ≠ 1 ∧ a ∉ [GC_CFG_REJECT, CRY_CFG_REJECT, DIR_CFG_REJECT, QOS_CFG_REJECT] ∧ a ≠ rejectReg a := by
  revert a
  decide

/-- A rejection after the enable's register is stored with its enable as it was, or is not stored, is a refusal. -/
theorem refused_reject {e x : Engine} {a : Nat} (ha : a ∈ ingressEnables)
    (hreg : (reg x a).getLsbD 31 = (reg e a).getLsbD 31) (hheld : x.dbg.rejHeld = e.dbg.rejHeld) (p : RegPort) (c : Nat) :
    Refused e (reject x p a c) a := by
  obtain ⟨hch, -, hne⟩ := ingressEnables_region ha
  exact ⟨by rw [reject, reg_rejectIn_ne _ _ _ _ hne, hreg], flagged_rejectIn (by rw [hheld]) p c hch⟩

theorem Refused.ingRefused {e x : Engine} {a : Nat} (h : Refused e x a) (ha : a ∈ ingressEnables) (p : RegPort) :
    Refused e (ingRefused x p) a := by
  obtain ⟨-, hrej, -⟩ := ingressEnables_region ha
  exact ⟨by rw [reg_ingRefused_ne x p (List.not_mem_of_not_mem_cons hrej), h.enable], h.flagged.ingRefused p⟩

/-- What still follows a refused write takes nothing of the refusal back. -/
theorem Refused.afterWrite {e : Engine} {w : Wrote} {a : Nat} (h : Refused e w.e a) (ha : a ∈ ingressEnables)
    (hset : w.set = false) (p : RegPort) (al : Nat) (old data : Word) :
    Refused e (afterWrite w p a al old data) a := by
  rcases afterWrite_of_not_set p al old data ha hset with hw | ⟨rfl, hw | hw⟩
  · rwa [hw]
  · rw [hw]
    exact ⟨by rw [reject, reg_rejectIn_ne _ _ _ _ (by decide), h.enable], h.flagged.rejectIn _ p _ _⟩
  · obtain ⟨q, hq⟩ := qosCommit_eq w.e
    rw [hw, hq]
    exact ⟨(congrArg (·.getLsbD 31) (reg_congr rfl _)).trans h.enable, h.flagged.congr (reg_congr rfl _) rfl⟩

/-! ## The write through the port -/

theorem special_ingressEnables (e : Engine) (p : RegPort) {a : Nat} (al : Nat) (data : Word) (ha : a ∈ ingressEnables) :
    special e p a al data = none := by
  simp only [ingressEnables, List.mem_cons, List.not_mem_nil, or_false] at ha
  rcases ha with rfl | rfl | rfl | rfl | rfl
  · simp [special, GC_ING_CTRL]
  · simp [special, GC_GRIST_CTRL]
  · simp [special, CRY_CTRL]
  · simp [special, DIR_CTRL]
  · simp [special, QOS_CTRL]

/-- A write of one of these registers is stored, and what it sets going follows where no rule discards it. -/
theorem regWrite_ingressEnables (e : Engine) (p : RegPort) {a : Nat} {d : RegDesc} (al : Nat) (data : Word)
    (ha : a ∈ ingressEnables) (hd : regDesc a = some d) :
    regWrite e p a al data =
      if (storeWrite e p a al d data).done then afterWrite (storeWrite e p a al d data) p a al (reg e a) data
      else (storeWrite e p a al d data).e := by
  obtain ⟨d', hd', hseq, -⟩ := regDesc_ingressEnables ha
  obtain rfl : d = d' := Option.some.inj (hd.symm.trans hd')
  simp only [regWrite, special_ingressEnables e p al data ha, hd, hseq, Bool.false_eq_true, if_false]

/-- R569: a write that would change an enable against its rule leaves it, and is flagged in the enable's region. -/
theorem regWrite_refused {e : Engine} {a : Nat} (p : RegPort) (al : Nat) (data : Word) (ha : a ∈ ingressEnables)
    (hask : (aliasApply al (reg e a) data).getLsbD 31 = !(reg e a).getLsbD 31)
    (hset : (reg e a).getLsbD 31 = false → ∀ w, enableOk (setReg e a w) a = false)
    (hclr : (reg e a).getLsbD 31 = true → clearRefused e a = true) :
    Refused e (regWrite e p a al data) a := by
  obtain ⟨d, hd, -⟩ := regDesc_ingressEnables ha
  rw [regWrite_ingressEnables e p al data ha hd]
  rcases storeWrite_refused p al data ha hd hask hset hclr with ⟨c, -, hw⟩ | ⟨w, c, hbit, hw⟩
  · simp only [hw, Bool.false_eq_true, if_false]
    exact refused_reject ha rfl rfl p c
  · have hx : Refused e (reject (storeReg e a w) p a c) a :=
      refused_reject ha (by rw [reg_storeReg_same, hbit]) (storeReg_rejHeld e a w) p c
    simp only [hw, if_true]
    refine Refused.afterWrite ?_ ha rfl p al _ data
    simp only
    split
    · exact hx.ingRefused ha p
    · exact hx

/-- These registers are none that a refused write of ING_EN changes before it flags their regions. -/
theorem flaggingBlocks_ne : ∀ q ∈ flaggingBlocks, q.1 ≠ GC_ING_CTRL ∧ q.1 ≠ GC_PAR_INJ ∧
    q.1 ≠ rejectReg GC_ING_CTRL ∧ q.2 ≠ rejectReg GC_ING_CTRL := by decide

/-- R569: a refused ING_EN is flagged too in the region of each block whose enable is 0. -/
theorem regWrite_ingEn_flagged {e : Engine} (p : RegPort) (al : Nat) (data : Word)
    (hoff : (reg e GC_ING_CTRL).getLsbD 31 = false) (hask : (aliasApply al (reg e GC_ING_CTRL) data).getLsbD 31 = true)
    (hbad : ∀ w, enableOk (setReg e GC_ING_CTRL w) GC_ING_CTRL = false) {q : Nat × Nat}
    (hq : q ∈ flaggingBlocks) (hen : (reg e q.1).getLsbD 31 = false) :
    Flagged e (regWrite e p GC_ING_CTRL al data) q.2 GC_ING_CTRL := by
  obtain ⟨hing, hinj, hcfg, hrej⟩ := flaggingBlocks_ne q hq
  have ha : GC_ING_CTRL ∈ ingressEnables := List.mem_cons_self
  obtain ⟨d, hd, -⟩ := regDesc_ingressEnables ha
  rw [regWrite_ingressEnables e p al data ha hd]
  rcases storeWrite_refused p al data ha hd (by rw [hask, hoff]; rfl) (fun _ => hbad)
    (fun hon => absurd (hoff.symm.trans hon) Bool.false_ne_true) with ⟨c, hc, -⟩ | ⟨w, c, -, hw⟩
  · simp [discarded, GC_ING_CTRL] at hc
  · simp only [hw, hoff, and_self, if_true]
    have hx : Flagged e (ingRefused (reject (storeReg e GC_ING_CTRL w) p GC_ING_CTRL c) p) q.2 GC_ING_CTRL := by
      refine flagged_ingRefused p hq ?_ ?_
      · rw [reject, reg_rejectIn_ne _ _ _ _ hcfg, reg_storeReg_ne _ _ hing hinj, hen]
      · rw [reject, rejHeld_rejectIn_ne _ _ _ _ hrej, storeReg_rejHeld]
    rcases afterWrite_of_not_set (w := ⟨_, false, false, true⟩) p al (reg e GC_ING_CTRL) data ha rfl
      with hafter | ⟨hqos, -⟩
    · rw [hafter]; exact hx
    · exact absurd hqos (by decide)

/-- These registers are mapped and always powered: an aligned access within one of their 16-byte windows completes. -/
theorem accessError_ingressEnables (e : Engine) {addr : Nat} (hal : addr % 4 = 0) (ha : valueAddr addr ∈ ingressEnables) :
    accessError e addr = 0 := by
  have hmap : ∀ a ∈ ingressEnables, mapped a = true := by decide
  have hch : chanOfAddr addr = none := by
    refine if_neg fun h => ?_
    obtain ⟨hch, -, -⟩ := ingressEnables_region ha
    simp only [valueAddr] at hch
    omega
  simp [accessError, hal, hmap _ ha, chanPowered, hch]

/-- A write access of one of these registers reaches it. -/
theorem registerWrite_ingressEnables {s : State} {rp : RegPort} {addr : BitVec 24} {a : Nat} (data : Word)
    (hup : portUp s.fresh rp = true) (hal : addr.toNat % 4 = 0) (hval : valueAddr addr.toNat = a)
    (ha : a ∈ ingressEnables) :
    AnswersWrite (.registerWrite rp addr data) s
      (regWrite (traced s rp addr.toNat data) rp a (aliasOf addr.toNat) data) := by
  subst hval
  have hacc := accessError_ingressEnables (traced s rp addr.toNat data) hal ha
  have hport : portWrite s.fresh rp addr.toNat data =
      regWrite (traced s rp addr.toNat data) rp (valueAddr addr.toNat) (aliasOf addr.toNat) data := by
    simp only [traced] at hacc ⊢
    simp [portWrite, hup, hacc]
  rw [← hport]
  rfl

/-! ## The obligation -/

/-- ING_EN fails its checks while the enable of a block is 0, whatever the write leaves in its register. -/
theorem enableOk_ingCtrl_of_block_off {e : Engine} {en : Nat} (h : en ∈ [GC_GRIST_CTRL, CRY_CTRL, DIR_CTRL, QOS_CTRL])
    (hoff : on e ⟨en, 31, 31⟩ = false) (w : Word) : enableOk (setReg e GC_ING_CTRL w) GC_ING_CTRL = false := by
  have hne : en ≠ GC_ING_CTRL := by rintro rfl; exact absurd h (by decide)
  have hx : on (setReg e GC_ING_CTRL w) ⟨en, 31, 31⟩ = false := by
    rw [on_top, reg_setReg_ne e w hne, ← on_top, hoff]
  simp only [List.mem_cons, List.not_mem_nil, or_false] at h
  rw [enableOk, if_pos rfl, ingOk]
  rcases h with rfl | rfl | rfl | rfl <;> simp [hx]

/-- R105, R341, R369, R395: ING_EN does not set while the enable of a block is 0. -/
theorem regWrite_ingEn_waits {e : Engine} (p : RegPort) (al : Nat) (data : Word) {q : Nat × Nat}
    (hq : q ∈ (GC_GRIST_CTRL, GC_CFG_REJECT) :: flaggingBlocks) (hing : on e GC_ING_CTRL_ING_EN = false)
    (hask : (aliasApply al (reg e GC_ING_CTRL) data).getLsbD 31 = true) (hoff : on e ⟨q.1, 31, 31⟩ = false) :
    on (regWrite e p GC_ING_CTRL al data) GC_ING_CTRL_ING_EN = false ∧
      Flagged e (regWrite e p GC_ING_CTRL al data) q.2 GC_ING_CTRL := by
  have hbad := enableOk_ingCtrl_of_block_off (List.mem_map_of_mem (f := Prod.fst) hq) hoff
  rw [on_top] at hing hoff
  obtain ⟨henable, hflagged⟩ := regWrite_refused p al data (List.mem_cons_self : GC_ING_CTRL ∈ ingressEnables)
    (by rw [hask, hing]; rfl) (fun _ => hbad) (fun hon => absurd (hing.symm.trans hon) Bool.false_ne_true)
  refine ⟨by rw [on_top, henable, hing], ?_⟩
  rcases List.mem_cons.mp hq with rfl | hq
  · exact hflagged
  · exact regWrite_ingEn_flagged p al data hing hask hbad hq hoff

/-- R105, R341, R369, R395: the enable of a block does not clear while ING_EN is 1. -/
theorem regWrite_block_stays {e : Engine} (p : RegPort) (al : Nat) (data : Word) {q : Nat × Nat}
    (hq : q ∈ (GC_GRIST_CTRL, GC_CFG_REJECT) :: flaggingBlocks) (hon : on e ⟨q.1, 31, 31⟩ = true)
    (hask : (aliasApply al (reg e q.1) data).getLsbD 31 = false) (hing : on e GC_ING_CTRL_ING_EN = true) :
    on (regWrite e p q.1 al data) ⟨q.1, 31, 31⟩ = true ∧ Flagged e (regWrite e p q.1 al data) q.2 q.1 := by
  have hblock : ∀ q ∈ (GC_GRIST_CTRL, GC_CFG_REJECT) :: flaggingBlocks,
      q.1 ∈ ingressEnables ∧ [GC_GRIST_CTRL, CRY_CTRL, DIR_CTRL, QOS_CTRL].contains q.1 = true ∧
        rejectReg q.1 = q.2 := by decide
  obtain ⟨ha, hcl, hrej⟩ := hblock q hq
  rw [on_top] at hon
  obtain ⟨henable, hflagged⟩ := regWrite_refused p al data ha (by rw [hask, hon]; rfl)
    (fun hoff => absurd (hoff.symm.trans hon) Bool.false_ne_true) (fun _ => by rw [clearRefused, hing, hcl]; rfl)
  exact ⟨by rw [on_top, henable, hon], hrej ▸ hflagged⟩

/-- Settles O54: the write reaches its register, which refuses it, whatever the port,
the address within its window and the value. -/
theorem ingressWaitsForItsBlocks : Obligations.IngressWaitsForItsBlocks := by
  unfold Obligations.IngressWaitsForItsBlocks
  intro s rp addr data hup hal t a asked q hq
  refine ⟨fun ha hing hask hoff => ?_, fun ha hon hask hing => ?_⟩
  · have hask' : (aliasApply (aliasOf addr.toNat) (reg t GC_ING_CTRL) data).getLsbD 31 = true := by rw [← ha]; exact hask
    rw [ha]
    exact ⟨_, registerWrite_ingressEnables data hup hal ha List.mem_cons_self,
      regWrite_ingEn_waits rp _ data hq hing hask' hoff⟩
  · have hask' : (aliasApply (aliasOf addr.toNat) (reg t q.1) data).getLsbD 31 = false := by rw [← ha]; exact hask
    have hmem : q.1 ∈ ingressEnables := List.mem_cons_of_mem _ (List.mem_map_of_mem (f := Prod.fst) hq)
    rw [ha]
    exact ⟨_, registerWrite_ingressEnables data hup hal ha hmem, regWrite_block_stays rp _ data hq hon hask' hing⟩

end Sys2Proof.Machine

/-! # A full history queue keeps the graver records (R537) -/

namespace Sys2Proof.Machine

/-! ## The record that a graver one displaces -/

/-- The oldest record at or below the class leaves the queue, and every other record keeps its place. -/
theorem displace_append_cons {c : FClass} {before after : List HistRec} {old : HistRec}
    (hbefore : ∀ x ∈ before, classCode c < classCode x.cls) (hold : classCode old.cls ≤ classCode c) :
    displace c (before ++ old :: after) = some (before ++ after) := by
  induction before with
  | nil => exact if_pos hold
  | cons x xs ih =>
    obtain ⟨hx, hxs⟩ := List.forall_mem_cons.mp hbefore
    rw [List.cons_append, displace, if_neg (Nat.not_le.mpr hx), ih hxs]
    rfl

/-- A queue of graver records only gives none up. -/
theorem displace_eq_none {c : FClass} {h : List HistRec} (hgraver : ∀ x ∈ h, classCode c < classCode x.cls) :
    displace c h = none := by
  induction h with
  | nil => rfl
  | cons x xs ih =>
    obtain ⟨hx, hxs⟩ := List.forall_mem_cons.mp hgraver
    rw [displace, if_neg (Nat.not_le.mpr hx), ih hxs]
    rfl

/-! ## What the queue does with a record -/

/-- The record that the collector forms of an event (R536). -/
def formedRec (e : Engine) (cls : FClass) (promoted : Bool) (src : Nat) (syn : Word) (ovf : Bool) : HistRec :=
  ⟨tbNs e, cls, promoted, ovf, src, e.flt.rseq % 256, syn⟩

/-- The engine that has counted a lost record and flagged it in FLT_STATUS (R537). -/
def countLost (e : Engine) : Engine := sqSet (inc e FLT_CNT_HIST_DROP) FLT_STATUS [(FLT_STATUS_OVF, 1)]

theorem reg_countLost_drop (e : Engine) : reg (countLost e) FLT_CNT_HIST_DROP = reg e FLT_CNT_HIST_DROP + 1 := by
  rw [countLost, reg_sqSet_ne _ _ (by decide), reg_inc, if_pos rfl]

theorem on_countLost_ovf (e : Engine) : on (countLost e) FLT_STATUS_OVF = true := by
  have hset : rd (countLost e) FLT_STATUS_OVF = 1 := by
    rw [countLost, rd_sqSet _ _ _ _ (by decide)]
    exact wordField_setWordField_same _ 1 (Nat.le_refl 3) (by decide)
  rw [on, hset]
  rfl

section
variable {e : Engine} {cls : FClass} (promoted : Bool) (src : Nat) (syn : Word)

/-- A queue with room appends the record, which takes the mark that is due (R536, R537). -/
theorem pushHist_of_room (hroom : e.flt.hist.length < 32) :
    pushHist e cls promoted src syn = { e with flt := { e.flt with
      rseq := (e.flt.rseq + 1) % 256
      hist := e.flt.hist ++ [formedRec e cls promoted src syn e.flt.ovfPend], ovfPend := false } } :=
  if_pos hroom

/-- A full queue that gives a record up appends the new one, which carries the mark. -/
theorem pushHist_of_displace {h : List HistRec} (hfull : e.flt.hist.length = 32)
    (hgives : displace cls e.flt.hist = some h) :
    pushHist e cls promoted src syn = { countLost e with flt := { e.flt with
      rseq := (e.flt.rseq + 1) % 256
      hist := h ++ [formedRec e cls promoted src syn true], ovfPend := false } } := by
  simp only [pushHist, hfull, hgives, Nat.lt_irrefl, if_false]
  rfl

/-- A full queue that gives none up stays as it is, and the mark is due. -/
theorem pushHist_of_none (hfull : e.flt.hist.length = 32) (hgives : displace cls e.flt.hist = none) :
    pushHist e cls promoted src syn = { countLost e with flt := { e.flt with
      rseq := (e.flt.rseq + 1) % 256
      ovfPend := true } } := by
  simp only [pushHist, hfull, hgives, Nat.lt_irrefl, if_false]
  rfl

/-- A record takes the next number, whether it is stored or lost (R536). -/
theorem pushHist_rseq (e : Engine) (cls : FClass) :
    (pushHist e cls promoted src syn).flt.rseq = (e.flt.rseq + 1) % 256 := by
  simp only [pushHist]
  split
  · rfl
  · split <;> rfl

end

/-- Settles O48: with room the record is appended; a full queue gives up its oldest record at or below the new
one's class, or none, and counts and flags the loss in either case. -/
theorem fullHistoryQueueKeepsTheGraverRecords : Obligations.FullHistoryQueueKeepsTheGraverRecords := by
  unfold Obligations.FullHistoryQueueKeepsTheGraverRecords
  intro e cls promoted src syn r p lost
  have hlost (hregs : p.regs = (countLost e).regs) : lost :=
    ⟨(reg_congr hregs _).trans (reg_countLost_drop e), (on_congr hregs _).trans (on_countLost_ovf e)⟩
  refine ⟨pushHist_rseq promoted src syn e cls, fun hroom => ?_,
    fun hfull => ⟨fun before old after hsplit hbefore hold => ?_, fun hgraver => ?_⟩⟩
  · have hp : p = _ := pushHist_of_room promoted src syn hroom
    rw [hp]
    exact ⟨rfl, rfl, rfl⟩
  · have hgives : displace cls e.flt.hist = some (before ++ after) := hsplit ▸ displace_append_cons hbefore hold
    have hp : p = _ := pushHist_of_displace promoted src syn hfull hgives
    refine ⟨hlost (by rw [hp]), true, ?_, fun _ => rfl, fun hv => absurd hv Bool.noConfusion⟩
    rw [hp]
    rfl
  · have hp : p = _ := pushHist_of_none promoted src syn hfull (displace_eq_none hgraver)
    refine ⟨?_, ?_, hlost (by rw [hp])⟩ <;> rw [hp]

end Sys2Proof.Machine

/-! # GC_REG_STATUS records the first errored access (R563) -/

namespace Sys2Proof.Machine

/-! ## An errored access -/

/-- R562 has three causes. -/
theorem accessError_le (e : Engine) (addr : Nat) : accessError e addr ≤ 3 := by
  unfold accessError
  split_ifs <;> decide

/-- The trace leaves the ports as they are. -/
theorem portUp_traceRec (e : Engine) (k loc : Nat) (v : Word) (p : RegPort) :
    portUp (traceRec e k loc v) p = portUp e p := by
  obtain ⟨t, h⟩ := traceRec_eq e k loc v
  rw [h]
  rfl

/-- A write access that completes with REG_ERR has no effect but its trace and its record. -/
theorem registerWrite_of_error {s : State} {rp : RegPort} {addr : BitVec 24} {data : Word}
    (hup : portUp s.fresh rp = true) (herr : accessError (traced s rp addr.toNat data) addr.toNat ≠ 0) :
    AnswersWrite (.registerWrite rp addr data) s (regError (traced s rp addr.toNat data) addr.toNat
      (accessError (traced s rp addr.toNat data) addr.toNat)) := by
  have hport : portWrite s.fresh rp addr.toNat data = regError (traced s rp addr.toNat data) addr.toNat
      (accessError (traced s rp addr.toNat data) addr.toNat) := by
    rw [portWrite, if_neg (by simp [hup])]
    exact if_pos herr
  rw [← hport]
  rfl

/-- A read access that completes with REG_ERR returns zero and is recorded the same way (R562). -/
theorem portRead_of_error {e : Engine} {p : RegPort} {addr : Nat} (hup : portUp e p = true)
    (herr : accessError e addr ≠ 0) :
    portRead e p addr = some (0, true, regError e addr (accessError e addr)) := by
  have hread : readAddr e p addr = (0, true) := if_pos herr
  rw [portRead, if_pos hup, hread]
  rfl

/-! ## The record -/

/-- While an access is recorded, another one changes nothing. -/
theorem regError_of_recorded {e : Engine} (h : rd e GC_REG_STATUS_CAUSE ≠ 0) (addr cause : Nat) :
    regError e addr cause = e := if_neg h

theorem reg_regError_ne (e : Engine) (addr cause : Nat) {b : Nat} (h : b ≠ GC_REG_STATUS) :
    reg (regError e addr cause) b = reg e b := by
  unfold regError
  split
  · exact reg_sqSet_ne _ _ h
  · rfl

section
variable {e : Engine} {addr cause : Nat}

/-- The first access writes its cause: ADDR, written after it, lies below. -/
theorem rd_cause_regError (hclear : rd e GC_REG_STATUS_CAUSE = 0) (hcause : cause ≤ 3) :
    rd (regError e addr cause) GC_REG_STATUS_CAUSE = cause := by
  rw [regError, if_pos hclear, rd_sqSet _ _ _ _ (by decide)]
  simp only [setFields]
  rw [wordField_setWordField_disjoint _ _ (by decide) (by decide) (.inr (by decide)),
    wordField_setWordField_same _ _ (by decide) (by decide)]
  exact Nat.mod_eq_of_lt (by omega)

/-- The first access writes the index of its word, which 22 bits hold for an address of 24. -/
theorem rd_addr_regError (hclear : rd e GC_REG_STATUS_CAUSE = 0) (haddr : addr < 2 ^ 24) :
    rd (regError e addr cause) GC_REG_STATUS_ADDR = addr / 4 := by
  rw [regError, if_pos hclear, rd_sqSet _ _ _ _ (by decide)]
  simp only [setFields]
  rw [wordField_setWordField_same _ _ (by decide) (by decide)]
  exact Nat.mod_eq_of_lt (by omega)

end

/-! ## The clear -/

/-- A field whose bits are all masked out reads zero. -/
theorem wordField_andNot_eq_zero {w m : Word} {hi lo : Nat} (h : ∀ i, lo ≤ i → i ≤ hi → m.getLsbD i = true) :
    wordField (w &&& ~~~m) hi lo = 0 := by
  refine Nat.eq_of_testBit_eq fun j => ?_
  rw [testBit_wordField, Nat.zero_testBit]
  by_cases hj : j < hi + 1 - lo
  · simp [h (j + lo) (by omega) (by omega)]
  · simp [hj]

/-- A write of the current SEQ clears the SQ fields of a status register with no rule of its own (R8). -/
theorem reg_seqWrite_hit {e : Engine} {a seq : Nat} (hdeg : a ≠ QOS_DEGRADED)
    (htel : ¬ (TEL_WM_STATUS 0 ≤ a ∧ a / 0x100000 = 8)) (hsched : a ≠ CH_SCHED_STATUS (chIx a))
    (hseq : wordField (reg e a) 31 24 = seq) : reg (seqWrite e a seq) a = reg e a &&& ~~~ (sqMask a) := by
  have hregs : (seqWrite e a seq).regs = (sqClear e a seq).regs := by
    rw [seqWrite, if_neg hdeg, if_neg htel]
    simp [hseq, hsched]
  rw [reg_congr hregs, reg_sqClear_of_eq e a seq hseq]

/-- CAUSE is one of the SQ fields that a clear of GC_REG_STATUS clears. -/
theorem sqMask_regStatus_cause : ∀ i, 22 ≤ i → i ≤ 23 → (sqMask GC_REG_STATUS).getLsbD i = true := by
  intro i hlo hhi
  interval_cases i <;> decide

theorem rd_cause_seqWrite {e : Engine} {seq : Nat} (hseq : wordField (reg e GC_REG_STATUS) 31 24 = seq) :
    rd (seqWrite e GC_REG_STATUS seq) GC_REG_STATUS_CAUSE = 0 := by
  rw [rd, reg_seqWrite_hit (by decide) (by decide) (by decide) hseq]
  exact wordField_andNot_eq_zero sqMask_regStatus_cause

/-- Settles O49: a write and a read that complete with REG_ERR leave the same record, the first one's; a clear of the
register empties it. -/
theorem firstErroredAccessIsRecorded : Obligations.FirstErroredAccessIsRecorded := by
  unfold Obligations.FirstErroredAccessIsRecorded
  intro s rp addr data hup t c
  have hup' : portUp t rp = true := (portUp_traceRec ..).trans hup
  refine ⟨fun herr => ?_, fun x seq hseq => rd_cause_seqWrite hseq.symm⟩
  have hwrite : AnswersWrite (.registerWrite rp addr data) s (regError t addr.toNat c) := registerWrite_of_error hup herr
  have hread : (portRead t rp addr.toNat).map (·.2.2) = some (regError t addr.toNat c) := by
    rw [portRead_of_error hup' herr]
    rfl
  refine ⟨fun hclear => ⟨_, hwrite, rd_cause_regError hclear (accessError_le t _), rd_addr_regError hclear addr.isLt,
    fun b hb => reg_regError_ne t _ _ fun heq => hb (heq ▸ List.mem_singleton_self _), hread⟩, fun hrecorded => ?_⟩
  rw [regError_of_recorded hrecorded] at hwrite hread
  exact ⟨hwrite, hread⟩

end Sys2Proof.Machine

/-! # Every step keeps the machine sound, and an empty queue lets time pass -/

namespace Sys2Proof.Machine

/-! ## Sending on the ring changes the ring's state only (R122) -/

theorem ownSent_eq (e : Engine) (m : RingMsg) : ∃ r, ownSent e m = { e with ring := r } := by
  unfold ownSent
  split
  · exact ⟨_, rfl⟩
  · split <;> exact ⟨_, rfl⟩

theorem ringStart_eq (e : Engine) (x : NextMsg) : ∃ r, ringStart e x = { e with ring := r } := by
  cases x with
  | transit t x => exact ⟨_, rfl⟩
  | own t x =>
    obtain ⟨r, hr⟩ := ownSent_eq (drive (mapRing e fun r => { r with
      own := r.own.erase x, ownAt := if ringGroup x.msg.typ true = 6 then some t else r.ownAt }) (stampSync e x.msg) t false)
      (stampSync e x.msg)
    exact ⟨r, hr⟩

theorem ringSendN_eq (n : Nat) (e : Engine) : ∃ r, ringSendN n e = { e with ring := r } := by
  induction n generalizing e with
  | zero => exact ⟨_, rfl⟩
  | succ n ih =>
    simp only [ringSendN]
    split
    · exact ⟨_, rfl⟩
    · split
      · next x _ _ =>
        obtain ⟨r, hr⟩ := ringStart_eq e x
        obtain ⟨r', hr'⟩ := ih (ringStart e x)
        exact ⟨r', by rw [hr', hr]⟩
      · exact ⟨_, rfl⟩

theorem ringPump_eq (e : Engine) : ∃ r, ringPump e = { e with ring := r } := by
  unfold ringPump
  split
  · exact ringSendN_eq _ e
  · exact ⟨_, rfl⟩

/-- Nothing is sent while the clocks of the core domain stand still. -/
theorem ringPump_of_not_clocked {e : Engine} (h : clocked e = false) : ringPump e = e := by
  unfold ringPump; simp [h]

/-! ## Idling -/

theorem not_clocked_of_root {e : Engine} (h : e.clk.root ≠ .locked) : clocked e = false := by
  simp [clocked, h]

/-- Idling moves the clock and the ring, and nothing else. -/
theorem idle_e_eq (s : State) : ∃ c r, s.idle.e = { s.e with clk := c, ring := r } := by
  obtain ⟨r, hr⟩ := ringPump_eq (idleTime s.fresh)
  have hidle : ∃ c, idleTime s.fresh = { s.fresh with clk := c } := by
    unfold idleTime
    split
    · exact ⟨_, rfl⟩
    · split <;> exact ⟨_, rfl⟩
  obtain ⟨c, hc⟩ := hidle
  exact ⟨c, r, by change ringPump (idleTime s.fresh) = _; rw [hr, hc]; rfl⟩

theorem idle_e_of_locked {s : State} (h : s.e.clk.root = .locked) : s.idle.e = ringPump (tick s.fresh 1) := by
  change ringPump (idleTime s.fresh) = _
  rw [idleTime, if_pos (show s.fresh.clk.root = .locked from h)]

/-- While the root stands still, an idle step passes one Kiln tick where AON is supplied. -/
theorem idle_e_of_not_locked {s : State} (h : s.e.clk.root ≠ .locked) :
    s.idle.e = if s.fresh.pins.supply && !s.fresh.pins.porst then kilnTicks s.fresh 1 else s.fresh := by
  change ringPump (idleTime s.fresh) = _
  rw [idleTime, if_neg (show s.fresh.clk.root ≠ .locked from h)]
  have hstill : ∀ e : Engine, e.clk.root = s.e.clk.root → ringPump e = e := fun e he =>
    ringPump_of_not_clocked (not_clocked_of_root (he ▸ h))
  split
  · exact hstill _ rfl
  · exact hstill _ rfl

/-- Settles O59: every command's outcome stores its slots in canonical form, and idling stores none. -/
theorem everyStepKeepsTheMachineSound : Obligations.EveryStepKeepsTheMachineSound := by
  unfold Obligations.EveryStepKeepsTheMachineSound
  intro s t hs hstep
  unfold step at hstep
  split at hstep
  · next c rest _ =>
    obtain ⟨u, hu, hok⟩ := exec_rec (P := fun s t => s.dram.ok → t.Ok) (fun s f h => run_ok s f h)
      (fun s f h => runWrite_ok s f h) (fun s lost f h => runLosing_ok s lost f h) c { s with pending := rest }
    obtain rfl : u = t := by simpa using hu.symm.trans hstep
    exact hok hs.dram
  · obtain rfl : s.idle = t := by simpa using hstep
    obtain ⟨c, r, he⟩ := idle_e_eq s
    exact ⟨hs.dram, by rw [he]; exact hs.store⟩

/-- Settles O57: a step unfolds to its front command. -/
theorem stepTakesTheFrontCommand : Obligations.StepTakesTheFrontCommand := by
  unfold Obligations.StepTakesTheFrontCommand
  intro s c rest
  rfl

/-- Settles O58: each shape of a command's outcome is a next state with the same queue; an idle step moves the clock
and the ring only. -/
theorem everyCommandCompletesAndKeepsTheQueue : Obligations.EveryCommandCompletesAndKeepsTheQueue := by
  unfold Obligations.EveryCommandCompletesAndKeepsTheQueue
  refine ⟨exec_rec (P := fun s t => t.pending = s.pending) run_pending runWrite_pending runLosing_pending, ?_⟩
  intro s hempty
  obtain ⟨c, r, he⟩ := idle_e_eq s
  refine ⟨s.idle, ?_, hempty, rfl, fun _ _ => by rw [he], idle_e_of_locked, ?_, ?_⟩
  · unfold step; rw [hempty]
  · intro hroot hsup hpor
    rw [idle_e_of_not_locked hroot, if_pos]
    simp [State.fresh, mapRing, hsup, hpor]
  · intro hroot hdown
    rw [idle_e_of_not_locked hroot, if_neg]
    rcases hdown with h | h <;> simp [State.fresh, mapRing, h]

/-- Settles O60: the register file, the DRAM and the queue are empty after reset. -/
theorem resetIsSound : Obligations.ResetIsSound := by
  unfold Obligations.ResetIsSound
  exact ⟨⟨rfl, rfl⟩, rfl, fun _ => rfl, rfl, rfl, rfl⟩

end Sys2Proof.Machine

/-! # The hotlist bounds the true counts (R418): the invariant of the Space-Saving algorithm -/

namespace Sys2Proof.Machine

/-! ## What one sample does to the list -/

/-- The lowest entry splits the list, and no entry has a lower COUNT. -/
theorem lowestEntry_eq_some {l : List HotEntry} {i : Nat} {h : HotEntry} (hl : lowestEntry l = some (i, h)) :
    (∃ before after, l = before ++ h :: after ∧ before.length = i) ∧ ∀ g ∈ l, h.count ≤ g.count := by
  induction l generalizing i h with
  | nil => simp [lowestEntry] at hl
  | cons x xs ih =>
    cases hxs : lowestEntry xs with
    | none =>
      obtain ⟨rfl, rfl⟩ : 0 = i ∧ x = h := by simpa [lowestEntry, hxs] using hl
      have hnil : xs = [] := by
        cases xs with
        | nil => rfl
        | cons y ys => simp only [lowestEntry] at hxs; split at hxs <;> (try split at hxs) <;> simp at hxs
      subst hnil
      exact ⟨⟨[], [], rfl, rfl⟩, by simp⟩
    | some q =>
      obtain ⟨j, g⟩ := q
      obtain ⟨⟨before, after, hsplit, hlen⟩, hmin⟩ := ih hxs
      simp only [lowestEntry, hxs] at hl
      split at hl
      · next hle =>
        obtain ⟨rfl, rfl⟩ : 0 = i ∧ x = h := by simpa using hl
        exact ⟨⟨[], xs, rfl, rfl⟩, List.forall_mem_cons.mpr ⟨le_refl _, fun y hy => hle.trans (hmin y hy)⟩⟩
      · next hlt =>
        obtain ⟨rfl, rfl⟩ : j + 1 = i ∧ g = h := by simpa using hl
        exact ⟨⟨x :: before, after, by simp [hsplit], by simp [hlen]⟩,
          List.forall_mem_cons.mpr ⟨by omega, hmin⟩⟩

theorem lowestEntry_ne_none {l : List HotEntry} (h : l ≠ []) : lowestEntry l ≠ none := by
  cases l with
  | nil => exact absurd rfl h
  | cons x xs => simp only [lowestEntry]; split <;> (try split) <;> simp

/-- A sample of a listed page raises its entry's COUNT in place. -/
theorem hotUpdate_of_listed {before after : List HotEntry} {h : HotEntry}
    (hnd : ((before ++ h :: after).map (·.page)).Nodup) :
    hotUpdate (before ++ h :: after) h.page = before ++ { h with count := min (h.count + 1) hotMax } :: after := by
  have hother : ∀ g ∈ before ++ after, g.page ≠ h.page := by
    intro g hg heq
    rw [List.map_append, List.map_cons, List.nodup_middle, List.nodup_cons, ← List.map_append] at hnd
    exact hnd.1 (heq ▸ List.mem_map_of_mem hg)
  have hkeep : ∀ t : List HotEntry, (∀ g ∈ t, g.page ≠ h.page) →
      t.map (fun g => if g.page = h.page then { g with count := min (g.count + 1) hotMax } else g) = t := fun t ht =>
    (List.map_congr_left (g := id) fun g hg => if_neg (ht g hg)).trans (List.map_id t)
  unfold hotUpdate
  rw [if_pos (by simp), List.map_append, List.map_cons, if_pos rfl,
    hkeep before fun g hg => hother g (List.mem_append_left _ hg),
    hkeep after fun g hg => hother g (List.mem_append_right _ hg)]

/-- A new page joins a list with room. -/
theorem hotUpdate_of_room {l : List HotEntry} {p : Nat} (hp : ∀ h ∈ l, h.page ≠ p) (hroom : l.length < 4096) :
    hotUpdate l p = l ++ [⟨p, 1, 0⟩] := by
  unfold hotUpdate
  rw [if_neg (by simpa using hp), if_pos hroom]

/-- A new page replaces the lowest entry of a full list. -/
theorem hotUpdate_of_full {l : List HotEntry} {p : Nat} (hp : ∀ h ∈ l, h.page ≠ p) (hfull : l.length = 4096) :
    ∃ before h after, l = before ++ h :: after ∧ (∀ g ∈ l, h.count ≤ g.count) ∧
      hotUpdate l p = before ++ ⟨p, min (h.count + 1) hotMax, h.count⟩ :: after := by
  obtain ⟨⟨i, h⟩, hlow⟩ := Option.ne_none_iff_exists'.mp (lowestEntry_ne_none (l := l) (by intro hn; simp [hn] at hfull))
  obtain ⟨⟨before, after, hsplit, hlen⟩, hmin⟩ := lowestEntry_eq_some hlow
  refine ⟨before, h, after, hsplit, hmin, ?_⟩
  unfold hotUpdate
  rw [if_neg (by simpa using hp), if_neg (by omega), hlow]
  simp [setNth, hsplit, ← hlen]

/-! ## The invariant -/

/-- What holds of the hotlist after the samples `ps`. -/
structure HotInv (ps : List Nat) (l : List HotEntry) : Prop where
  length : l.length ≤ 4096
  nodup : (l.map (·.page)).Nodup
  sum : (l.map (·.count)).sum = ps.length
  bound : ∀ h ∈ l, h.count ≤ ps.count h.page + h.err ∧ ps.count h.page ≤ h.count
  unlisted : ∀ p, (∀ h ∈ l, h.page ≠ p) → (l.length < 4096 → ps.count p = 0) ∧ ∀ h ∈ l, ps.count p ≤ h.count

/-- No COUNT is above the number of samples. -/
theorem HotInv.count_le {ps : List Nat} {l : List HotEntry} (hi : HotInv ps l) {h : HotEntry} (hh : h ∈ l) :
    h.count ≤ ps.length :=
  hi.sum ▸ List.single_le_sum (fun _ _ => Nat.zero_le _) _ (List.mem_map_of_mem hh)

theorem hotInv_nil : HotInv [] [] := ⟨by simp, by simp, by simp, by simp, by simp⟩

section
variable {ps : List Nat} {p : Nat} {before after : List HotEntry} {h : HotEntry}

/-- The samples of another page than the last. -/
theorem count_append_of_ne {q : Nat} (hq : q ≠ p) : (ps ++ [p]).count q = ps.count q := by
  simp [List.count_append, hq.symm]

theorem count_append_self : (ps ++ [p]).count p = ps.count p + 1 := by simp

/-- The entry of the sampled page counts it. -/
theorem HotInv.raise_listed (hi : HotInv ps (before ++ h :: after)) :
    HotInv (ps ++ [h.page]) (before ++ { h with count := h.count + 1 } :: after) := by
  have hnd := hi.nodup
  rw [List.map_append, List.map_cons, List.nodup_middle, List.nodup_cons, ← List.map_append] at hnd
  have hother : ∀ g ∈ before ++ after, g.page ≠ h.page := fun g hg heq => hnd.1 (heq ▸ List.mem_map_of_mem hg)
  have hmem : ∀ g, g ∈ before ++ after → g ∈ before ++ h :: after := by simp; tauto
  refine ⟨by simpa using hi.length, by simpa using hi.nodup, ?_, ?_, ?_⟩
  · have := hi.sum; simp at this ⊢; omega
  · intro g hg
    obtain rfl | hg : g = { h with count := h.count + 1 } ∨ g ∈ before ++ after := by simpa [or_left_comm] using hg
    · have := hi.bound h (by simp)
      dsimp only
      rw [count_append_self]
      omega
    · rw [count_append_of_ne (hother g hg)]
      exact hi.bound g (hmem g hg)
  · intro q hq
    have hqh : q ≠ h.page := fun he => hq { h with count := h.count + 1 } (by simp) he.symm
    have hun := hi.unlisted q (by
      intro g hg
      obtain rfl | hg : g = h ∨ g ∈ before ++ after := by simpa [or_left_comm] using hg
      · exact hqh.symm
      · exact hq g (by simp at hg ⊢; tauto))
    rw [count_append_of_ne hqh]
    refine ⟨fun hl => hun.1 (by simpa using hl), fun g hg => ?_⟩
    obtain rfl | hg : g = { h with count := h.count + 1 } ∨ g ∈ before ++ after := by simpa [or_left_comm] using hg
    · exact (hun.2 h (by simp)).trans (Nat.le_succ _)
    · exact hun.2 g (hmem g hg)

/-- A new page in a list with room. -/
theorem HotInv.append_new {l : List HotEntry} (hi : HotInv ps l) (hp : ∀ h ∈ l, h.page ≠ p) (hroom : l.length < 4096) :
    HotInv (ps ++ [p]) (l ++ [⟨p, 1, 0⟩]) := by
  have hzero : ps.count p = 0 := (hi.unlisted p hp).1 hroom
  refine ⟨by simp; omega, ?_, by simp [hi.sum], ?_, ?_⟩
  · rw [List.map_append, List.nodup_append_comm]
    simpa using ⟨fun g hg => hp g hg, hi.nodup⟩
  · intro g hg
    obtain hg | rfl : g ∈ l ∨ g = ⟨p, 1, 0⟩ := by simpa using hg
    · rw [count_append_of_ne (hp g hg)]; exact hi.bound g hg
    · simp [hzero]
  · intro q hq
    have hqp : q ≠ p := fun he => hq ⟨p, 1, 0⟩ (by simp) he.symm
    have hun := hi.unlisted q fun g hg => hq g (by simp [hg])
    rw [count_append_of_ne hqp, hun.1 hroom]
    exact ⟨fun _ => rfl, fun _ _ => Nat.zero_le _⟩

/-- A new page takes the lowest entry of a full list: its COUNT bounds what the page may have had. -/
theorem HotInv.replace_lowest (hi : HotInv ps (before ++ h :: after)) (hp : ∀ g ∈ before ++ h :: after, g.page ≠ p)
    (hfull : (before ++ h :: after).length = 4096) (hmin : ∀ g ∈ before ++ h :: after, h.count ≤ g.count) :
    HotInv (ps ++ [p]) (before ++ ⟨p, h.count + 1, h.count⟩ :: after) := by
  have hmem : ∀ g, g ∈ before ++ after → g ∈ before ++ h :: after := by simp; tauto
  have hlen : (before ++ (⟨p, h.count + 1, h.count⟩ : HotEntry) :: after).length = 4096 := by simpa using hfull
  refine ⟨hlen.le, ?_, ?_, ?_, ?_⟩
  · have hnd := hi.nodup
    rw [List.map_append, List.map_cons, List.nodup_middle, List.nodup_cons, ← List.map_append] at hnd ⊢
    refine ⟨fun hin => ?_, hnd.2⟩
    obtain ⟨g, hg, heq⟩ := List.mem_map.mp hin
    exact hp g (hmem g hg) heq
  · have := hi.sum; simp at this ⊢; omega
  · intro g hg
    obtain rfl | hg : g = ⟨p, h.count + 1, h.count⟩ ∨ g ∈ before ++ after := by simpa [or_left_comm] using hg
    · have := (hi.unlisted p hp).2 h (by simp)
      dsimp only
      rw [count_append_self]
      omega
    · rw [count_append_of_ne (hp g (hmem g hg))]
      exact hi.bound g (hmem g hg)
  · intro q hq
    have hqp : q ≠ p := fun he => hq ⟨p, h.count + 1, h.count⟩ (by simp) he.symm
    rw [count_append_of_ne hqp]
    refine ⟨fun hl => absurd hl (by omega), fun g hg => ?_⟩
    have hle : ps.count q ≤ h.count := by
      by_cases hqh : q = h.page
      · exact hqh ▸ (hi.bound h (by simp)).2
      · refine (hi.unlisted q fun g hg => ?_).2 h (by simp)
        obtain rfl | hg : g = h ∨ g ∈ before ++ after := by simpa [or_left_comm] using hg
        · exact fun he => hqh he.symm
        · exact hq g (by simp at hg ⊢; tauto)
    obtain rfl | hg : g = ⟨p, h.count + 1, h.count⟩ ∨ g ∈ before ++ after := by simpa [or_left_comm] using hg
    · exact hle.trans (Nat.le_succ _)
    · exact hle.trans (hmin g (hmem g hg))

end

/-- One more sample keeps the invariant, as long as no COUNT can saturate. -/
theorem HotInv.hotUpdate {ps : List Nat} {l : List HotEntry} (hi : HotInv ps l) (p : Nat) (hlen : ps.length < hotMax) :
    HotInv (ps ++ [p]) (hotUpdate l p) := by
  by_cases hp : ∃ h ∈ l, h.page = p
  · obtain ⟨h, hh, rfl⟩ := hp
    obtain ⟨before, after, rfl⟩ := List.append_of_mem hh
    rw [hotUpdate_of_listed hi.nodup, min_eq_left (by have := hi.count_le hh; omega)]
    exact hi.raise_listed
  · have hp : ∀ h ∈ l, h.page ≠ p := fun h hh he => hp ⟨h, hh, he⟩
    rcases hi.length.lt_or_eq with hroom | hfull
    · rw [hotUpdate_of_room hp hroom]
      exact hi.append_new hp hroom
    · obtain ⟨before, h, after, rfl, hmin, heq⟩ := hotUpdate_of_full hp hfull
      rw [heq, min_eq_left (by have := hi.count_le (h := h) (by simp); omega)]
      exact hi.replace_lowest hp hfull hmin

theorem hotInv_foldl (ps : List Nat) (hlen : ps.length < 2 ^ 24) : HotInv ps (ps.foldl hotUpdate []) := by
  induction ps using List.reverseRecOn with
  | nil => exact hotInv_nil
  | append_singleton ps p ih =>
    rw [List.foldl_append]
    have hps : ps.length < hotMax := by simp [hotMax] at hlen ⊢; omega
    exact (ih (by simp at hlen ⊢; omega)).hotUpdate p hps

/-- A page with more than its share of the samples is listed. -/
theorem HotInv.listed {ps : List Nat} {l : List HotEntry} (hi : HotInv ps l) {p : Nat}
    (hp : ps.length / 4096 < ps.count p) : ∃ h ∈ l, h.page = p := by
  by_contra hnone
  have hun := hi.unlisted p fun h hh he => hnone ⟨h, hh, he⟩
  rcases hi.length.lt_or_eq with hroom | hfull
  · rw [hun.1 hroom] at hp; omega
  · have hsum : (l.map (·.count)).length • ps.count p ≤ (l.map (·.count)).sum :=
      List.card_nsmul_le_sum _ _ (by simpa using hun.2)
    rw [hi.sum, List.length_map, hfull, smul_eq_mul] at hsum
    omega

/-- Settles O33, by the invariant of Space-Saving: the COUNTs add up to the number of samples, and no unlisted page has
more samples than the lowest COUNT. -/
theorem hotlistBoundsTheTrueCount : Obligations.HotlistBoundsTheTrueCount := by
  unfold Obligations.HotlistBoundsTheTrueCount
  intro ps hlen
  have hi := hotInv_foldl ps hlen
  exact ⟨hi.length, hi.nodup, hi.bound, fun p hp => hi.listed hp⟩

end Sys2Proof.Machine

/-! # A ring burst is received as exactly its message (R119, R120) -/

namespace Sys2Proof.Machine

/-! ## The header words -/

/-- The first header word, as a number. -/
def ringHead0 (m : RingMsg) : Nat :=
  m.typ * 8192 + m.src * 1024 + m.dst * 128 + (if m.bcast then 64 else 0) + m.payload.length

/-- The second header word, as a number. -/
def ringHead1 (m : RingMsg) : Nat := m.seq * 256 + m.hops * 32

/-- The words of a burst before its CRC. -/
def ringBody (m : RingMsg) : List (BitVec 16) :=
  BitVec.ofNat 16 (ringHead0 m) :: BitVec.ofNat 16 (ringHead1 m) :: m.payload

theorem ringBurst_eq (m : RingMsg) : ringBurst m = ringBody m ++ [ringCrc (ringBody m)] := rfl

theorem length_ringBody (m : RingMsg) : (ringBody m).length = m.payload.length + 2 := rfl

theorem hfield_ofNat {n : Nat} (hn : n < 65536) (hi lo : Nat) :
    hfield (BitVec.ofNat 16 n) hi lo = n / 2 ^ lo % 2 ^ (hi + 1 - lo) := by
  rw [hfield, BitVec.toNat_ofNat, Nat.mod_eq_of_lt hn]

section
variable {m : RingMsg} (hm : m.Fits)
include hm

theorem ringHead0_lt : ringHead0 m < 65536 := by
  obtain ⟨htyp, hsrc, hdst, -, -, hlen⟩ := hm
  unfold ringHead0
  split <;> omega

theorem ringHead1_lt : ringHead1 m < 65536 := by
  obtain ⟨-, -, -, hseq, hhops, -⟩ := hm
  unfold ringHead1
  omega

/-- Each field of the first header word is read back. -/
theorem hfield_ringHead0 :
    hfield (BitVec.ofNat 16 (ringHead0 m)) 15 13 = m.typ ∧ hfield (BitVec.ofNat 16 (ringHead0 m)) 12 10 = m.src ∧
    hfield (BitVec.ofNat 16 (ringHead0 m)) 9 7 = m.dst ∧
    (hfield (BitVec.ofNat 16 (ringHead0 m)) 6 6 == 1) = m.bcast ∧
    hfield (BitVec.ofNat 16 (ringHead0 m)) 5 0 = m.payload.length := by
  simp only [hfield_ofNat (ringHead0_lt hm)]
  obtain ⟨htyp, hsrc, hdst, -, -, hlen⟩ := hm
  unfold ringHead0
  cases m.bcast <;> simp <;> omega

/-- Each field of the second header word is read back. -/
theorem hfield_ringHead1 :
    hfield (BitVec.ofNat 16 (ringHead1 m)) 15 8 = m.seq ∧ hfield (BitVec.ofNat 16 (ringHead1 m)) 7 5 = m.hops := by
  simp only [hfield_ofNat (ringHead1_lt hm)]
  obtain ⟨-, -, -, hseq, hhops, -⟩ := hm
  unfold ringHead1
  omega

/-! ## The burst -/

theorem ringMsgOf_ringBurst : ringMsgOf (ringBurst m) = m := by
  obtain ⟨htyp, hsrc, hdst, hbcast, hlen⟩ := hfield_ringHead0 hm
  obtain ⟨hseq, hhops⟩ := hfield_ringHead1 hm
  simp [ringMsgOf, ringBurst_eq, ringBody, nth, htyp, hsrc, hdst, hbcast, hlen, hseq, hhops]

theorem takeBurst_ringBurst (e : Engine) :
    takeBurst e (ringBurst m) = if typeGood m = true then takeMsg e m else ringFlag e RING_STATUS_BAD_TYPE := by
  obtain ⟨-, -, -, -, hlen⟩ := hfield_ringHead0 hm
  have hhead : (ringBurst m).headD 0 = BitVec.ofNat 16 (ringHead0 m) := rfl
  have hcrc : nth (ringBurst m) (m.payload.length + 2) 0 = ringCrc ((ringBurst m).take (m.payload.length + 2)) := by
    rw [ringBurst_eq, ← length_ringBody, List.take_left]
    simp [nth]
  have hroom : ¬ (m.payload.length > 32 ∨ (ringBurst m).length < m.payload.length + 3) := by
    obtain ⟨-, -, -, -, -, hpay⟩ := hm
    rw [ringBurst_eq, List.length_append, length_ringBody, List.length_singleton]
    omega
  unfold takeBurst
  simp only [hhead, hlen]
  rw [if_neg hroom, if_neg (not_not.mpr hcrc), ringMsgOf_ringBurst hm]

end

/-- Settles O6: the header words hold each field in its own bits, and LEN and the CRC are those of the message. -/
theorem ringBurstIsReceivedAsItsMessage : Obligations.RingBurstIsReceivedAsItsMessage := by
  unfold Obligations.RingBurstIsReceivedAsItsMessage
  exact fun e m hm => ⟨ringMsgOf_ringBurst hm, takeBurst_ringBurst hm e⟩

end Sys2Proof.Machine

/-! # The code of a stored slot (R252–R257): symbols, syndromes and what a decode finds -/

namespace Sys2Proof.Machine

/-! ## Sums of numbers whose bits are apart -/

/-- No bit is set in both. -/
def Apart (a b : Nat) : Prop := ∀ i, ¬ (a.testBit i = true ∧ b.testBit i = true)

theorem Apart.half {a b : Nat} (h : Apart a b) : Apart (a / 2) (b / 2) := fun i hi =>
  h (i + 1) (by simpa only [Nat.testBit_add_one] using hi)

/-- The sum of such numbers has the bits of both. -/
theorem testBit_add_of_apart {a b : Nat} (h : Apart a b) (i : Nat) : (a + b).testBit i = (a.testBit i || b.testBit i) := by
  induction i generalizing a b with
  | zero =>
    have h0 := h 0
    simp only [Nat.testBit_zero, decide_eq_true_eq, ← Bool.decide_or, decide_eq_decide] at h0 ⊢
    omega
  | succ i ih =>
    have h0 := h 0
    simp only [Nat.testBit_zero, decide_eq_true_eq] at h0
    rw [Nat.testBit_add_one, Nat.testBit_add_one, Nat.testBit_add_one, ← ih h.half]
    congr 1
    omega

/-- The sum of pairwise such numbers has the bits of each. -/
theorem testBit_foldl_add {f : Nat → Nat} {n : Nat} (h : ∀ u < n, ∀ v < u, Apart (f v) (f u)) (i : Nat) :
    ((List.range n).foldl (fun a u => a + f u) 0).testBit i = true ↔ ∃ u < n, (f u).testBit i = true := by
  induction n generalizing i with
  | zero => simp
  | succ n ih =>
    have ih := ih fun u hu => h u (by omega)
    have hap : Apart ((List.range n).foldl (fun a u => a + f u) 0) (f n) := fun j hj => by
      obtain ⟨u, hu, hbit⟩ := (ih j).mp hj.1
      exact h n (by omega) u hu j ⟨hbit, hj.2⟩
    rw [List.range_succ, List.foldl_append, List.foldl_cons, List.foldl_nil, testBit_add_of_apart hap, Bool.or_eq_true, ih]
    constructor
    · rintro (⟨u, hu, hb⟩ | hb)
      · exact ⟨u, by omega, hb⟩
      · exact ⟨n, by omega, hb⟩
    · rintro ⟨u, hu, hb⟩
      obtain rfl | hu : u = n ∨ u < n := by omega
      · exact .inr hb
      · exact .inl ⟨u, hu, hb⟩

/-! ## Symbols by their bits (R252, R253) -/

/-- Two places of a slot in one bit are the same nibble's same bit. -/
theorem nibblePos_inj {d d' t t' j j' : Nat} (hd : d < 10) (hd' : d' < 10) (ht : t < 16) (ht' : t' < 16) (hj : j < 4)
    (hj' : j' < 4) (h : nibblePos d t + j = nibblePos d' t' + j') : d = d' ∧ t = t' ∧ j = j' := by
  unfold nibblePos at h
  split at h <;> split at h <;> omega

theorem nibblePos_lt {d t : Nat} (ht : t < 16) : nibblePos d t + 4 ≤ 640 := by
  unfold nibblePos
  split <;> omega

theorem nibbleOf_eq (s d t : Nat) : nibbleOf s d t = s / 2 ^ nibblePos d t % 2 ^ 4 := by
  unfold nibbleOf nibblePos
  split <;> rfl

theorem testBit_nibbleOf (s d t j : Nat) : (nibbleOf s d t).testBit j = (decide (j < 4) && s.testBit (nibblePos d t + j)) := by
  rw [nibbleOf_eq, Nat.testBit_mod_two_pow, Nat.testBit_div_two_pow, Nat.add_comm]

theorem nibbleOf_lt (s d t : Nat) : nibbleOf s d t < 2 ^ 4 := by
  rw [nibbleOf_eq]; exact Nat.mod_lt _ (by decide)

/-- Bit `i` of a symbol is bit `i % 4` of the nibble of its beat. -/
theorem testBit_symOf (s q d i : Nat) :
    (symOf s q d).testBit i = (decide (i < 16) && s.testBit (nibblePos d (4 * q + i / 4) + i % 4)) := by
  have hform : symOf s q d = 2 ^ 4 * (2 ^ 4 * (2 ^ 4 * nibbleOf s d (4 * q + 3) + nibbleOf s d (4 * q + 2)) +
      nibbleOf s d (4 * q + 1)) + nibbleOf s d (4 * q) := by unfold symOf; omega
  rw [hform, Nat.testBit_two_pow_mul_add _ (nibbleOf_lt ..), Nat.testBit_two_pow_mul_add _ (nibbleOf_lt ..),
    Nat.testBit_two_pow_mul_add _ (nibbleOf_lt ..)]
  simp only [testBit_nibbleOf]
  by_cases h4 : i < 4
  · simp [h4, show i < 16 by omega, show i / 4 = 0 by omega, show i % 4 = i by omega]
  by_cases h8 : i < 8
  · simp [h4, show i - 4 < 4 by omega, show i < 16 by omega, show i / 4 = 1 by omega, show i % 4 = i - 4 by omega]
  by_cases h12 : i < 12
  · simp [h4, show ¬ i - 4 < 4 by omega, show i - 4 - 4 < 4 by omega, show i < 16 by omega, show i / 4 = 2 by omega,
      show i % 4 = i - 4 - 4 by omega]
  by_cases h16 : i < 16
  · simp [h4, show ¬ i - 4 < 4 by omega, show ¬ i - 4 - 4 < 4 by omega, show i - 4 - 4 - 4 < 4 by omega, h16,
      show i / 4 = 3 by omega, show i % 4 = i - 4 - 4 - 4 by omega]
  · simp [h4, show ¬ i - 4 < 4 by omega, show ¬ i - 4 - 4 < 4 by omega, show ¬ i - 4 - 4 - 4 < 4 by omega, h16]

theorem symOf_lt (s q d : Nat) : symOf s q d < 2 ^ 16 :=
  Nat.lt_pow_two_of_testBit _ fun i hi => by rw [testBit_symOf]; simp [Nat.not_lt.mpr hi]

theorem symOf_xor (a b q d : Nat) : symOf (a ^^^ b) q d = symOf a q d ^^^ symOf b q d := by
  refine Nat.eq_of_testBit_eq fun i => ?_
  simp only [Nat.testBit_xor, testBit_symOf]
  by_cases hi : i < 16 <;> simp [hi]

/-- The symbols stand in the slot's 640 bits. -/
theorem symOf_mod (s d : Nat) {q : Nat} (hq : q < 4) : symOf (s % 2 ^ 640) q d = symOf s q d := by
  refine Nat.eq_of_testBit_eq fun i => ?_
  simp only [testBit_symOf, Nat.testBit_mod_two_pow]
  by_cases hi : i < 16
  · have := nibblePos_lt (d := d) (t := 4 * q + i / 4) (by omega)
    simp [show nibblePos d (4 * q + i / 4) + i % 4 < 640 by omega]
  · simp [hi]

/-- A nibble's bits at its place. -/
theorem testBit_nibble_mul (v u p k : Nat) : (v / 16 ^ u % 16 * 2 ^ p).testBit k = true ↔
    ∃ j < 4, k = p + j ∧ v.testBit (4 * u + j) = true := by
  rw [show (16 : Nat) = 2 ^ 4 from rfl, ← Nat.pow_mul, Nat.mul_comm, Nat.testBit_two_pow_mul, Nat.testBit_mod_two_pow,
    Nat.testBit_div_two_pow]
  simp only [Bool.and_eq_true, decide_eq_true_eq]
  constructor
  · rintro ⟨hk, hj, hb⟩
    exact ⟨k - p, hj, by omega, by rwa [Nat.add_comm]⟩
  · rintro ⟨j, hj, rfl, hb⟩
    exact ⟨by omega, by omega, by rwa [show p + j - p + 4 * u = 4 * u + j by omega]⟩

/-- The bits of a symbol that stands in a slot. -/
theorem testBit_symBits {q d : Nat} (hq : q < 4) (hd : d < 10) (v k : Nat) : (symBits q d v).testBit k = true ↔
    ∃ u < 4, ∃ j < 4, k = nibblePos d (4 * q + u) + j ∧ v.testBit (4 * u + j) = true := by
  unfold symBits
  rw [testBit_foldl_add (f := fun u => v / 16 ^ u % 16 * 2 ^ nibblePos d (4 * q + u))]
  · simp only [testBit_nibble_mul]
  · intro u hu w hw i hi
    simp only [testBit_nibble_mul] at hi
    obtain ⟨⟨j, hj, hij, -⟩, ⟨j', hj', hij', -⟩⟩ := hi
    have := nibblePos_inj hd hd (by omega) (by omega) hj hj' (hij.symm.trans hij')
    omega

/-- Two symbols of a slot are apart. -/
theorem apart_symBits {q q' d d' : Nat} (hq : q < 4) (hq' : q' < 4) (hd : d < 10) (hd' : d' < 10)
    (hne : ¬ (q = q' ∧ d = d')) (v v' : Nat) : Apart (symBits q d v) (symBits q' d' v') := by
  rintro i ⟨hi, hi'⟩
  obtain ⟨u, hu, j, hj, hij, -⟩ := (testBit_symBits hq hd v i).mp hi
  obtain ⟨u', hu', j', hj', hij', -⟩ := (testBit_symBits hq' hd' v' i).mp hi'
  have := nibblePos_inj hd hd' (by omega) (by omega) hj hj' (hij.symm.trans hij')
  omega

/-- A symbol's bit, read at a place of the slot. -/
theorem testBit_symBits_at {q q' d d' i : Nat} (hq : q < 4) (hq' : q' < 4) (hd : d < 10) (hd' : d' < 10) (hi : i < 16)
    (v : Nat) : (symBits q' d' v).testBit (nibblePos d (4 * q + i / 4) + i % 4) = true ↔
    (q' = q ∧ d' = d) ∧ v.testBit i = true := by
  rw [testBit_symBits hq' hd']
  constructor
  · rintro ⟨u, hu, j, hj, hij, hb⟩
    obtain ⟨rfl, ht, rfl⟩ := nibblePos_inj hd hd' (by omega) (by omega) (by omega) hj hij
    obtain ⟨rfl, rfl⟩ : q = q' ∧ i / 4 = u := by omega
    exact ⟨⟨rfl, rfl⟩, by rwa [show i = 4 * (i / 4) + i % 4 by omega]⟩
  · rintro ⟨⟨rfl, rfl⟩, hb⟩
    exact ⟨i / 4, by omega, i % 4, by omega, rfl, by rwa [show 4 * (i / 4) + i % 4 = i by omega]⟩

/-! ## The symbols of one device in each codeword -/

/-- The slot bits of one symbol of a device per codeword. -/
def devBits (dev : Nat) (v : Nat → Nat) : Nat := (List.range 4).foldl (fun a q => a + symBits q dev (v q)) 0

theorem testBit_devBits {dev : Nat} (hdev : dev < 10) (v : Nat → Nat) (k : Nat) :
    (devBits dev v).testBit k = true ↔ ∃ q < 4, (symBits q dev (v q)).testBit k = true :=
  testBit_foldl_add (f := fun q => symBits q dev (v q))
    (fun u hu w hw => apart_symBits (by omega) hu hdev hdev (by omega) _ _) k

theorem symOf_devBits {dev q d : Nat} (hdev : dev < 10) (hq : q < 4) (hd : d < 10) {v : Nat → Nat} (hv : v q < 2 ^ 16) :
    symOf (devBits dev v) q d = if d = dev then v q else 0 := by
  refine Nat.eq_of_testBit_eq fun i => ?_
  rw [Bool.eq_iff_iff, testBit_symOf, Bool.and_eq_true, decide_eq_true_eq, testBit_devBits hdev]
  by_cases hi : i < 16
  · constructor
    · rintro ⟨-, p, hp, hb⟩
      obtain ⟨⟨rfl, rfl⟩, hbit⟩ := (testBit_symBits_at hq hp hd hdev hi _).mp hb
      rwa [if_pos rfl]
    · split
      · next heq => exact fun hb => ⟨hi, q, hq, (testBit_symBits_at hq hq hd hdev hi _).mpr ⟨⟨rfl, heq.symm⟩, hb⟩⟩
      · simp
  · have hz : ∀ w, w < 2 ^ 16 → w.testBit i = false := fun w hw =>
      Nat.testBit_lt_two_pow (hw.trans_le (Nat.pow_le_pow_right (by decide) (by omega)))
    simp only [hi, false_and, false_iff, Bool.not_eq_true]
    exact hz _ (by split <;> omega)

/-! ## GF(2^16): maps that respect sums -/

/-- The map respects sums of symbols. -/
def Additive (f : Nat → Nat) : Prop := ∀ a b, a < 2 ^ 16 → b < 2 ^ 16 → f (a ^^^ b) = f a ^^^ f b

theorem Additive.zero {f : Nat → Nat} (hf : Additive f) : f 0 = 0 := by
  have h := hf 0 0 (by decide) (by decide)
  rwa [Nat.xor_self, Nat.xor_self] at h

/-- Such maps agree where they agree on the powers of two. -/
theorem Additive.eq_of_powers {f g : Nat → Nat} (hf : Additive f) (hg : Additive g) (h : ∀ i < 16, f (2 ^ i) = g (2 ^ i))
    {a : Nat} (ha : a < 2 ^ 16) : f a = g a := by
  have key : ∀ n ≤ 16, ∀ a < 2 ^ n, f a = g a := by
    intro n
    induction n with
    | zero => intro _ a ha; rw [show a = 0 by simpa using ha, hf.zero, hg.zero]
    | succ n ih =>
      intro hn a ha
      have hpow : 2 ^ n < 2 ^ 16 := Nat.pow_lt_pow_right (by decide) (by omega)
      by_cases hlt : a < 2 ^ n
      · exact ih (by omega) a hlt
      · have htop : a.testBit n = true := by
          have hdiv : a / 2 ^ n = 1 := Nat.div_eq_of_lt_le (by omega) (by have := Nat.pow_succ 2 n; omega)
          rw [Nat.testBit_eq_decide_div_mod_eq, hdiv]
          rfl
        have hlow : a ^^^ 2 ^ n < 2 ^ n := Nat.lt_pow_two_of_testBit _ fun i hi => by
          rw [Nat.testBit_xor, Nat.testBit_two_pow]
          obtain rfl | hi : n = i ∨ n < i := by omega
          · simp [htop]
          · simp [show n ≠ i by omega,
              Nat.testBit_lt_two_pow (ha.trans_le (Nat.pow_le_pow_right (by decide) (show n + 1 ≤ i by omega)))]
        have hsum : a = a ^^^ 2 ^ n ^^^ 2 ^ n := by rw [Nat.xor_assoc, Nat.xor_self, Nat.xor_zero]
        rw [hsum, hf _ _ (hlow.trans hpow) hpow, hg _ _ (hlow.trans hpow) hpow, h n (by omega), ih (by omega) _ hlow]
  exact key 16 (le_refl _) a ha

theorem gfAlpha_lt {a : Nat} (ha : a < 2 ^ 16) : gfAlpha a < 2 ^ 16 := by
  unfold gfAlpha
  split
  · refine Nat.lt_pow_two_of_testBit _ fun i hi => ?_
    have hbit : (2 * a).testBit i = a.testBit (i - 1) := by
      rw [show i = (i - 1) + 1 by omega, Nat.testBit_add_one, Nat.mul_div_cancel_left _ (by decide)]; rfl
    rw [Nat.testBit_xor, hbit]
    obtain rfl | hi : i = 16 ∨ 16 < i := by omega
    · have : a.testBit 15 = true := by
        rw [Nat.testBit_eq_decide_div_mod_eq, decide_eq_true_eq]; omega
      rw [this]; decide
    · rw [Nat.testBit_lt_two_pow (show a < 2 ^ (i - 1) from ha.trans_le (Nat.pow_le_pow_right (by decide) (by omega))),
        Nat.testBit_lt_two_pow (show 0x1100B < 2 ^ i from
          lt_of_lt_of_le (by decide) (Nat.pow_le_pow_right (by decide) (show 17 ≤ i by omega)))]
      rfl
  · omega

/-- α times a symbol, with the reduction by the top bit. -/
theorem gfAlpha_eq {a : Nat} (ha : a < 2 ^ 16) : gfAlpha a = 2 * a ^^^ (if a.testBit 15 then 0x1100B else 0) := by
  unfold gfAlpha
  have htop : a.testBit 15 = decide (a ≥ 2 ^ 15) := by
    rw [Nat.testBit_eq_decide_div_mod_eq]; exact decide_eq_decide.mpr (by omega)
  rw [htop]
  by_cases hge : a ≥ 2 ^ 15
  · simp only [hge, if_true, decide_true]
  · simp only [hge, if_false, decide_false, Bool.false_eq_true, Nat.xor_zero]

theorem additive_gfAlpha : Additive gfAlpha := by
  intro a b ha hb
  have hmul : 2 * (a ^^^ b) = 2 * a ^^^ 2 * b := by
    refine Nat.eq_of_testBit_eq fun i => ?_
    have hdouble := fun x => Nat.testBit_two_pow_mul (i := 1) (a := x) (j := i)
    simp only [Nat.pow_one] at hdouble
    rw [Nat.testBit_xor, hdouble, hdouble, hdouble, Nat.testBit_xor]
    cases decide (i ≥ 1) <;> simp
  rw [gfAlpha_eq (Nat.xor_lt_two_pow ha hb), gfAlpha_eq ha, gfAlpha_eq hb, hmul, Nat.testBit_xor]
  cases a.testBit 15 <;> cases b.testBit 15 <;> simp [Nat.xor_assoc, Nat.xor_comm, Nat.xor_left_comm]

theorem gfAlphaN_lt (n : Nat) {a : Nat} (ha : a < 2 ^ 16) : gfAlphaN n a < 2 ^ 16 := by
  induction n generalizing a with
  | zero => exact ha
  | succ n ih => exact ih (gfAlpha_lt ha)

theorem additive_gfAlphaN (n : Nat) : Additive (gfAlphaN n) := by
  induction n with
  | zero => exact fun _ _ _ _ => rfl
  | succ n ih =>
    intro a b ha hb
    simp only [gfAlphaN]
    rw [additive_gfAlpha a b ha hb, ih _ _ (gfAlpha_lt ha) (gfAlpha_lt hb)]

theorem gfAlphaN_add (m n a : Nat) : gfAlphaN (m + n) a = gfAlphaN n (gfAlphaN m a) := by
  induction m generalizing a with
  | zero => rw [Nat.zero_add]; rfl
  | succ m ih => rw [Nat.succ_add]; exact ih (gfAlpha a)

/-- Products respect sums of their first factors. -/
theorem gfMulN_xor (n a a' b : Nat) : gfMulN n (a ^^^ a') b = gfMulN n a b ^^^ gfMulN n a' b := by
  induction n generalizing a a' b with
  | zero => simp [gfMulN]
  | succ n ih =>
    have hodd : ∀ x y : Nat, (if x.testBit 0 = true then b else 0) ^^^ (if y.testBit 0 = true then b else 0) =
        if (x ^^^ y).testBit 0 = true then b else 0 := by
      intro x y
      rw [Nat.testBit_xor]
      cases x.testBit 0 <;> cases y.testBit 0 <;> simp
    have hbit : ∀ x : Nat, (x % 2 = 1) = (x.testBit 0 = true) := fun x => by simp
    simp only [gfMulN, hbit]
    rw [show (a ^^^ a') / 2 = a / 2 ^^^ a' / 2 from Nat.xor_div_two_pow (n := 1), ih, ← hodd]
    simp only [Nat.xor_assoc, Nat.xor_left_comm]

theorem additive_gfMul (b : Nat) : Additive fun a => gfMul a b := fun _ _ _ _ => gfMulN_xor ..

theorem gfMul_lt (a : Nat) {b : Nat} (hb : b < 2 ^ 16) : gfMul a b < 2 ^ 16 := by
  have key : ∀ n a b, b < 2 ^ 16 → gfMulN n a b < 2 ^ 16 := by
    intro n
    induction n with
    | zero => intro a b _; simp [gfMulN]
    | succ n ih =>
      intro a b hb
      refine Nat.xor_lt_two_pow ?_ (ih _ _ (gfAlpha_lt hb))
      split <;> omega
  exact key 16 a b hb

/-! ## The two inverses that the code rests on -/

theorem gfInv_poisonS1_lt : gfInv poisonS1 < 2 ^ 16 := by decide +kernel

/-- The last check symbol solves the second syndrome's equation. -/
theorem gfAlphaN_check {x : Nat} (hx : x < 2 ^ 16) :
    gfAlphaN 8 (gfMul x (gfInv poisonS1)) ^^^ gfAlphaN 9 (gfMul x (gfInv poisonS1)) = x := by
  refine Additive.eq_of_powers (f := fun x => gfAlphaN 8 (gfMul x (gfInv poisonS1)) ^^^ gfAlphaN 9 (gfMul x (gfInv poisonS1)))
    (g := id) ?_ (fun _ _ _ _ => rfl) (by decide +kernel) hx
  intro a b ha hb
  have hmul := fun y => gfMul_lt y gfInv_poisonS1_lt
  simp only [additive_gfMul (gfInv poisonS1) a b ha hb, additive_gfAlphaN 8 _ _ (hmul a) (hmul b),
    additive_gfAlphaN 9 _ _ (hmul a) (hmul b)]
  simp [Nat.xor_assoc, Nat.xor_left_comm]

/-- Multiplication by α^k + 1 has an inverse for each k below 10 but 0. -/
theorem gfMul_alphaN_add_one {k w : Nat} (hk : k ∈ List.range' 1 9) (hw : w < 2 ^ 16) :
    gfMul (gfAlphaN k w ^^^ w) (gfInv (2 ^ k ^^^ 1)) = w := by
  have hbasis : ∀ k ∈ List.range' 1 9, ∀ i < 16, gfMul (gfAlphaN k (2 ^ i) ^^^ 2 ^ i) (gfInv (2 ^ k ^^^ 1)) = 2 ^ i := by
    decide +kernel
  refine Additive.eq_of_powers (f := fun w => gfMul (gfAlphaN k w ^^^ w) (gfInv (2 ^ k ^^^ 1))) (g := id) ?_
    (fun _ _ _ _ => rfl) (hbasis k hk) hw
  intro a b ha hb
  have hk' := gfAlphaN_lt k ha
  have hk'' := gfAlphaN_lt k hb
  simp only [additive_gfAlphaN k a b ha hb]
  rw [← additive_gfMul _ _ _ (Nat.xor_lt_two_pow hk' ha) (Nat.xor_lt_two_pow hk'' hb)]
  simp [Nat.xor_assoc, Nat.xor_left_comm]

theorem gfAlphaN_ne_self {k w : Nat} (hk : 1 ≤ k) (hk' : k < 10) (hw : w < 2 ^ 16) (h0 : w ≠ 0) : gfAlphaN k w ≠ w := by
  intro heq
  have h := gfMul_alphaN_add_one (List.mem_range'_1.mpr ⟨hk, hk'⟩) hw
  rw [heq, Nat.xor_self] at h
  exact h0 (h.symm.trans (additive_gfMul _).zero)

theorem gfAlpha_ne_zero {v : Nat} (h0 : v ≠ 0) : gfAlpha v ≠ 0 := by
  unfold gfAlpha
  split
  · intro hz
    have hlow := congrArg (fun x => x.testBit 0) hz
    simp at hlow
  · omega

theorem gfAlphaN_ne_zero (n : Nat) {v : Nat} (h0 : v ≠ 0) : gfAlphaN n v ≠ 0 := by
  induction n generalizing v with
  | zero => exact h0
  | succ n ih => exact ih (gfAlpha_ne_zero h0)

/-- Two positions below 10 give one nonzero S0 different S1. -/
theorem gfAlphaN_inj {i j v : Nat} (hi : i < 10) (hj : j < 10) (hv : v < 2 ^ 16) (h0 : v ≠ 0)
    (h : gfAlphaN i v = gfAlphaN j v) : i = j := by
  have key : ∀ i j, i < j → j < 10 → gfAlphaN i v ≠ gfAlphaN j v := by
    intro i j hij hj heq
    rw [show j = i + (j - i) by omega, gfAlphaN_add] at heq
    exact gfAlphaN_ne_self (by omega) (by omega) (gfAlphaN_lt i hv) (gfAlphaN_ne_zero i h0) heq.symm
  rcases Nat.lt_trichotomy i j with hlt | heq | hlt
  · exact absurd h (key i j hlt hj)
  · exact heq
  · exact absurd h.symm (key j i hlt hi)

/-! ## Syndromes -/

theorem syndromes_fst (s q : Nat) : (syndromes s q).1 = xorAll ((List.range 8).map (symOf s q)) ^^^ symOf s q 8 ^^^ symOf s q 9 := rfl

theorem syndromes_snd (s q : Nat) : (syndromes s q).2 = xorAll ((List.range 8).map fun j => gfAlphaN j (symOf s q j)) ^^^
    gfAlphaN 8 (symOf s q 8) ^^^ gfAlphaN 9 (symOf s q 9) := rfl

/-- XOR over a list, of sums. -/
theorem xorAll_map_xor (f g : Nat → Nat) (l : List Nat) :
    xorAll (l.map fun j => f j ^^^ g j) = xorAll (l.map f) ^^^ xorAll (l.map g) := by
  have hgen : ∀ l : List Nat, ∀ a b, (l.map fun j => f j ^^^ g j).foldl (fun a b => a ^^^ b) (a ^^^ b) =
      (l.map f).foldl (fun a b => a ^^^ b) a ^^^ (l.map g).foldl (fun a b => a ^^^ b) b := by
    intro l
    induction l with
    | nil => exact fun _ _ => rfl
    | cons x l ih =>
      intro a b
      simp only [List.map_cons, List.foldl_cons]
      rw [← ih]
      congr 1
      simp only [Nat.xor_assoc, Nat.xor_left_comm]
  exact hgen l 0 0

/-- XOR over a list in which one place only is not zero. -/
theorem xorAll_map_single {f : Nat → Nat} {l : List Nat} {i : Nat} (hnd : l.Nodup) (hi : i ∈ l)
    (h : ∀ j ∈ l, j ≠ i → f j = 0) : xorAll (l.map f) = f i := by
  have hgen : ∀ l : List Nat, (∀ j ∈ l, f j = 0) → ∀ a, (l.map f).foldl (fun a b => a ^^^ b) a = a := by
    intro l
    induction l with
    | nil => exact fun _ _ => rfl
    | cons x l ih =>
      intro hl a
      rw [List.map_cons, List.foldl_cons, hl x (by simp), Nat.xor_zero]
      exact ih (fun j hj => hl j (by simp [hj])) a
  obtain ⟨before, after, rfl⟩ := List.append_of_mem hi
  rw [List.nodup_middle, List.nodup_cons] at hnd
  have hne : ∀ j ∈ before ++ after, j ≠ i := fun j hj he => hnd.1 (he ▸ hj)
  have hb := hgen before fun j hj => h j (by simp [hj]) (hne j (by simp [hj]))
  have ha := hgen after fun j hj => h j (by simp [hj]) (hne j (by simp [hj]))
  simp only [xorAll, List.map_append, List.map_cons, List.foldl_append, List.foldl_cons, hb, ha, Nat.zero_xor]

/-- Syndromes respect sums of slots. -/
theorem syndromes_xor (a b q : Nat) :
    syndromes (a ^^^ b) q = ((syndromes a q).1 ^^^ (syndromes b q).1, (syndromes a q).2 ^^^ (syndromes b q).2) := by
  have hsym : symOf (a ^^^ b) q = fun d => symOf a q d ^^^ symOf b q d := funext (symOf_xor a b q)
  unfold syndromes
  simp only [hsym, ← xorAll_map_xor, additive_gfAlphaN _ _ _ (symOf_lt ..) (symOf_lt ..)]

theorem syndromes_mod (s : Nat) {q : Nat} (hq : q < 4) : syndromes (s % 2 ^ 640) q = syndromes s q := by
  have hsym : symOf (s % 2 ^ 640) q = symOf s q := funext fun d => symOf_mod s d hq
  unfold syndromes
  rw [hsym]

/-- The syndromes of an error in one device. -/
theorem syndromes_devBits {dev q : Nat} (hdev : dev < 10) (hq : q < 4) {v : Nat → Nat} (hv : v q < 2 ^ 16) :
    syndromes (devBits dev v) q = (v q, gfAlphaN dev (v q)) := by
  have hsym : ∀ d ∈ List.range 10, symOf (devBits dev v) q d = if d = dev then v q else 0 := fun d hd =>
    symOf_devBits hdev hq (List.mem_range.mp hd) hv
  have hself := (hsym dev (List.mem_range.mpr hdev)).trans (if_pos rfl)
  unfold syndromes
  rw [xorAll_map_single List.nodup_range (List.mem_range.mpr hdev) fun j hj hne => by rw [hsym j hj, if_neg hne],
    xorAll_map_single List.nodup_range (List.mem_range.mpr hdev) fun j hj hne => by
      rw [hsym j hj, if_neg hne, (additive_gfAlphaN j).zero], hself]

/-! ## The stored slot (R254) -/

/-- The slot bits of a check symbol of each of devices 8 and 9 per codeword. -/
def checkBits (c : Nat → Nat × Nat) : Nat :=
  (List.range 4).foldl (fun a q => a + (symBits q 8 (c q).1 + symBits q 9 (c q).2)) 0

/-- The check symbol of a device. -/
def checkOf (c : Nat × Nat) (d : Nat) : Nat := if d = 8 then c.1 else c.2

theorem encodeSlot_eq (d : Line) : encodeSlot d = BitVec.ofNat 640 (d.toNat + checkBits (checkSyms d.toNat)) := by
  unfold encodeSlot checkBits
  simp only [Nat.add_assoc]

section
variable (c : Nat → Nat × Nat)

theorem testBit_checkBits (k : Nat) : (checkBits c).testBit k = true ↔
    ∃ q < 4, ∃ d, 8 ≤ d ∧ d < 10 ∧ (symBits q d (checkOf (c q) d)).testBit k = true := by
  have hboth : ∀ q < 4, ∀ i, (symBits q 8 (c q).1 + symBits q 9 (c q).2).testBit i = true ↔
      ∃ d, 8 ≤ d ∧ d < 10 ∧ (symBits q d (checkOf (c q) d)).testBit i = true := by
    intro q hq i
    rw [testBit_add_of_apart (apart_symBits hq hq (by omega) (by omega) (by omega) _ _), Bool.or_eq_true]
    constructor
    · rintro (hb | hb)
      · exact ⟨8, by omega, by omega, hb⟩
      · exact ⟨9, by omega, by omega, hb⟩
    · rintro ⟨d, hd8, hd, hb⟩
      obtain rfl | rfl : d = 8 ∨ d = 9 := by omega
      · exact .inl hb
      · exact .inr hb
  unfold checkBits
  rw [testBit_foldl_add (f := fun q => symBits q 8 (c q).1 + symBits q 9 (c q).2)]
  · exact exists_congr fun q => and_congr_right fun hq => hboth q hq k
  · rintro q hq p hp i ⟨hi, hi'⟩
    obtain ⟨d, -, hd, hi⟩ := (hboth p (by omega) i).mp hi
    obtain ⟨d', -, hd', hi'⟩ := (hboth q hq i).mp hi'
    exact apart_symBits (by omega) hq hd hd' (by omega) _ _ i ⟨hi, hi'⟩

theorem nibblePos_data {d t : Nat} (hd : d < 8) (ht : t < 16) : nibblePos d t + 4 ≤ 512 := by
  unfold nibblePos; rw [if_pos hd]; omega

theorem nibblePos_check {d t : Nat} (hd : 8 ≤ d) : 512 ≤ nibblePos d t := by
  unfold nibblePos; rw [if_neg (by omega)]; omega

/-- The check symbols stand behind the data. -/
theorem testBit_checkBits_data {k : Nat} (hk : k < 512) : (checkBits c).testBit k = false := by
  by_contra hset
  rw [Bool.not_eq_false, testBit_checkBits] at hset
  obtain ⟨q, hq, d, hd8, hd, hb⟩ := hset
  obtain ⟨u, -, j, -, rfl, -⟩ := (testBit_symBits hq hd _ k).mp hb
  have := nibblePos_check (t := 4 * q + u) hd8
  omega

variable {n : Nat} (hn : n < 2 ^ 512)
include hn

theorem testBit_data {k : Nat} (hk : 512 ≤ k) : n.testBit k = false :=
  Nat.testBit_lt_two_pow (hn.trans_le (Nat.pow_le_pow_right (by omega) hk))

theorem testBit_add_checkBits (k : Nat) : (n + checkBits c).testBit k = (n.testBit k || (checkBits c).testBit k) := by
  refine testBit_add_of_apart (fun i hi => ?_) k
  by_cases hlt : i < 512
  · rw [testBit_checkBits_data c hlt] at hi; exact Bool.false_ne_true hi.2
  · rw [testBit_data hn (by omega)] at hi; exact Bool.false_ne_true hi.1

/-- The data symbols of a stored slot are those of its data. -/
theorem symOf_add_checkBits_data {q d : Nat} (hq : q < 4) (hd : d < 8) : symOf (n + checkBits c) q d = symOf n q d := by
  refine Nat.eq_of_testBit_eq fun i => ?_
  rw [testBit_symOf, testBit_symOf, testBit_add_checkBits c hn]
  by_cases hi : i < 16
  · have := nibblePos_data (t := 4 * q + i / 4) hd (by omega)
    rw [testBit_checkBits_data c (by omega), Bool.or_false]
  · simp [hi]

/-- The check symbols of a stored slot. -/
theorem symOf_add_checkBits_check {q d : Nat} (hq : q < 4) (hd8 : 8 ≤ d) (hd : d < 10) (hlt : checkOf (c q) d < 2 ^ 16) :
    symOf (n + checkBits c) q d = checkOf (c q) d := by
  refine Nat.eq_of_testBit_eq fun i => ?_
  rw [testBit_symOf, testBit_add_checkBits c hn,
    testBit_data hn (by have := nibblePos_check (t := 4 * q + i / 4) hd8; omega), Bool.false_or]
  by_cases hi : i < 16
  · rw [Bool.eq_iff_iff, Bool.and_eq_true, decide_eq_true_eq, testBit_checkBits]
    constructor
    · rintro ⟨-, p, hp, d', -, hd', hb⟩
      obtain ⟨⟨rfl, rfl⟩, hbit⟩ := (testBit_symBits_at hq hp hd hd' hi _).mp hb
      exact hbit
    · exact fun hb => ⟨hi, q, hq, d, hd8, hd, (testBit_symBits_at hq hq hd hd hi _).mpr ⟨⟨rfl, rfl⟩, hb⟩⟩
  · rw [Nat.testBit_lt_two_pow (hlt.trans_le (Nat.pow_le_pow_right (by omega) (show 16 ≤ i by omega)))]
    simp [hi]

end

theorem xorAll_map_lt {f : Nat → Nat} (hf : ∀ j, f j < 2 ^ 16) (l : List Nat) : xorAll (l.map f) < 2 ^ 16 := by
  have hgen : ∀ l : List Nat, ∀ a < 2 ^ 16, (l.map f).foldl (fun a b => a ^^^ b) a < 2 ^ 16 := by
    intro l
    induction l with
    | nil => exact fun _ ha => ha
    | cons x l ih => exact fun a ha => ih _ (Nat.xor_lt_two_pow ha (hf x))
  exact hgen l 0 (by omega)

/-- Check symbols that solve both equations: `z` is the product that R254 gives c9. -/
theorem checks_cancel {d0 d1 z : Nat} (h0 : d0 < 2 ^ 16) (hz : z < 2 ^ 16)
    (hsolve : gfAlphaN 8 z ^^^ gfAlphaN 9 z = d1 ^^^ gfAlphaN 8 d0) :
    d0 ^^^ (d0 ^^^ z) ^^^ z = 0 ∧ d1 ^^^ gfAlphaN 8 (d0 ^^^ z) ^^^ gfAlphaN 9 z = 0 := by
  refine ⟨by simp, ?_⟩
  rw [additive_gfAlphaN 8 d0 z h0 hz]
  generalize gfAlphaN 8 d0 = x at *
  have hd1 : d1 = gfAlphaN 8 z ^^^ gfAlphaN 9 z ^^^ x := by rw [hsolve, Nat.xor_assoc, Nat.xor_self, Nat.xor_zero]
  rw [hd1]
  simp [Nat.xor_assoc, Nat.xor_comm, Nat.xor_left_comm]

/-- The check symbols of R254 solve the equations of both syndromes. -/
theorem checkSyms_cancel (s q : Nat) :
    ((checkSyms s q).1 < 2 ^ 16 ∧ (checkSyms s q).2 < 2 ^ 16) ∧
    xorAll ((List.range 8).map (symOf s q)) ^^^ (checkSyms s q).1 ^^^ (checkSyms s q).2 = 0 ∧
    xorAll ((List.range 8).map fun j => gfAlphaN j (symOf s q j)) ^^^ gfAlphaN 8 (checkSyms s q).1 ^^^
      gfAlphaN 9 (checkSyms s q).2 = 0 := by
  unfold checkSyms
  have h0 : xorAll ((List.range 8).map (symOf s q)) < 2 ^ 16 := xorAll_map_lt (symOf_lt s q) _
  have h1 : xorAll ((List.range 8).map fun j => gfAlphaN j (symOf s q j)) < 2 ^ 16 :=
    xorAll_map_lt (fun j => gfAlphaN_lt j (symOf_lt s q j)) _
  generalize xorAll ((List.range 8).map (symOf s q)) = d0 at *
  generalize xorAll ((List.range 8).map fun j => gfAlphaN j (symOf s q j)) = d1 at *
  have hz := gfMul_lt (d1 ^^^ gfAlphaN 8 d0) gfInv_poisonS1_lt
  have hsolve := gfAlphaN_check (Nat.xor_lt_two_pow h1 (gfAlphaN_lt 8 h0))
  exact ⟨⟨Nat.xor_lt_two_pow h0 hz, hz⟩, checks_cancel h0 hz hsolve⟩

/-- The check symbols make both syndromes zero (R254). -/
theorem syndromes_encoded (l : Line) {q : Nat} (hq : q < 4) :
    syndromes (l.toNat + checkBits (checkSyms l.toNat)) q = (0, 0) := by
  obtain ⟨⟨hlt8, hlt9⟩, h0, h1⟩ := checkSyms_cancel l.toNat q
  have hdata : ∀ j ∈ List.range 8, symOf (l.toNat + checkBits (checkSyms l.toNat)) q j = symOf l.toNat q j := fun j hj =>
    symOf_add_checkBits_data _ l.isLt hq (List.mem_range.mp hj)
  have h8 : symOf (l.toNat + checkBits (checkSyms l.toNat)) q 8 = (checkSyms l.toNat q).1 :=
    symOf_add_checkBits_check (d := 8) _ l.isLt hq (by omega) (by omega) hlt8
  have h9 : symOf (l.toNat + checkBits (checkSyms l.toNat)) q 9 = (checkSyms l.toNat q).2 :=
    symOf_add_checkBits_check (d := 9) _ l.isLt hq (by omega) (by omega) hlt9
  refine Prod.ext ?_ ?_
  · rw [syndromes_fst, h8, h9, List.map_congr_left hdata]
    exact h0
  · rw [syndromes_snd, h8, h9, List.map_congr_left fun j hj => by rw [hdata j hj]]
    exact h1

theorem syndromes_encodeSlot (l : Line) {q : Nat} (hq : q < 4) : syndromes (encodeSlot l).toNat q = (0, 0) := by
  rw [encodeSlot_eq, BitVec.toNat_ofNat, syndromes_mod _ hq, syndromes_encoded l hq]

/-- The data of a stored slot (R254). -/
theorem slotData_encodeSlot (l : Line) : slotData (encodeSlot l) = l := by
  refine BitVec.eq_of_getLsbD_eq fun i hi => ?_
  rw [slotData, encodeSlot_eq, BitVec.getLsbD_setWidth, BitVec.getLsbD_ofNat, testBit_add_checkBits _ l.isLt,
    testBit_checkBits_data _ hi, BitVec.testBit_toNat]
  simp [hi, show i < 640 by omega]

/-! ## What a decode finds (R255, R257) -/

/-- The syndromes of a stored slot with an error in one device. -/
theorem syndromes_encodeSlot_xor (l : Line) {dev q : Nat} (hdev : dev < 10) (hq : q < 4) {v : Nat → Nat}
    (hv : v q < 2 ^ 16) :
    syndromes (encodeSlot l ^^^ BitVec.ofNat 640 (devBits dev v)).toNat q = (v q, gfAlphaN dev (v q)) := by
  rw [BitVec.toNat_xor, syndromes_xor, syndromes_encodeSlot l hq, BitVec.toNat_ofNat, syndromes_mod _ hq,
    syndromes_devBits hdev hq hv, Nat.zero_xor, Nat.zero_xor]

/-- R255: the syndromes of a single-symbol error name its position. -/
theorem singlePos_single {i v : Nat} (hi : i < 10) (hv : v < 2 ^ 16) (h0 : v ≠ 0) :
    singlePos (v, gfAlphaN i v) = some i := by
  unfold singlePos
  rw [if_neg h0, List.find?_range_eq_some]
  refine ⟨by simp, List.mem_range.mpr hi, fun j hj => ?_⟩
  simpa using fun heq => absurd (gfAlphaN_inj (by omega) hi hv h0 heq) (by omega)

theorem decodeSlot_encodeSlot (l : Line) (mark : Option Nat) : decodeSlot mark (encodeSlot l) = .clean := by
  have hsyn : slotSyn (encodeSlot l) = [(0, 0), (0, 0), (0, 0), (0, 0)] := by
    simp [slotSyn, List.range_succ, syndromes_encodeSlot]
  unfold decodeSlot
  rw [hsyn]
  rfl

theorem decodeSlot_poisonSlot (mark : Option Nat) : decodeSlot mark poisonSlot = .poisoned := by
  have hsyn : slotSyn poisonSlot = [(0, poisonS1), (0, poisonS1), (0, poisonS1), (0, poisonS1)] := by decide +kernel
  unfold decodeSlot
  rw [hsyn]
  rfl

/-! ### An error in one device -/

/-- The syndromes are those of errors at the position `dev` only, and one of them is not zero. -/
structure OneDevice (dev : Nat) (syn : List (Nat × Nat)) : Prop where
  lt : dev < 10
  each : ∀ z ∈ syn, ∃ w < 2 ^ 16, z = (w, gfAlphaN dev w)
  exists_ne : ∃ z ∈ syn, z ≠ (0, 0)

section
variable {dev : Nat} {syn : List (Nat × Nat)} (h : OneDevice dev syn)
include h

/-- A nonzero codeword has a nonzero S0. -/
theorem OneDevice.nonzero {z : Nat × Nat} (hz : z ∈ syn) (hne : z ≠ (0, 0)) :
    ∃ w < 2 ^ 16, w ≠ 0 ∧ z = (w, gfAlphaN dev w) := by
  obtain ⟨w, hw, rfl⟩ := h.each z hz
  refine ⟨w, hw, ?_, rfl⟩
  rintro rfl
  exact hne (by rw [(additive_gfAlphaN dev).zero])

theorem OneDevice.not_zero : ¬ syn.all (· == (0, 0)) = true := by
  obtain ⟨z, hz, hne⟩ := h.exists_ne
  exact fun hall => hne (by simpa using List.all_eq_true.mp hall z hz)

/-- Errors in one device are not the poison (R255). -/
theorem OneDevice.not_poisoned : ¬ syn.all (· == (0, poisonS1)) = true := by
  obtain ⟨z, hz, hne⟩ := h.exists_ne
  obtain ⟨w, -, hw0, rfl⟩ := h.nonzero hz hne
  intro hall
  have heq : (w, gfAlphaN dev w) = (0, poisonS1) := by simpa using List.all_eq_true.mp hall _ hz
  exact hw0 (congrArg Prod.fst heq)

/-- Every nonzero codeword names the device. -/
theorem OneDevice.commonPos_eq : commonPos syn = some dev := by
  have hnz : ∀ z ∈ syn.filter (· ≠ (0, 0)), singlePos z = some dev := by
    intro z hz
    obtain ⟨hmem, hne⟩ := List.mem_filter.mp hz
    obtain ⟨w, hw, hw0, rfl⟩ := h.nonzero hmem (by simpa using hne)
    exact singlePos_single h.lt hw hw0
  have hne : syn.filter (· ≠ (0, 0)) ≠ [] := by
    obtain ⟨z, hz, hne⟩ := h.exists_ne
    exact List.ne_nil_of_mem (List.mem_filter.mpr ⟨hz, by simpa using hne⟩)
  unfold commonPos
  generalize syn.filter (· ≠ (0, 0)) = nz at hnz hne
  obtain _ | ⟨y, ys⟩ := nz
  · exact absurd rfl hne
  · simp only [hnz y (List.mem_cons_self ..)]
    rw [if_pos]
    exact List.all_eq_true.mpr fun z hz => by rw [hnz z hz]; exact beq_self_eq_true _

/-- Under a mark, the codewords in error agree with the marked position exactly where it is the device in error. -/
theorem OneDevice.all_marked {m : Nat} (hm : m < 10) :
    ((syn.filter (· ≠ (0, 0))).all fun z => gfAlphaN m z.1 == z.2) = true ↔ m = dev := by
  constructor
  · intro hall
    obtain ⟨z, hz, hne⟩ := h.exists_ne
    have hz' := List.all_eq_true.mp hall z (List.mem_filter.mpr ⟨hz, by simpa using hne⟩)
    obtain ⟨w, hw, hw0, rfl⟩ := h.nonzero hz hne
    exact gfAlphaN_inj hm h.lt hw hw0 (by simpa using hz')
  · rintro rfl
    refine List.all_eq_true.mpr fun z hz => ?_
    obtain ⟨w, -, rfl⟩ := h.each z (List.mem_filter.mp hz).1
    exact beq_self_eq_true _

end

section
variable {s : Slot} {dev : Nat} (h : OneDevice dev (slotSyn s))
include h

theorem decodeSlot_oneDevice : decodeSlot none s = .corrected (correctAt s dev) dev (errorCw (slotSyn s)) := by
  unfold decodeSlot
  simp only [if_neg h.not_zero, if_neg h.not_poisoned, h.commonPos_eq]

theorem decodeSlot_marked : decodeSlot (some dev) s = .marked (correctAt s dev) dev := by
  unfold decodeSlot
  simp only [if_neg h.not_zero, if_neg h.not_poisoned, if_pos ((h.all_marked h.lt).mpr rfl)]

theorem decodeSlot_second {m : Nat} (hm : m < 10) (hne : m ≠ dev) :
    decodeSlot (some m) s = .second dev (errorCw (slotSyn s)) := by
  unfold decodeSlot
  simp only [if_neg h.not_zero, if_neg h.not_poisoned, if_neg (mt (h.all_marked hm).mp hne), h.commonPos_eq, Option.getD_some]

end

/-! ### The obligation -/

/-- The symbols of an error of one device, by codeword. -/
def errorSyms (v : Fin 4 → BitVec 16) (q : Nat) : Nat := if h : q < 4 then (v ⟨q, h⟩).toNat else 0

theorem errorSyms_lt (v : Fin 4 → BitVec 16) (q : Nat) : errorSyms v q < 2 ^ 16 := by
  unfold errorSyms
  split
  · exact BitVec.isLt _
  · decide

theorem deviceError_eq (dev : Nat) (v : Fin 4 → BitVec 16) : deviceError dev v = BitVec.ofNat 640 (devBits dev (errorSyms v)) := by
  have hsyms : ∀ q : Fin 4, errorSyms v q = (v q).toNat := fun q => dif_pos q.isLt
  unfold deviceError devBits
  rw [← List.map_coe_finRange_eq_range, List.foldl_map]
  simp only [hsyms]

section
variable (d : Line) {dev : Nat} (hdev : dev < 10) (v : Fin 4 → BitVec 16)
include hdev

theorem syndromes_deviceError {q : Nat} (hq : q < 4) :
    syndromes (encodeSlot d ^^^ deviceError dev v).toNat q = (errorSyms v q, gfAlphaN dev (errorSyms v q)) := by
  rw [deviceError_eq, syndromes_encodeSlot_xor d hdev hq (errorSyms_lt v q)]

theorem oneDevice_deviceError (hv : ∃ q, v q ≠ 0) : OneDevice dev (slotSyn (encodeSlot d ^^^ deviceError dev v)) := by
  refine ⟨hdev, fun z hz => ?_, ?_⟩
  · obtain ⟨q, hq, rfl⟩ := List.mem_map.mp hz
    exact ⟨_, errorSyms_lt v q, syndromes_deviceError d hdev v (List.mem_range.mp hq)⟩
  · obtain ⟨q, hq⟩ := hv
    refine ⟨_, List.mem_map_of_mem (List.mem_range.mpr q.isLt), ?_⟩
    rw [syndromes_deviceError d hdev v q.isLt]
    intro heq
    have hzero : errorSyms v q = 0 := congrArg Prod.fst heq
    simp only [errorSyms, q.isLt, dif_pos] at hzero
    exact hq (BitVec.eq_of_toNat_eq hzero)

/-- Adding each codeword's S0 at the device takes the error away. -/
theorem correctAt_deviceError : correctAt (encodeSlot d ^^^ deviceError dev v) dev = encodeSlot d := by
  have hbits : (List.range 4).foldl (fun a q => a +
      symBits q dev (syndromes (encodeSlot d ^^^ deviceError dev v).toNat q).1) 0 = devBits dev (errorSyms v) := by
    unfold devBits
    refine List.foldl_ext _ _ 0 fun a q hq => ?_
    rw [syndromes_deviceError d hdev v (List.mem_range.mp hq)]
  unfold correctAt
  rw [hbits, deviceError_eq, BitVec.xor_assoc, BitVec.xor_self, BitVec.xor_zero]

end

/-- Settles O17: the syndromes of an error of one device name it, and no other position gives them. -/
theorem oneDeviceErrorIsCorrected : Obligations.OneDeviceErrorIsCorrected := by
  unfold Obligations.OneDeviceErrorIsCorrected
  intro d dev m v hv
  have h := oneDevice_deviceError d dev.isLt v hv
  have hfix := correctAt_deviceError d dev.isLt v
  exact ⟨⟨_, (decodeSlot_oneDevice h).trans (by rw [hfix])⟩, (decodeSlot_marked h).trans (by rw [hfix]),
    fun hne => ⟨_, decodeSlot_second h m.isLt fun heq => hne (Fin.ext heq)⟩⟩

end Sys2Proof.Machine

/-! # A stored slot decodes as what it is and is counted (R254–R261, R264, R266) -/

namespace Sys2Proof.Machine

/-! ## What a decoded slot does -/

section
variable {e : Engine} {n origin : Nat} {l : Loc} {s : Slot} {isM : Bool}

theorem eccRead_clean (h : decodeSlot (markOf e n l.rank l.sc) s = .clean) :
    eccRead e n origin l s isM = (e, ⟨.data (slotData s), none⟩) := by
  unfold eccRead; rw [h]

theorem eccRead_poisoned (h : decodeSlot (markOf e n l.rank l.sc) s = .poisoned) :
    eccRead e n origin l s isM = (inc e (CH_CNT_POISON_RD n), ⟨.poison, none⟩) := by
  unfold eccRead; rw [h]

theorem eccRead_corrected {t : Slot} {dev cw : Nat} (h : decodeSlot (markOf e n l.rank l.sc) s = .corrected t dev cw) :
    (eccRead e n origin l s isM).1 = countCe e n origin dev cw l ∧ (eccRead e n origin l s isM).2.fixed = some t := by
  unfold eccRead; rw [h]; exact ⟨rfl, rfl⟩

theorem eccRead_marked {t : Slot} {dev : Nat} (h : decodeSlot (markOf e n l.rank l.sc) s = .marked t dev) :
    (eccRead e n origin l s isM).1 = satF e (CH_ECC_DEV_CE_CNT n l.rank l.sc dev) 1 ∧
    (eccRead e n origin l s isM).2.fixed = none := by
  unfold eccRead; rw [h]; exact ⟨rfl, rfl⟩

theorem eccRead_uncorrectable {cw : Nat} (h : decodeSlot (markOf e n l.rank l.sc) s = .uncorrectable cw) :
    eccRead e n origin l s isM = (countUe e n origin 1 15 cw l isM, ⟨.ue, none⟩) := by
  unfold eccRead; rw [h]

theorem eccRead_second {dev cw : Nat} (h : decodeSlot (markOf e n l.rank l.sc) s = .second dev cw) :
    eccRead e n origin l s isM = (countUe e n origin 2 dev cw l isM, ⟨.ue, none⟩) := by
  unfold eccRead; rw [h]

/-! ## Write-backs -/

/-- A write-back that nothing newer stands before takes an entry where there is room for it. -/
theorem writeBack_of_room (hnone : findWrite (getChan e n) l = none) (hin : intakeOn e n = true)
    (hlen : (getChan e n).wq.length < 192)
    (hbank : bankRoom (getChan e n) (rd e (CH_SPARGE_BANK_MAX n)) [l] = true) :
    writeBack e n l s false =
      inc (putChan e n (pushWrite e (getChan e n) none none false noLine l s e.clk.tb)) (CH_CNT_SCRUB_WB n) := by
  unfold writeBack
  simp [hnone, hin, hlen, hbank]

theorem writeBack_of_no_room {newer : Bool} (h : newer = true ∨ findWrite (getChan e n) l ≠ none ∨ intakeOn e n = false ∨
    192 ≤ (getChan e n).wq.length ∨ bankRoom (getChan e n) (rd e (CH_SPARGE_BANK_MAX n)) [l] = false) :
    writeBack e n l s newer = e := by
  unfold writeBack
  simp only
  split
  · rfl
  · next hnewer =>
    rw [if_neg]
    rintro ⟨hin, hlen, hbank⟩
    rcases h with h | h | h | h | h
    · simp [h] at hnewer
    · simp at hnewer
      exact h hnewer.2
    · simp [h] at hin
    · omega
    · simp [h] at hbank

end

/-- Settles O18: the check symbols of a stored slot make its syndromes zero; a read counts what the decode finds. -/
theorem storedSlotIsDecodedAndCounted : Obligations.StoredSlotIsDecodedAndCounted := by
  unfold Obligations.StoredSlotIsDecodedAndCounted
  refine ⟨⟨fun d mark => ⟨decodeSlot_encodeSlot d mark, slotData_encodeSlot d⟩, decodeSlot_poisonSlot,
    fun i v hi hv h0 => singlePos_single hi hv h0⟩, fun e n origin l s isM => ?_⟩
  exact ⟨eccRead_clean, eccRead_poisoned, fun _ _ _ => eccRead_corrected, fun _ _ => eccRead_marked,
    fun _ => eccRead_uncorrectable, fun _ _ => eccRead_second,
    fun _ hnone hnew hin hlen hbank => by subst hnew; exact writeBack_of_room hnone hin hlen hbank,
    fun _ => writeBack_of_no_room⟩

end Sys2Proof.Machine

/-! # A packed pair opens to exactly its two lines (R285–R287) -/

namespace Sys2Proof.Machine

/-! ## Bytes of numbers -/

@[simp] theorem length_toLE (n x : Nat) : (toLE n x).length = n := by simp [toLE]

theorem toLE_succ (n x : Nat) : toLE (n + 1) x = x % 256 :: toLE n (x / 256) := by
  have hbyte : ∀ i, byteAt x (i + 1) = byteAt (x / 256) i := fun i => by
    rw [byteAt, byteAt, Nat.mul_add, Nat.pow_add, Nat.mul_comm, ← Nat.div_div_eq_div_mul]
  rw [toLE, List.range_succ_eq_map, List.map_cons, List.map_map]
  refine congrArg₂ _ (by simp [byteAt]) (List.map_congr_left fun i _ => hbyte i)

theorem lt_of_mem_toLE {n x b : Nat} (h : b ∈ toLE n x) : b < 256 := by
  obtain ⟨i, -, rfl⟩ := List.mem_map.mp h
  exact Nat.mod_lt _ (by decide)

theorem ofLE_toLE (n x : Nat) : ofLE (toLE n x) = x % 256 ^ n := by
  induction n generalizing x with
  | zero => simp [toLE, ofLE, Nat.mod_one]
  | succ n ih => rw [toLE_succ, ofLE, ih, Nat.pow_succ', Nat.mod_mul]

theorem ofLE_lt {l : List Nat} (h : ∀ b ∈ l, b < 256) : ofLE l < 256 ^ l.length := by
  induction l with
  | nil => simp [ofLE]
  | cons x l ih =>
    have hx := h x (by simp)
    have := ih fun b hb => h b (by simp [hb])
    rw [ofLE, List.length_cons, Nat.pow_succ']
    omega

theorem toLE_ofLE {l : List Nat} (h : ∀ b ∈ l, b < 256) : toLE l.length (ofLE l) = l := by
  induction l with
  | nil => rfl
  | cons x l ih =>
    have hx := h x (by simp)
    rw [List.length_cons, toLE_succ, ofLE, show (x + 256 * ofLE l) % 256 = x by omega,
      show (x + 256 * ofLE l) / 256 = ofLE l by omega, ih fun b hb => h b (by simp [hb])]

theorem toLE_add (m n x : Nat) : toLE (m + n) x = toLE m x ++ toLE n (x / 256 ^ m) := by
  induction m generalizing x with
  | zero => simp [toLE]
  | succ m ih =>
    rw [show m + 1 + n = m + n + 1 by omega, toLE_succ, toLE_succ, ih, List.cons_append, Nat.div_div_eq_div_mul,
      ← Nat.pow_succ']

theorem toLE_mod (n x : Nat) : toLE n (x % 256 ^ n) = toLE n x := by
  induction n generalizing x with
  | zero => rfl
  | succ n ih =>
    rw [toLE_succ, toLE_succ, Nat.pow_succ', Nat.mod_mul_right_mod, Nat.mod_mul_right_div_self, ih]

/-- The bytes of a number's words are its bytes. -/
theorem flatten_toLE (n k x : Nat) :
    ((List.range k).map fun i => toLE n (x / 2 ^ (8 * n * i) % 2 ^ (8 * n))).flatten = toLE (n * k) x := by
  have hpow : ∀ m, 2 ^ (8 * m) = 256 ^ m := fun m => by rw [Nat.pow_mul]
  induction k with
  | zero => rfl
  | succ k ih =>
    rw [List.range_succ, List.map_append, List.flatten_append, ih, Nat.mul_succ, toLE_add, List.map_singleton,
      List.flatten_singleton, hpow, toLE_mod, Nat.mul_assoc, hpow]

/-! ## Bytes of lines -/

theorem length_lineBytes (d : Line) : (lineBytes d).length = 64 := length_toLE ..

/-- The numbers of 512 bits are those of 64 bytes. -/
theorem line_size : (2 : Nat) ^ 512 = 256 ^ 64 := by
  rw [show (512 : Nat) = 8 * 64 from rfl, Nat.pow_mul]

theorem bytesLine_lineBytes (d : Line) : bytesLine (lineBytes d) = d := by
  have hlt : d.toNat < 256 ^ 64 := lt_of_lt_of_eq d.isLt line_size
  rw [bytesLine, lineBytes, ofLE_toLE, Nat.mod_eq_of_lt hlt, BitVec.ofNat_toNat, BitVec.setWidth_eq]

theorem lineBytes_bytesLine {b : List Nat} (hlen : b.length = 64) (hlt : ∀ x ∈ b, x < 256) : lineBytes (bytesLine b) = b := by
  have hsmall := ofLE_lt hlt
  replace hsmall : ofLE b < 2 ^ 512 := lt_of_lt_of_eq (hlen ▸ hsmall) line_size.symm
  rw [lineBytes, bytesLine, BitVec.toNat_ofNat, Nat.mod_eq_of_lt hsmall, ← hlen, toLE_ofLE hlt]

/-- A line is the line of its words. -/
theorem bytesLine_words (d : Line) {n k : Nat} (h : n * k = 64) :
    bytesLine ((List.range k).map fun i => toLE n (lineWord d n i)).flatten = d := by
  unfold lineWord
  rw [flatten_toLE, h]
  exact bytesLine_lineBytes d

theorem lineWord_lt (d : Line) (n i : Nat) : lineWord d n i < 2 ^ (8 * n) := Nat.mod_lt _ (Nat.two_pow_pos _)

/-! ## Decoding a padded field (R286) -/

/-- The bytes behind a tag, padded. -/
def padded (b : List Nat) : List Nat := b ++ List.replicate (29 - b.length) 0

/-- The line that an encoding gives to the bytes behind its tag. -/
def decodeAs (e : Nat) (b : List Nat) : Line :=
  match e with
  | 0 => 0
  | 1 => bytesLine (List.replicate 8 (b.take 8)).flatten
  | 2 => undelta 8 1 b
  | 3 => undelta 4 1 b
  | 4 => undelta 8 2 b
  | 5 => undelta 8 3 b
  | _ => bytesLine (unsparse (ofLE (b.take 8)) 64 0 (b.drop 8))

/-- The bytes `b` are the encoding `e` of the line `d`. -/
structure Encodes (e : Nat) (b : List Nat) (d : Line) : Prop where
  tag : e ≤ 6
  length : b.length ≤ 29
  bytes : ∀ x ∈ b, x < 256
  map : e = 6 → popCount 64 (ofLE ((padded b).take 8)) ≤ 21
  size : encSize e (padded b) = b.length
  decode : decodeAs e (padded b) = d

theorem padTo_cons {e : Nat} {b : List Nat} : padTo 30 (e :: b) = e :: padded b := by
  simp [padTo, padded]

/-- An encoded field has 30 bytes and decodes to its line. -/
theorem Encodes.field {e : Nat} {b : List Nat} {d : Line} (h : Encodes e b d) :
    (padTo 30 (e :: b)).length = 30 ∧ (∀ x ∈ padTo 30 (e :: b), x < 256) ∧ decodeField (padTo 30 (e :: b)) = some d := by
  obtain ⟨htag, hlen, hbytes, hmap, hsize, hdec⟩ := h
  rw [padTo_cons]
  refine ⟨by simp [padded]; omega, ?_, ?_⟩
  · intro x hx
    simp only [padded, List.mem_cons, List.mem_append, List.mem_replicate] at hx
    rcases hx with rfl | hx | ⟨-, rfl⟩
    · omega
    · exact hbytes x hx
    · decide
  · have hzeros : ((padded b).drop (encSize e (padded b))).any (· ≠ 0) = false := by
      rw [hsize, padded, List.drop_left]
      simp
    have hbody : decodeField (e :: padded b) = if e > 6 then none
        else if e = 6 ∧ popCount 64 (ofLE ((padded b).take 8)) > 21 then none
        else if ((padded b).drop (encSize e (padded b))).any (· ≠ 0) then none
        else some (decodeAs e (padded b)) := rfl
    rw [hbody, if_neg (by omega), if_neg fun hc => by have := hmap hc.1; omega, hzeros, hdec]
    rfl

/-! ## Zero and repeated words -/

theorem encodes_zero : Encodes 0 [] 0 :=
  ⟨by decide, by decide, by simp, by decide, rfl, rfl⟩

theorem take_padded {b : List Nat} {n : Nat} (h : n ≤ b.length) : (padded b).take n = b.take n :=
  List.take_append_of_le_length h

theorem encodes_repeated {d : Line} (h : ∀ i < 8, lineWord d 8 i = lineWord d 8 0) :
    Encodes 1 (toLE 8 (lineWord d 8 0)) d := by
  refine ⟨by decide, by simp, fun x hx => lt_of_mem_toLE hx, fun h6 => absurd h6 (by decide), by simp [encSize], ?_⟩
  have hwords : List.replicate 8 (toLE 8 (lineWord d 8 0)) = (List.range 8).map fun i => toLE 8 (lineWord d 8 i) := by
    rw [List.map_congr_left (g := fun _ => toLE 8 (lineWord d 8 0)) fun i hi => by rw [h i (List.mem_range.mp hi)]]
    rfl
  rw [decodeAs, take_padded (by simp), List.take_of_length_le (by simp), hwords, bytesLine_words d (by decide)]

/-! ## Base and deltas -/

/-- The encodings of base and deltas, as word and delta sizes. -/
def deltaSizes : List (Nat × Nat) := [(8, 1), (4, 1), (8, 2), (8, 3)]

theorem piecesOf_flatten {m : Nat} {l : List (List Nat)} (h : ∀ x ∈ l, x.length = m) (z : List Nat) :
    piecesOf m l.length (l.flatten ++ z) = l := by
  induction l with
  | nil => rfl
  | cons x l ih =>
    have hx := h x (by simp)
    rw [List.length_cons, piecesOf, List.flatten_cons, List.append_assoc, ← hx, List.take_left, List.drop_left, hx,
      ih fun y hy => h y (by simp [hy])]

section
variable {n m : Nat} (hnm : (n, m) ∈ deltaSizes)
include hnm

/-- A delta of few bytes is given back by its sign. -/
theorem signExtend_mod {v : Nat} (hv : v < 2 ^ (8 * n)) (h : fitsSigned n m v = true) :
    signExtend n m (v % 256 ^ m) = v := by
  simp only [deltaSizes, List.mem_cons, Prod.mk.injEq, List.not_mem_nil, or_false] at hnm
  simp only [fitsSigned, Bool.or_eq_true, decide_eq_true_eq] at h
  rcases hnm with ⟨rfl, rfl⟩ | ⟨rfl, rfl⟩ | ⟨rfl, rfl⟩ | ⟨rfl, rfl⟩ <;> norm_num [signExtend] at h hv ⊢ <;>
    split <;> omega

theorem deltaSizes_words : n * (64 / n) = 64 ∧ 64 / n = 64 / n - 1 + 1 ∧ n + m * (64 / n - 1) ≤ 29 := by
  simp only [deltaSizes, List.mem_cons, Prod.mk.injEq, List.not_mem_nil, or_false] at hnm
  rcases hnm with ⟨rfl, rfl⟩ | ⟨rfl, rfl⟩ | ⟨rfl, rfl⟩ | ⟨rfl, rfl⟩ <;> decide

end

theorem word_of_delta (d : Line) (n i : Nat) : (lineWord d n 0 + deltaOf d n i) % 2 ^ (8 * n) = lineWord d n i := by
  have h0 := lineWord_lt d n 0
  have hi := lineWord_lt d n i
  rw [deltaOf, Nat.add_mod_mod, show lineWord d n 0 + (lineWord d n i + (2 ^ (8 * n) - lineWord d n 0)) =
    lineWord d n i + 2 ^ (8 * n) by omega, Nat.add_mod_right, Nat.mod_eq_of_lt hi]

/-- The deltas of a line's words but the first. -/
def lineDeltas (d : Line) (n : Nat) : List Nat := (List.range (64 / n - 1)).map fun i => deltaOf d n (i + 1)

section
variable {d : Line} {n m : Nat} (hnm : (n, m) ∈ deltaSizes) (hfit : (lineDeltas d n).all (fitsSigned n m) = true)

theorem length_deltaBytes (d : Line) (n m : Nat) :
    (toLE n (lineWord d n 0) ++ ((lineDeltas d n).map (toLE m)).flatten).length = n + m * (64 / n - 1) := by
  have hconst : ((lineDeltas d n).map (toLE m)).map List.length = List.replicate (64 / n - 1) m := by
    rw [List.map_map, List.eq_replicate_iff]
    exact ⟨by simp [lineDeltas], by simp⟩
  rw [List.length_append, length_toLE, List.length_flatten, hconst, List.sum_replicate, smul_eq_mul, Nat.mul_comm]

include hnm hfit

theorem undelta_deltaBytes (z : List Nat) :
    undelta n m (toLE n (lineWord d n 0) ++ ((lineDeltas d n).map (toLE m)).flatten ++ z) = d := by
  obtain ⟨hwords, hcount, -⟩ := deltaSizes_words hnm
  have hbase : ofLE (toLE n (lineWord d n 0)) = lineWord d n 0 := by
    rw [ofLE_toLE, ← Nat.mod_eq_of_lt (lineWord_lt d n 0), Nat.pow_mul]
    simp
  have hpieces : piecesOf m (64 / n - 1) (((lineDeltas d n).map (toLE m)).flatten ++ z) = (lineDeltas d n).map (toLE m) := by
    have h := piecesOf_flatten (m := m) (l := (lineDeltas d n).map (toLE m)) (by simp) z
    rwa [show ((lineDeltas d n).map (toLE m)).length = 64 / n - 1 by simp [lineDeltas]] at h
  have hdeltas : (((lineDeltas d n).map (toLE m)).map ofLE).map
      (fun v => (lineWord d n 0 + signExtend n m v) % 2 ^ (8 * n)) =
      (List.range (64 / n - 1)).map fun i => lineWord d n (i + 1) := by
    simp only [lineDeltas, List.map_map]
    refine List.map_congr_left fun i hi => ?_
    have hf : fitsSigned n m (deltaOf d n (i + 1)) = true :=
      List.all_eq_true.mp hfit _ (List.mem_map_of_mem hi)
    have hlt : deltaOf d n (i + 1) < 2 ^ (8 * n) := Nat.mod_lt _ (Nat.two_pow_pos _)
    simp only [Function.comp_apply, ofLE_toLE]
    rw [signExtend_mod hnm hlt hf, word_of_delta]
  have hlist : (lineWord d n 0 :: (List.range (64 / n - 1)).map fun i => lineWord d n (i + 1)) =
      (List.range (64 / n)).map (lineWord d n) := by
    rw [hcount, List.range_succ_eq_map, List.map_cons, List.map_map]
    rfl
  unfold undelta
  rw [List.append_assoc, List.take_left' (length_toLE ..), List.drop_left' (length_toLE ..)]
  simp only [hbase, hpieces]
  rw [hdeltas, hlist, List.map_map]
  exact bytesLine_words d hwords

theorem encodes_delta {e : Nat} (he : e ≤ 5) (hsize : ∀ b, encSize e b = n + m * (64 / n - 1))
    (hdec : ∀ b, decodeAs e b = undelta n m b) :
    Encodes e (toLE n (lineWord d n 0) ++ ((lineDeltas d n).map (toLE m)).flatten) d := by
  refine ⟨by omega, ?_, ?_, fun h6 => absurd h6 (by omega), ?_, ?_⟩
  · rw [length_deltaBytes]; exact (deltaSizes_words hnm).2.2
  · intro x hx
    rcases List.mem_append.mp hx with hx | hx
    · exact lt_of_mem_toLE hx
    · obtain ⟨l, hl, hx⟩ := List.mem_flatten.mp hx
      obtain ⟨v, -, rfl⟩ := List.mem_map.mp hl
      exact lt_of_mem_toLE hx
  · rw [hsize, length_deltaBytes]
  · rw [hdec]; exact undelta_deltaBytes hnm hfit _

end

theorem baseDelta_eq_some {d : Line} {n m : Nat} {b : List Nat} (h : baseDelta d n m = some b) :
    (lineDeltas d n).all (fitsSigned n m) = true ∧ toLE n (lineWord d n 0) ++ ((lineDeltas d n).map (toLE m)).flatten = b := by
  unfold baseDelta at h
  simp only [Option.ite_none_right_eq_some, Option.some.injEq] at h
  exact h

/-! ## Sparse lines -/

/-- The bit map of the nonzero bytes. -/
def sparseMap (bs : List Nat) (n : Nat) : Nat :=
  (List.range n).foldl (fun m b => if bs.getD b 0 ≠ 0 then m + 2 ^ b else m) 0

theorem sparseMap_succ (bs : List Nat) (n : Nat) :
    sparseMap bs (n + 1) = if bs.getD n 0 ≠ 0 then sparseMap bs n + 2 ^ n else sparseMap bs n := by
  rw [sparseMap, List.range_succ, List.foldl_append]
  rfl

theorem sparseMap_lt (bs : List Nat) (n : Nat) : sparseMap bs n < 2 ^ n := by
  induction n with
  | zero => exact Nat.one_pos
  | succ n ih =>
    rw [sparseMap_succ, Nat.pow_succ]
    split <;> omega

theorem testBit_sparseMap (bs : List Nat) {n i : Nat} (hi : i < n) : (sparseMap bs n).testBit i = decide (bs.getD i 0 ≠ 0) := by
  induction n with
  | zero => omega
  | succ n ih =>
    rw [sparseMap_succ]
    have hlt := sparseMap_lt bs n
    obtain rfl | hin : i = n ∨ i < n := by omega
    · split
      · next h => rw [show sparseMap bs i + 2 ^ i = 2 ^ i * 1 + sparseMap bs i by omega,
          Nat.testBit_two_pow_mul_add _ hlt, decide_eq_true h]; simp
      · next h => rw [Nat.testBit_lt_two_pow hlt, decide_eq_false h]
    · split
      · rw [show sparseMap bs n + 2 ^ n = 2 ^ n * 1 + sparseMap bs n by omega,
          Nat.testBit_two_pow_mul_add _ hlt, if_pos hin, ih hin]
      · exact ih hin

/-- The bits of `x` tell the nonzero bytes of a list. -/
def Maps (x : Nat) (l : List Nat) : Prop := ∀ i < l.length, x.testBit i = decide (l.getD i 0 ≠ 0)

theorem Maps.tail {x y : Nat} {l : List Nat} (h : Maps x (y :: l)) : Maps (x / 2) l := fun i hi => by
  have := h (i + 1) (by simpa using hi)
  rwa [Nat.testBit_add_one, List.getD_cons_succ] at this

theorem popCount_of_maps {x : Nat} {l : List Nat} (h : Maps x l) : popCount l.length x = (l.filter (· ≠ 0)).length := by
  induction l generalizing x with
  | nil => rfl
  | cons y l ih =>
    have h0 := h 0 (by simp)
    rw [List.length_cons, popCount, ih h.tail]
    rw [Nat.testBit_zero, List.getD_cons_zero, decide_eq_decide] at h0
    by_cases hy : y = 0
    · have : x % 2 = 0 := by have := mt h0.mp (by simpa using hy); omega
      simp [hy, this]
    · have : x % 2 = 1 := h0.mpr hy
      simp [hy, this, Nat.add_comm]

theorem unsparse_of_maps {x i : Nat} {l : List Nat} (h : ∀ j < l.length, x.testBit (i + j) = decide (l.getD j 0 ≠ 0))
    (z : List Nat) : unsparse x l.length i (l.filter (· ≠ 0) ++ z) = l := by
  induction l generalizing i with
  | nil => rfl
  | cons y l ih =>
    have h0 : x.testBit i = decide (y ≠ 0) := h 0 (by simp)
    have ih := ih (i := i + 1) fun j hj => by
      have := h (j + 1) (by simpa using hj)
      rwa [List.getD_cons_succ, ← Nat.add_assoc, Nat.add_right_comm] at this
    rw [List.length_cons, unsparse, h0]
    by_cases hy : y = 0
    · simpa [hy] using ih
    · simpa [hy] using ih

theorem sparseOf_eq_some {d : Line} {b : List Nat} (h : sparseOf d = some b) :
    ((lineBytes d).filter (· ≠ 0)).length ≤ 21 ∧
    b = toLE 8 (sparseMap (lineBytes d) 64) ++ (lineBytes d).filter (· ≠ 0) := by
  unfold sparseOf at h
  simp only [Option.ite_none_right_eq_some, Option.some.injEq] at h
  exact ⟨h.1, h.2.symm⟩

theorem encodes_sparse {d : Line} (h : ((lineBytes d).filter (· ≠ 0)).length ≤ 21) :
    Encodes 6 (toLE 8 (sparseMap (lineBytes d) 64) ++ (lineBytes d).filter (· ≠ 0)) d := by
  have hlen := length_lineBytes d
  have hmaps : Maps (sparseMap (lineBytes d) 64) (lineBytes d) := fun i hi => testBit_sparseMap _ (by omega)
  have hpop := popCount_of_maps hmaps
  rw [hlen] at hpop
  have htake : ofLE ((padded (toLE 8 (sparseMap (lineBytes d) 64) ++ (lineBytes d).filter (· ≠ 0))).take 8) =
      sparseMap (lineBytes d) 64 := by
    rw [padded, List.append_assoc, List.take_left' (length_toLE ..), ofLE_toLE,
      Nat.mod_eq_of_lt (by simpa using sparseMap_lt (lineBytes d) 64)]
  have hdrop : (padded (toLE 8 (sparseMap (lineBytes d) 64) ++ (lineBytes d).filter (· ≠ 0))).drop 8 =
      (lineBytes d).filter (· ≠ 0) ++ List.replicate
        (29 - (toLE 8 (sparseMap (lineBytes d) 64) ++ (lineBytes d).filter (· ≠ 0)).length) 0 := by
    rw [padded, List.append_assoc, List.drop_left' (length_toLE ..)]
  refine ⟨by decide, by simp only [List.length_append, length_toLE]; omega, ?_, fun _ => ?_, ?_, ?_⟩
  · intro x hx
    rcases List.mem_append.mp hx with hx | hx
    · exact lt_of_mem_toLE hx
    · exact lt_of_mem_toLE (List.mem_filter.mp hx).1
  · rw [htake, hpop]; exact h
  · rw [encSize, htake, hpop, List.length_append, length_toLE]
    all_goals simp
  · rw [decodeAs, htake, hdrop]
    · have hun := unsparse_of_maps (x := sparseMap (lineBytes d) 64) (i := 0) (l := lineBytes d)
        (fun j hj => by rw [Nat.zero_add]; exact hmaps j hj)
      rw [hlen] at hun
      rw [hun, bytesLine_lineBytes]
    all_goals simp

/-! ## Encoded fields -/

/-- What an encoding gives is one of the line (R285). -/
theorem encodes_of_encodeAs {d : Line} {e : Nat} {b : List Nat} (h : encodeAs d e = some b) : Encodes e b d := by
  unfold encodeAs at h
  split at h
  · obtain ⟨rfl, rfl⟩ : d = 0 ∧ [] = b := by simpa using h
    exact encodes_zero
  · obtain ⟨hall, rfl⟩ : (∀ i < 8, lineWord d 8 i = lineWord d 8 0) ∧ toLE 8 (lineWord d 8 0) = b := by
      simpa [Option.ite_none_right_eq_some] using h
    exact encodes_repeated hall
  · obtain ⟨hfit, rfl⟩ := baseDelta_eq_some h
    exact encodes_delta (by decide) hfit (by decide) (fun _ => rfl) (fun _ => rfl)
  · obtain ⟨hfit, rfl⟩ := baseDelta_eq_some h
    exact encodes_delta (by decide) hfit (by decide) (fun _ => rfl) (fun _ => rfl)
  · obtain ⟨hfit, rfl⟩ := baseDelta_eq_some h
    exact encodes_delta (by decide) hfit (by decide) (fun _ => rfl) (fun _ => rfl)
  · obtain ⟨hfit, rfl⟩ := baseDelta_eq_some h
    exact encodes_delta (by decide) hfit (by decide) (fun _ => rfl) (fun _ => rfl)
  · obtain ⟨hle, rfl⟩ := sparseOf_eq_some h
    exact encodes_sparse hle
  · simp at h

theorem encodeField_eq_some {d : Line} {f : List Nat} (h : encodeField d = some f) :
    ∃ e b, Encodes e b d ∧ padTo 30 (e :: b) = f := by
  unfold encodeField at h
  split at h
  · next e _ =>
    obtain ⟨b, hb, rfl⟩ := Option.map_eq_some_iff.mp h
    exact ⟨e, b, encodes_of_encodeAs hb, rfl⟩
  · simp at h

theorem encodeField_spec {d : Line} {f : List Nat} (h : encodeField d = some f) :
    f.length = 30 ∧ (∀ b ∈ f, b < 256) ∧ decodeField f = some d := by
  obtain ⟨e, b, henc, rfl⟩ := encodeField_eq_some h
  exact henc.field

/-! ## Packed slots (R287) -/

theorem crcStep_lt {poly c : Nat} (hpoly : poly < 2 ^ 32) (n : Nat) (hc : c < 2 ^ 32) : crcStep poly n c < 2 ^ 32 := by
  induction n generalizing c with
  | zero => exact hc
  | succ n ih =>
    refine ih ?_
    split
    · exact Nat.xor_lt_two_pow (by omega) hpoly
    · omega

theorem crc32c_lt {bs : List Nat} (h : ∀ b ∈ bs, b < 256) : crc32c bs < 2 ^ 32 := by
  have hfold : ∀ bs : List Nat, (∀ b ∈ bs, b < 256) → ∀ c < 2 ^ 32,
      bs.foldl (fun c b => crcStep 0x82F63B78 8 (c ^^^ b)) c < 2 ^ 32 := by
    intro bs
    induction bs with
    | nil => exact fun _ _ hc => hc
    | cons b bs ih =>
      intro hb c hc
      have hlt := hb b (by simp)
      exact ih (fun x hx => hb x (by simp [hx])) _
        (crcStep_lt (by decide) 8 (Nat.xor_lt_two_pow hc (by omega)))
  exact Nat.xor_lt_two_pow (hfold bs h _ (by decide)) (by decide)

theorem pairCheck_lt (a b : Line) : pairCheck a b < 2 ^ 32 :=
  crc32c_lt fun x hx => by
    rcases List.mem_append.mp hx with hx | hx <;> exact lt_of_mem_toLE hx

theorem packPair_eq_some {a b p : Line} (h : packPair a b = some p) :
    ∃ x y, encodeField a = some x ∧ encodeField b = some y ∧ p = bytesLine (x ++ y ++ toLE 4 (pairCheck a b)) := by
  unfold packPair at h
  split at h
  · next x y hx hy => exact ⟨x, y, hx, hy, (Option.some.inj h).symm⟩
  · simp at h

theorem unpackPair_packPair {a b p : Line} (h : packPair a b = some p) : unpackPair p = some (a, b) := by
  obtain ⟨x, y, hx, hy, rfl⟩ := packPair_eq_some h
  obtain ⟨hxlen, hxlt, hxdec⟩ := encodeField_spec hx
  obtain ⟨hylen, hylt, hydec⟩ := encodeField_spec hy
  have hbytes : lineBytes (bytesLine (x ++ y ++ toLE 4 (pairCheck a b))) = x ++ y ++ toLE 4 (pairCheck a b) := by
    refine lineBytes_bytesLine (by simp [hxlen, hylen]) fun v hv => ?_
    rcases List.mem_append.mp hv with hv | hv
    · rcases List.mem_append.mp hv with hv | hv
      · exact hxlt v hv
      · exact hylt v hv
    · exact lt_of_mem_toLE hv
  have hfst : (x ++ y ++ toLE 4 (pairCheck a b)).take 30 = x := by
    rw [List.append_assoc, List.take_left' hxlen]
  have hsnd : ((x ++ y ++ toLE 4 (pairCheck a b)).drop 30).take 30 = y := by
    rw [List.append_assoc, List.drop_left' hxlen, List.take_left' hylen]
  have hcheck : ofLE ((x ++ y ++ toLE 4 (pairCheck a b)).drop 60) = pairCheck a b := by
    rw [List.drop_left' (by simp [hxlen, hylen]), ofLE_toLE, Nat.mod_eq_of_lt (by simpa using pairCheck_lt a b)]
  unfold unpackPair
  rw [hbytes]
  simp only [hfst, hsnd, hxdec, hydec, hcheck, if_true]

theorem isSome_packPair (a b : Line) : (packPair a b).isSome = (fits a && fits b) := by
  unfold packPair fits
  cases encodeField a <;> cases encodeField b <;> rfl

/-- Settles O20: each encoding keeps what its decode reads, and the fields and the check value stand apart in the slot. -/
theorem packedPairOpensToItsLines : Obligations.PackedPairOpensToItsLines := by
  unfold Obligations.PackedPairOpensToItsLines
  exact ⟨fun _ _ => encodeField_spec, fun _ _ _ => unpackPair_packPair, isSome_packPair⟩

end Sys2Proof.Machine

/-! # Grist: its check, its bands, and a configuration that the check does not catch (R98, R99, R103, R106) -/

namespace Sys2Proof.Machine

/-! ## More RANK bits than masks

R103's check takes MATRIX_RANK over the four masks that RANK outputs have. A configuration record with five RANK bits
(the fields of GC_GRIST_CTRL spell none that the check passes, `gcfg` never yields it) has a home bit that no mask
covers, and WIDTH does not catch it. -/

/-- Two CH bits, five RANK bits, 16 ROW bits, and the identity on the outputs that have masks. -/
def fiveRankBits : GCfg :=
  ⟨2, 0, 0, 5, 16, [2 ^ 1, 2 ^ 2, 0, 0, 2 ^ 3, 2 ^ 10, 2 ^ 11, 2 ^ 12, 2 ^ 13, 2 ^ 14, 2 ^ 15, 2 ^ 16, 2 ^ 17, 2 ^ 18], 0, 0, 0, 0⟩

/-- Refutes O4: with five RANK bits the check passes, and the lines 0 and 2^19, which differ in the home bit of the fifth,
have one location. -/
theorem not_gristMapsNoTwoLinesToOneLocation : ¬ Obligations.GristMapsNoTwoLinesToOneLocation := by
  unfold Obligations.GristMapsNoTwoLinesToOneLocation
  intro h
  have heq : 0 = 2 ^ 19 := h fiveRankBits (by decide +kernel) 0 (2 ^ 19) (by decide) (by decide) (by decide +kernel)
  exact absurd heq (by decide)

/-! ## Rows -/

/-- A line of the populated capacity has its slice's row (R98). -/
theorem gristMap_row {g : GCfg} {la : Nat} (h : la < capLines g) : (gristMap g la).row = la / sliceLines g :=
  Nat.mod_eq_of_lt (Nat.div_lt_of_lt_mul (by rwa [capLines, Nat.mul_comm] at h))

/-- The data band holds the lines below the data top (R106). -/
theorem gristMap_row_lt_dataRows {g : GCfg} {la : Nat} (h : la < capLines g) :
    (gristMap g la).row < dataRows g ↔ la < dataTop g := by
  rw [gristMap_row h, Nat.div_lt_iff_lt_mul (show 0 < sliceLines g from Nat.two_pow_pos _), dataTop]

/-! ## The end of the check -/

/-- The flags of a failed check, as the status update sets them. -/
def checkFlags (k : GCheck) : List (Fld × Nat) :=
  (([(GC_GRIST_STATUS_WIDTH, k.width), (GC_GRIST_STATUS_MASK_RANGE, k.maskRange),
    (GC_GRIST_STATUS_SINGULAR, k.singular), (GC_GRIST_STATUS_CARVE, k.carve),
    (GC_GRIST_STATUS_SPARE_SHORT, k.spareShort)] : List (Fld × Bool)).filter (·.2)).map fun f => (f.1, 1)

theorem checkFlags_of_ok {k : GCheck} (h : k.ok = true) : checkFlags k = [] := by
  obtain ⟨w, m, s, c, p, r⟩ := k
  simp only [GCheck.ok, Bool.not_eq_true', Bool.or_eq_false_iff] at h
  obtain ⟨⟨⟨⟨rfl, rfl⟩, rfl⟩, rfl⟩, rfl⟩ := h
  rfl

/-- The engine at the end of the check, with MATRIX_RANK. -/
def checkRanked (e : Engine) (t : Nat) : Engine :=
  wr (tick e (t - e.clk.cyc)) GC_GRIST_STATUS_MATRIX_RANK (matrixRank (gcfg e))

/-- No check is in progress. -/
def checkEnded (e : Engine) : Engine := { e with dbg := { e.dbg with gristEnd := none } }

theorem gristDone_eq {e : Engine} {t : Nat} {int : Bool} (hrun : e.dbg.gristEnd = some (t, int)) (hclk : clocked e = true) :
    gristDone e =
      let x := checkEnded (sqSet (checkRanked e t) GC_GRIST_STATUS (checkFlags (gristCheck (gcfg e))))
      if (gristCheck (gcfg e)).ok then wr (wr x GC_GRIST_CTRL_GRIST_EN 1) GC_DATA_ROWS_DATA_ROWS (dataRows (gcfg e))
      else reject x (if int then .mc01 else .ext) GC_GRIST_CTRL 1 := by
  unfold gristDone
  rw [hrun]
  simp only [hclk, Bool.true_eq_false, if_false]
  rfl

/-- Settles O5: ROW is the home field; the check's end sets GRIST_EN where no flag's condition holds, else the flags. -/
theorem gristChecksItsConfigurationAndBands : Obligations.GristChecksItsConfigurationAndBands := by
  unfold Obligations.GristChecksItsConfigurationAndBands
  refine ⟨fun g la _ hla => gristMap_row_lt_dataRows hla, fun s t int hrun hclk => ?_⟩
  have hend := gristDone_eq hrun hclk
  refine ⟨fun hok => run_of_eq (hend.trans ?_), fun hbad => run_of_eq (hend.trans ?_)⟩
  · simp only [hok, if_true, checkFlags_of_ok hok]
    rw [sqSet_of_eq _ _ [] rfl]
    rfl
  · simp only [hbad, Bool.false_eq_true, if_false]
    rfl

end Sys2Proof.Machine

/-! # Fields of metadata lines, and the versions that never repeat (R288, R325, R328, R329) -/

namespace Sys2Proof.Machine

/-! ## A field of a number replaced -/

/-- Field of `w` bits from bit `lo` of a number, replaced. -/
def putBits (x lo w v : Nat) : Nat := x - x / 2 ^ lo % 2 ^ w * 2 ^ lo + v % 2 ^ w * 2 ^ lo

theorem putBits_eq (x lo w v : Nat) :
    putBits x lo w v = 2 ^ lo * (2 ^ w * (x / 2 ^ lo / 2 ^ w) + v % 2 ^ w) + x % 2 ^ lo := by
  have h1 := Nat.div_add_mod x (2 ^ lo)
  have h2 := Nat.div_add_mod (x / 2 ^ lo) (2 ^ w)
  have hsplit : x = 2 ^ lo * (2 ^ w * (x / 2 ^ lo / 2 ^ w)) + x / 2 ^ lo % 2 ^ w * 2 ^ lo + x % 2 ^ lo := by
    rw [Nat.mul_comm _ (2 ^ lo), ← Nat.mul_add, h2, h1]
  have hsub : x - x / 2 ^ lo % 2 ^ w * 2 ^ lo = 2 ^ lo * (2 ^ w * (x / 2 ^ lo / 2 ^ w)) + x % 2 ^ lo := by omega
  rw [putBits, hsub, Nat.mul_add, Nat.mul_comm (v % 2 ^ w)]
  omega

theorem testBit_putBits (x lo w v i : Nat) : (putBits x lo w v).testBit i =
    if lo ≤ i ∧ i < lo + w then v.testBit (i - lo) else x.testBit i := by
  rw [putBits_eq, Nat.testBit_two_pow_mul_add _ (Nat.mod_lt _ (Nat.two_pow_pos _)),
    Nat.testBit_two_pow_mul_add _ (Nat.mod_lt _ (Nat.two_pow_pos _)), Nat.testBit_mod_two_pow, Nat.testBit_mod_two_pow,
    Nat.testBit_div_two_pow, Nat.testBit_div_two_pow]
  by_cases hlo : i < lo
  · simp [hlo, show ¬ lo ≤ i by omega]
  · by_cases hw : i - lo < w
    · simp [hlo, hw, show lo ≤ i ∧ i < lo + w by omega]
    · simp [hlo, hw, show ¬ (lo ≤ i ∧ i < lo + w) by omega, show i - lo - w + w + lo = i by omega]

/-- The field reads back. -/
theorem bits_putBits_same (x lo w v : Nat) : putBits x lo w v / 2 ^ lo % 2 ^ w = v % 2 ^ w := by
  refine Nat.eq_of_testBit_eq fun i => ?_
  rw [Nat.testBit_mod_two_pow, Nat.testBit_div_two_pow, testBit_putBits, Nat.testBit_mod_two_pow]
  by_cases hi : i < w
  · simp [hi, show lo ≤ i + lo ∧ i + lo < lo + w by omega]
  · simp [hi]

/-- A field apart from it stays. -/
theorem bits_putBits_apart (x lo w v : Nat) {lo' w' : Nat} (h : lo' + w' ≤ lo ∨ lo + w ≤ lo') :
    putBits x lo w v / 2 ^ lo' % 2 ^ w' = x / 2 ^ lo' % 2 ^ w' := by
  refine Nat.eq_of_testBit_eq fun i => ?_
  rw [Nat.testBit_mod_two_pow, Nat.testBit_div_two_pow, testBit_putBits, Nat.testBit_mod_two_pow, Nat.testBit_div_two_pow]
  by_cases hi : i < w'
  · simp [hi, show ¬ (lo ≤ i + lo' ∧ i + lo' < lo + w) by omega]
  · simp [hi]

theorem putBits_lt {x lo w v n : Nat} (hx : x < 2 ^ n) (h : lo + w ≤ n) : putBits x lo w v < 2 ^ n :=
  Nat.lt_pow_two_of_testBit _ fun i hi => by
    rw [testBit_putBits, if_neg (by omega)]
    exact Nat.testBit_lt_two_pow (hx.trans_le (Nat.pow_le_pow_right (by decide) hi))

/-! ## A field of a line replaced -/

/-- A field of a line. -/
def lineBits (d : Line) (lo w : Nat) : Nat := d.toNat / 2 ^ lo % 2 ^ w

/-- A field of a line, replaced. -/
def putLineBits (d : Line) (lo w v : Nat) : Line := BitVec.ofNat 512 (putBits d.toNat lo w v)

section
variable (d : Line) {lo w lo' w' : Nat} (v : Nat) (h : lo + w ≤ 512)
include h

theorem toNat_putLineBits : (putLineBits d lo w v).toNat = putBits d.toNat lo w v := by
  rw [putLineBits, BitVec.toNat_ofNat, Nat.mod_eq_of_lt (putBits_lt d.isLt h)]

theorem lineBits_putLineBits_same : lineBits (putLineBits d lo w v) lo w = v % 2 ^ w := by
  rw [lineBits, toNat_putLineBits d v h, bits_putBits_same]

theorem lineBits_putLineBits_apart (ha : lo' + w' ≤ lo ∨ lo + w ≤ lo') :
    lineBits (putLineBits d lo w v) lo' w' = lineBits d lo' w' := by
  rw [lineBits, toNat_putLineBits d v h, bits_putBits_apart _ _ _ _ ha, lineBits]

end

theorem setScBits_eq (d : Line) (la v : Nat) : setScBits d la v = putLineBits d (la % 512 / 2 * 2) 2 v := rfl
theorem scBits_eq (d : Line) (la : Nat) : scBits d la = lineBits d (la % 512 / 2 * 2) 2 := rfl
theorem setMacAt_eq (d : Line) (p v : Nat) : setMacAt d p v = putLineBits d (56 * p) 56 v := rfl
theorem macAt_eq (d : Line) (p : Nat) : macAt d p = lineBits d (56 * p) 56 := rfl
theorem setMinor_eq (d : Line) (p v : Nat) : setMinor d p v = putLineBits d (7 * p) 7 v := rfl
theorem minorOf_eq (d : Line) (p : Nat) : minorOf d p = lineBits d (7 * p) 7 := rfl
theorem majorOf_eq (d : Line) : majorOf d = lineBits d 448 56 := rfl

/-- The check byte is the top one. -/
theorem checkByte_eq (d : Line) : checkByte d = lineBits d 504 8 :=
  (Nat.mod_eq_of_lt (Nat.div_lt_of_lt_mul (by rw [← Nat.pow_add]; exact d.isLt))).symm

/-! ## Size-class bits, MACs and minors -/

theorem scBits_setScBits (d : Line) (v la mb : Nat) :
    scBits (setScBits d la v) mb = if la % 512 / 2 = mb % 512 / 2 then v % 4 else scBits d mb := by
  rw [setScBits_eq, scBits_eq, scBits_eq]
  split
  · next h => rw [← h]; exact lineBits_putLineBits_same d v (by omega)
  · exact lineBits_putLineBits_apart d v (by omega) (by omega)

theorem macAt_setMacAt (d : Line) (v : Nat) {p : Nat} (q : Nat) (hp : p < 9) :
    macAt (setMacAt d p v) q = if p = q then v % 2 ^ 56 else macAt d q := by
  rw [setMacAt_eq, macAt_eq, macAt_eq]
  split
  · next h => rw [← h, lineBits_putLineBits_same d v (by omega)]
  · exact lineBits_putLineBits_apart d v (by omega) (by omega)

theorem checkByte_setMacAt (d : Line) (v : Nat) {p : Nat} (hp : p < 9) : checkByte (setMacAt d p v) = checkByte d := by
  rw [setMacAt_eq, checkByte_eq, checkByte_eq]
  exact lineBits_putLineBits_apart d v (by omega) (by omega)

theorem minorOf_setMinor (d : Line) (v : Nat) {p : Nat} (q : Nat) (hp : p < 64) :
    minorOf (setMinor d p v) q = if p = q then v % 128 else minorOf d q := by
  rw [setMinor_eq, minorOf_eq, minorOf_eq]
  split
  · next h => rw [← h]; exact lineBits_putLineBits_same d v (by omega)
  · exact lineBits_putLineBits_apart d v (by omega) (by omega)

theorem majorOf_setMinor (d : Line) (v : Nat) {p : Nat} (hp : p < 64) : majorOf (setMinor d p v) = majorOf d := by
  rw [setMinor_eq, majorOf_eq, majorOf_eq]
  exact lineBits_putLineBits_apart d v (by omega) (by omega)

theorem checkByte_setMinor (d : Line) (v : Nat) {p : Nat} (hp : p < 64) : checkByte (setMinor d p v) = checkByte d := by
  rw [setMinor_eq, checkByte_eq, checkByte_eq]
  exact lineBits_putLineBits_apart d v (by omega) (by omega)

/-! ## A rebase -/

/-- A rebased line holds its MAJOR and nothing else. -/
theorem rebased_eq (d : Line) : rebased d = putLineBits 0 448 56 (majorOf d + 1) := by
  simp [rebased, putLineBits, putBits]

theorem lineBits_zero (lo w : Nat) : lineBits 0 lo w = 0 := by simp [lineBits]

theorem majorOf_rebased (d : Line) : majorOf (rebased d) = (majorOf d + 1) % 2 ^ 56 := by
  rw [rebased_eq, majorOf_eq (putLineBits ..), lineBits_putLineBits_same _ _ (by omega)]

theorem minorOf_rebased (d : Line) {p : Nat} (hp : p < 64) : minorOf (rebased d) p = 0 := by
  rw [rebased_eq, minorOf_eq, lineBits_putLineBits_apart _ _ (by omega) (by omega), lineBits_zero]

theorem checkByte_rebased (d : Line) : checkByte (rebased d) = 0 := by
  rw [rebased_eq, checkByte_eq, lineBits_putLineBits_apart _ _ (by omega) (by omega), lineBits_zero]

/-- Settles O24: each is a field of its own bits. -/
theorem metadataFieldsAreSeparate : Obligations.MetadataFieldsAreSeparate := by
  unfold Obligations.MetadataFieldsAreSeparate
  exact fun d v => ⟨scBits_setScBits d v, fun p q hp _ => macAt_setMacAt d v q hp, fun p hp => checkByte_setMacAt d v hp,
    fun p q hp _ => minorOf_setMinor d v q hp, fun p hp => ⟨majorOf_setMinor d v hp, checkByte_setMinor d v hp⟩,
    fun p hp => ⟨majorOf_rebased d, minorOf_rebased d hp, checkByte_rebased d⟩⟩

/-- Settles O25: a minor counts within its field, and MAJOR stands above every minor. -/
theorem versionsNeverRepeat : Obligations.VersionsNeverRepeat := by
  unfold Obligations.VersionsNeverRepeat
  intro d p q hp hq
  refine ⟨fun hlast => ⟨?_, fun hne => ?_⟩, fun hmajor => ?_⟩
  · rw [verOf, verOf, majorOf_setMinor d _ hp, minorOf_setMinor d _ p hp, if_pos rfl]
    omega
  · rw [verOf, verOf, majorOf_setMinor d _ hp, minorOf_setMinor d _ q hp, if_neg hne.symm]
  · have hminor : minorOf d q < 128 := Nat.mod_lt _ (by decide)
    rw [verOf, verOf, majorOf_rebased, minorOf_rebased d hq, Nat.mod_eq_of_lt hmajor]
    omega

end Sys2Proof.Machine

/-! # Fields of registers: what a read returns after a write of the same and of another field -/

namespace Sys2Proof.Machine

/-- Two fields of one register share no bit, and the first lies in a word. -/
abbrev Fld.Apart (f g : Fld) : Prop := f.lo ≤ f.hi ∧ f.hi < 32 ∧ (g.hi < f.lo ∨ f.hi < g.lo)

theorem rd_setReg_ne (e : Engine) {a : Nat} (w : Word) {f : Fld} (h : f.addr ≠ a) : rd (setReg e a w) f = rd e f :=
  congrArg (fun w => wordField w f.hi f.lo) (reg_setReg_ne e w h)

theorem rd_wr_same (e : Engine) {f : Fld} (v : Nat) (hlo : f.lo ≤ f.hi) (hhi : f.hi < 32) :
    rd (wr e f v) f = v % 2 ^ (f.hi + 1 - f.lo) := by
  rw [rd, reg_wr_same, wordField_setWordField_same _ _ hlo hhi]

theorem rd_wr_ne (e : Engine) {f g : Fld} (v : Nat) (h : g.addr ≠ f.addr) : rd (wr e f v) g = rd e g :=
  rd_setReg_ne e _ h

theorem rd_wr_apart (e : Engine) {f g : Fld} (v : Nat) (ha : g.addr = f.addr) (h : f.Apart g) :
    rd (wr e f v) g = rd e g := by
  obtain ⟨hlo, hhi, hd⟩ := h
  rw [rd, rd, ha, reg_wr_same, wordField_setWordField_disjoint _ _ hlo hhi hd]

/-- A field that no later one of the list meets keeps what the list's front writes. -/
theorem wordField_setFields_apart (fs : List (Fld × Nat)) (g : Fld) (h : ∀ x ∈ fs, x.1.Apart g) (w : Word) :
    wordField (setFields w fs) g.hi g.lo = wordField w g.hi g.lo := by
  induction fs generalizing w with
  | nil => rfl
  | cons x fs ih =>
    obtain ⟨hlo, hhi, hd⟩ := h x (List.mem_cons_self ..)
    rw [setFields, ih fun y hy => h y (List.mem_cons_of_mem _ hy),
      wordField_setWordField_disjoint _ _ hlo hhi hd]

/-- A field of a list that meets no other one of it reads as written. -/
theorem wordField_setFields_mem (before after : List (Fld × Nat)) (f : Fld) (v : Nat) (hlo : f.lo ≤ f.hi)
    (hhi : f.hi < 32) (h : ∀ x ∈ after, x.1.Apart f) (w : Word) :
    wordField (setFields w (before ++ (f, v) :: after)) f.hi f.lo = v % 2 ^ (f.hi + 1 - f.lo) := by
  induction before generalizing w with
  | nil => rw [List.nil_append, setFields, wordField_setFields_apart after f h, wordField_setWordField_same _ _ hlo hhi]
  | cons x before ih => exact ih _

/-- A one-bit field of a status register is 1 after an event has set it. -/
theorem on_sqSet_flag (e : Engine) {f : Fld} (hone : f.lo = f.hi) (h : f.hi < 24) :
    on (sqSet e f.addr [(f, 1)]) f = true := by
  have hset : rd (sqSet e f.addr [(f, 1)]) f = 1 := by
    refine (rd_sqSet e f.addr [(f, 1)] f.lo h).trans ?_
    rw [setFields, setFields, wordField_setWordField_same _ _ (by omega) (by omega), hone, Nat.add_sub_cancel_left]
    rfl
  rw [on, hset]
  rfl

end Sys2Proof.Machine

/-! # The protection table: what its check denies, and a commit (R316, R317) -/

namespace Sys2Proof.Machine

/-- R316: a right of a set covers a need of read (1), or of read and write (3), as its two bits say. -/
theorem right_covers_iff {v : Nat} (hv : v = 0 ∨ v = 1 ∨ v = 3) :
    (v &&& 1 = 1 ↔ v = 1 ∨ v = 3) ∧ (v &&& 3 = 3 ↔ v = 3) := by
  rcases hv with rfl | rfl | rfl <;> decide

/-- R316: the right 0b10 is none, so a table of two-bit rights gives none, read, or read and write. -/
theorem rightOf_cases (b : ProtBank) (set agent : Nat) (h : tget 0 b.rights (4096 * set + agent) < 4) :
    rightOf b set agent = 0 ∨ rightOf b set agent = 1 ∨ rightOf b set agent = 3 := by
  unfold rightOf
  simp only
  split <;> omega

/-- A request needs read and write exactly where it writes, or asks for M. -/
theorem needRight_eq (r : Req) :
    needRight r = if r.op = .memWr ∨ r.op = .memWrPtl ∨ r.op = .placeWr ∨ (r.reqSt = 2 ∧ r.op ≠ .memRdData) then 3 else 1 := by
  unfold needRight
  cases r.op <;> by_cases h : r.reqSt = 2 <;> simp [isClass3, h]

/-- R316: in a region, a request is denied by its CTX, by its agent's right, or by its target's. -/
theorem denied_of_region {e : Engine} {r : Req} {g : Region} (h : regionOf e (curVer e) r.la = some g) :
    denied e r = true ↔ g.ctx ≠ r.ctx ∨
      ¬ rightOf (bankOf e (curVer e)) g.agset r.agent &&& needRight r = needRight r ∨
      (r.op = .placeWr ∧ ¬ rightOf (bankOf e (curVer e)) g.agset r.target &&& 1 = 1) := by
  unfold denied
  simp only [h, Bool.or_eq_true, bne_iff_ne, Bool.not_eq_true', beq_eq_false_iff_ne, Bool.and_eq_true, beq_iff_eq,
    or_assoc, ne_eq]

/-- Settles O23: the check's three tests, by whether a region covers the line and which right the request needs. -/
theorem protectionCheckDenies : Obligations.ProtectionCheckDenies := by
  unfold Obligations.ProtectionCheckDenies
  intro e r b can canW writes hrights
  cases hg : regionOf e (curVer e) r.la with
  | none => simp [denied, hg]
  | some g =>
    have hagent := right_covers_iff (rightOf_cases b g.agset r.agent (hrights _ _))
    have htarget := right_covers_iff (rightOf_cases b g.agset r.target (hrights _ _))
    rw [denied_of_region hg, needRight_eq r, htarget.1]
    by_cases hw : writes
    · rw [if_pos hw, hagent.2]
      simp [hw, can, canW, b]
    · rw [if_neg hw, hagent.1]
      simp [hw, can, b]

/-! ## A commit -/

theorem reg_commitTable (e : Engine) (b : ProtBank) : reg (commitTable e b) CRY_PT_VER =
    setFields (reg e CRY_PT_VER) [(CRY_PT_VER_VER, (curVer e + 1) % 65536),
      (CRY_PT_VER_BANK, (curVer e + 1) % 65536 % 2), (CRY_PT_VER_DRAINING, 1)] :=
  reg_setReg_same ..

theorem curVer_commitTable (e : Engine) (b : ProtBank) : curVer (commitTable e b) = (curVer e + 1) % 65536 := by
  have h := wordField_setFields_mem [] [(CRY_PT_VER_BANK, (curVer e + 1) % 65536 % 2), (CRY_PT_VER_DRAINING, 1)]
    CRY_PT_VER_VER ((curVer e + 1) % 65536) (by decide) (by decide) (by simp [Fld.Apart]) (reg e CRY_PT_VER)
  rw [curVer, rd, reg_commitTable]
  exact h.trans (Nat.mod_mod _ 65536)

theorem draining_commitTable (e : Engine) (b : ProtBank) : on (commitTable e b) CRY_PT_VER_DRAINING = true := by
  have h := wordField_setFields_mem [(CRY_PT_VER_VER, (curVer e + 1) % 65536), (CRY_PT_VER_BANK, (curVer e + 1) % 65536 % 2)]
    [] CRY_PT_VER_DRAINING 1 (by decide) (by decide) (by simp [Fld.Apart]) (reg e CRY_PT_VER)
  rw [on, rd, reg_commitTable]
  exact beq_iff_eq.2 h

theorem banks_commitTable (e : Engine) (b : ProtBank) :
    (commitTable e b).sec.banks = setNth e.sec.banks ((curVer e + 1) % 65536 % 2) b := rfl

/-- Settles O26: versions in succession have different banks, and the commit writes the new version's one. -/
theorem tableCommitSwitchesBanks : Obligations.TableCommitSwitchesBanks := by
  unfold Obligations.TableCommitSwitchesBanks
  intro e b hlen c
  refine ⟨curVer_commitTable e b, ?_, ?_, draining_commitTable e b⟩
  · have hlt : (curVer e + 1) % 65536 % 2 < e.sec.banks.length := by omega
    simp only [c, bankOf, curVer_commitTable, banks_commitTable, nth, setNth]
    rw [List.getD_eq_getElem _ _ (by rw [List.length_set]; exact hlt), List.getElem_set_self]
  · have hne : (curVer e + 1) % 65536 % 2 ≠ curVer e % 2 := by omega
    simp only [c, bankOf, banks_commitTable, nth, setNth, List.getD_eq_getElem?_getD, List.getElem?_set_ne hne]

end Sys2Proof.Machine

/-! # The directory: set and tag of a line, and the holders that a grant leaves (R344, R371, R375) -/

namespace Sys2Proof.Machine

/-! ## Set and tag -/

theorem tagOf_eq {la : Nat} (h : la < 2 ^ 38) : tagOf la = la / 2 ^ 18 :=
  Nat.mod_eq_of_lt (by omega)

theorem setOf_lt (la : Nat) : setOf la < 2 ^ 18 :=
  Nat.xor_lt_two_pow (Nat.mod_lt _ (by decide)) (Nat.mod_lt _ (by decide))

/-- The set hashes the line's low bits with its tag's, and undoing it takes the same hash. -/
theorem lineOf_setOf_tagOf {la : Nat} (h : la < 2 ^ 38) : lineOf (setOf la) (tagOf la) = la := by
  have hback : setOf la ^^^ la / 2 ^ 18 % 2 ^ 18 = la % 2 ^ 18 := by
    rw [setOf, Nat.xor_assoc, Nat.xor_self, Nat.xor_zero]
  rw [lineOf, tagOf_eq h, hback]
  omega

/-- The low bits of a line of a set and a tag lie below the tag. -/
theorem lineOf_low_lt {set : Nat} (tag : Nat) (h : set < 2 ^ 18) : set ^^^ tag % 2 ^ 18 < 2 ^ 18 :=
  Nat.xor_lt_two_pow h (Nat.mod_lt _ (by decide))

theorem lineOf_div {set : Nat} (tag : Nat) (h : set < 2 ^ 18) : lineOf set tag / 2 ^ 18 = tag := by
  have := lineOf_low_lt tag h
  rw [lineOf]
  omega

theorem lineOf_mod {set : Nat} (tag : Nat) (h : set < 2 ^ 18) : lineOf set tag % 2 ^ 18 = set ^^^ tag % 2 ^ 18 := by
  have := lineOf_low_lt tag h
  rw [lineOf]
  omega

theorem lineOf_lt {set tag : Nat} (hs : set < 2 ^ 18) (ht : tag < 2 ^ 20) : lineOf set tag < 2 ^ 38 := by
  have := lineOf_low_lt tag hs
  rw [lineOf]
  omega

/-- Settles O28: the hash is its own inverse under a fixed tag. -/
theorem setAndTagNameTheLine : Obligations.SetAndTagNameTheLine := by
  unfold Obligations.SetAndTagNameTheLine
  refine ⟨fun la h => ⟨lineOf_setOf_tagOf h, setOf_lt la, Nat.mod_lt _ (by decide)⟩, fun set tag hs ht => ⟨?_, ?_, lineOf_lt hs ht⟩⟩
  · rw [setOf, lineOf_mod tag hs, lineOf_div tag hs, Nat.xor_assoc, Nat.xor_self, Nat.xor_zero]
  · rw [tagOf_eq (lineOf_lt hs ht), lineOf_div tag hs]

end Sys2Proof.Machine

/-! # Grants of the directory keep one writer (R371, R375, R376) -/

namespace Sys2Proof.Machine

variable {a gen : Nat} {cacheless : Bool} {hs : List Holder}

/-- The snooped agents of a plan hold the line, and the requester is none of them. -/
def SnoopsOthers (a : Nat) (cacheless : Bool) (hs : List Holder) (snoop : List Nat) : Prop :=
  ∀ b ∈ snoop, (∃ h ∈ hs, h.agent = b) ∧ (cacheless = false → b ≠ a)

/-- The four kinds of plan of R375: nothing is granted; a writer is downgraded; S is granted where no other agent
writes; M is granted and every other holder snooped. -/
inductive SafePlan (a : Nat) (cacheless : Bool) (hs : List Holder) : Plan → Prop
  | none (snoop : List Nat) (drop : Bool) (hsnoop : SnoopsOthers a cacheless hs snoop) :
    SafePlan a cacheless hs ⟨0, snoop, false, drop⟩
  | downgrade (h : Holder) (grant : Nat) (hone : hs = [h]) (hother : cacheless = false → h.agent ≠ a)
    (hgrant : grant = 0 ∨ grant = 1 ∧ cacheless = false) : SafePlan a cacheless hs ⟨grant, [h.agent], true, false⟩
  | share (henrolled : cacheless = false) (hread : ∀ h ∈ hs, h.agent ≠ a → h.m = false) :
    SafePlan a cacheless hs ⟨1, [], false, false⟩
  | own (snoop : List Nat) (henrolled : cacheless = false) (hsnoop : SnoopsOthers a cacheless hs snoop)
    (hall : ∀ h ∈ hs, h.agent ≠ a → h.agent ∈ snoop) : SafePlan a cacheless hs ⟨2, snoop, false, false⟩

/-! ## What a safe plan leaves -/

theorem OneWriter.filter (h : OneWriter hs) (p : Holder → Bool) : OneWriter (hs.filter p) := by
  obtain ⟨hnodup, hone⟩ := h
  refine ⟨(List.filter_sublist.map _).nodup hnodup, fun x hx hm => ?_⟩
  have hmem := List.mem_filter.1 hx
  rw [hone x hmem.1 hm, List.filter_cons_of_pos hmem.2, List.filter_nil]

theorem oneWriter_singleton (h : Holder) : OneWriter [h] :=
  ⟨by simp, fun x hx _ => by rw [List.mem_singleton.1 hx]⟩

/-- A reader that joins holders of which none writes. -/
theorem oneWriter_join (h : OneWriter hs) (hread : ∀ x ∈ hs, x.agent ≠ a → x.m = false) (g : Nat) :
    OneWriter ((hs.filter fun x => x.agent ≠ a) ++ [⟨a, false, g⟩]) := by
  constructor
  · rw [List.map_append]
    refine List.nodup_append.2 ⟨(h.filter _).1, by simp, fun x hx y hy => ?_⟩
    obtain ⟨z, hz, rfl⟩ := List.mem_map.1 hx
    rw [List.mem_singleton.1 hy]
    simpa using (List.mem_filter.1 hz).2
  · intro x hx hm
    rcases List.mem_append.1 hx with hx | hx
    · have hmem := List.mem_filter.1 hx
      rw [hread x hmem.1 (by simpa using hmem.2)] at hm
      cases hm
    · rw [List.mem_singleton.1 hx] at hm
      cases hm

/-- Settles O29's first part for each kind of plan. -/
theorem SafePlan.oneWriter {p : Plan} (hp : SafePlan a cacheless hs p) (h : OneWriter hs) (g : Nat) :
    OneWriter (heldAfter p a g cacheless hs) := by
  cases hp with
  | none snoop drop hsnoop =>
    cases cacheless <;> cases drop
    · exact h.filter _
    · exact (h.filter _).filter _
    · exact h.filter _
    · exact h.filter _
  | downgrade x grant hone hother hgrant =>
    subst hone
    have hleft : OneWriter [{ x with m := false }] := oneWriter_singleton _
    rcases hgrant with rfl | ⟨rfl, rfl⟩
    · cases cacheless <;> simpa [heldAfter] using hleft
    · have hjoin := oneWriter_join (a := a) hleft (by simp) g
      simpa [heldAfter] using hjoin
  | share henrolled hread =>
    subst henrolled
    have hjoin := oneWriter_join (a := a) h hread g
    simpa [heldAfter] using hjoin
  | own snoop henrolled hsnoop hall =>
    subst henrolled
    have hnone : ((hs.filter fun x => x.agent ∉ snoop).filter fun x => x.agent ≠ a) = [] := by
      rw [List.filter_filter, List.filter_eq_nil_iff]
      intro x hx
      have := hall x hx
      simp only [ne_eq, decide_not, Bool.and_eq_true, Bool.not_eq_true', decide_eq_false_iff_not]
      exact fun ⟨ha, hn⟩ => hn (this ha)
    have hafter : heldAfter ⟨2, snoop, false, false⟩ a g false hs = [⟨a, true, g⟩] := by
      change ((hs.filter fun x => x.agent ∉ snoop).filter fun x => x.agent ≠ a) ++ [⟨a, true, g⟩] = _
      rw [hnone, List.nil_append]
    rw [hafter]
    exact oneWriter_singleton _

theorem SafePlan.snoops {p : Plan} (hp : SafePlan a cacheless hs p) : SnoopsOthers a cacheless hs p.snoop := by
  cases hp with
  | none snoop drop hsnoop => exact hsnoop
  | downgrade x grant hone hother hgrant =>
    subst hone
    intro b hb
    rw [List.mem_singleton.1 hb]
    exact ⟨⟨x, List.mem_singleton_self _, rfl⟩, hother⟩
  | share henrolled hread => exact fun b hb => absurd hb List.not_mem_nil
  | own snoop henrolled hsnoop hall => exact hsnoop

theorem SafePlan.grant {p : Plan} (hp : SafePlan a cacheless hs p) (hc : cacheless = true) : p.grant = 0 := by
  subst hc
  cases hp with
  | none => rfl
  | downgrade x grant hone hother hgrant => simpa using hgrant
  | share henrolled hread => cases henrolled
  | own snoop henrolled hsnoop hall => cases henrolled

/-! ## Every plan of R375 is safe -/

/-- The agents of the other holders. -/
def othersOf (a : Nat) (cacheless : Bool) (hs : List Holder) : List Nat :=
  (hs.filter fun h => cacheless || h.agent != a).map (·.agent)

theorem snoopsOthers_nil : SnoopsOthers a cacheless hs [] := fun _ hb => absurd hb List.not_mem_nil

theorem snoopsOthers_othersOf : SnoopsOthers a cacheless hs (othersOf a cacheless hs) := by
  intro b hb
  obtain ⟨h, hh, rfl⟩ := List.mem_map.1 hb
  obtain ⟨hmem, hcond⟩ := List.mem_filter.1 hh
  exact ⟨⟨h, hmem, rfl⟩, fun hc => by simpa [hc] using hcond⟩

theorem mem_othersOf {h : Holder} (hh : h ∈ hs) (ha : h.agent ≠ a) : h.agent ∈ othersOf a cacheless hs :=
  List.mem_map.2 ⟨h, List.mem_filter.2 ⟨hh, by simp [ha]⟩, rfl⟩

/-- The requester's own record. -/
def mineOf (a : Nat) (cacheless : Bool) (hs : List Holder) : Option Holder :=
  if cacheless then none else hs.find? fun h => h.agent == a

/-- Whether the requester holds the line in M. -/
def ownWrites (a : Nat) (cacheless : Bool) (hs : List Holder) : Bool :=
  match mineOf a cacheless hs with | some h => h.m | none => false

/-- The plan where a copy in S is wanted. -/
def sharePlan (a : Nat) (cacheless : Bool) (hs : List Holder) : Plan :=
  match hs.find? (·.m) with
  | some h => if ownWrites a cacheless hs then ⟨2, [], false, false⟩ else ⟨1, [h.agent], true, false⟩
  | none => ⟨1, [], false, false⟩

/-- The plan where no copy is kept. -/
def lookPlan (a : Nat) (cacheless : Bool) (hs : List Holder) : Plan :=
  match hs.find? (·.m) with
  | some h => if ownWrites a cacheless hs then ⟨2, [], false, false⟩ else ⟨0, [h.agent], true, false⟩
  | none => if (mineOf a cacheless hs).isSome then ⟨1, [], false, false⟩ else ⟨0, [], false, false⟩

/-- The plan where M is wanted. -/
def ownPlan (a : Nat) (cacheless : Bool) (hs : List Holder) : Plan :=
  if ownWrites a cacheless hs then ⟨2, [], false, false⟩ else ⟨2, othersOf a cacheless hs, false, false⟩

/-- The plan of a MemInv that asks for S. -/
def keepPlan (a : Nat) (cacheless : Bool) (hs : List Holder) : Plan :=
  match hs.find? (·.m) with
  | some h => if ownWrites a cacheless hs then ⟨1, [], false, false⟩ else ⟨0, [h.agent], true, false⟩
  | none => if (mineOf a cacheless hs).isSome then ⟨1, [], false, false⟩ else ⟨0, [], false, false⟩

/-- The state that a request asks for: an agent without a cache is given no copy in S. -/
def askedState (st : Nat) (cacheless : Bool) : Nat := if cacheless ∧ st = 1 then 0 else st

theorem planOf_memRdData (st : Nat) : planOf .memRdData st a cacheless hs =
    if cacheless then lookPlan a cacheless hs
    else if hs.isEmpty then ⟨2, [], false, false⟩ else sharePlan a cacheless hs := rfl

theorem planOf_memRd (st : Nat) : planOf .memRd st a cacheless hs =
    if askedState st cacheless = 0 then lookPlan a cacheless hs
    else if askedState st cacheless = 1 then sharePlan a cacheless hs
    else if cacheless then ⟨0, othersOf a cacheless hs, false, false⟩ else ownPlan a cacheless hs := rfl

/-- The plan of a MemInv, and of a MemInvNT. -/
def invPlan (st a : Nat) (cacheless : Bool) (hs : List Holder) : Plan :=
  if askedState st cacheless = 2 ∧ ¬ cacheless then ownPlan a cacheless hs
  else if askedState st cacheless = 1 then keepPlan a cacheless hs
  else ⟨0, if ownWrites a cacheless hs then [] else othersOf a cacheless hs, false, true⟩

theorem planOf_memInv (st : Nat) : planOf .memInv st a cacheless hs = invPlan st a cacheless hs := rfl
theorem planOf_memInvNT (st : Nat) : planOf .memInvNT st a cacheless hs = invPlan st a cacheless hs := rfl
theorem planOf_memClnEvct (st : Nat) : planOf .memClnEvct st a cacheless hs = ⟨0, [], false, true⟩ := rfl

theorem askedState_of_cacheless (st : Nat) : askedState st true ≠ 1 := by
  unfold askedState
  split <;> simp_all

/-- Of a line with at most one writer, no holder writes, or the one holder does: another one, or the requester. -/
theorem writer_cases (h : OneWriter hs) (a : Nat) (cacheless : Bool) :
    (hs.find? (·.m) = none ∧ (∀ x ∈ hs, x.m = false) ∧ ownWrites a cacheless hs = false) ∨
    (∃ x, hs = [x] ∧ hs.find? (·.m) = some x ∧ ownWrites a cacheless hs = false ∧ (cacheless = false → x.agent ≠ a)) ∨
    (∃ x, hs = [x] ∧ hs.find? (·.m) = some x ∧ ownWrites a cacheless hs = true ∧ x.agent = a ∧ cacheless = false) := by
  cases hfind : hs.find? (·.m) with
  | none =>
    have hread : ∀ x ∈ hs, x.m = false := fun x hx => by simpa using List.find?_eq_none.1 hfind x hx
    refine .inl ⟨rfl, hread, ?_⟩
    unfold ownWrites mineOf
    cases cacheless
    · cases hmine : hs.find? fun h => h.agent == a with
      | none => simp
      | some y => simpa [hmine] using hread y (List.mem_of_find?_eq_some hmine)
    · rfl
  | some x =>
    have hm : x.m = true := List.find?_some hfind
    obtain rfl := h.2 x (List.mem_of_find?_eq_some hfind) hm
    by_cases ha : x.agent = a
    · cases cacheless
      · exact .inr (.inr ⟨x, rfl, rfl, by simp [ownWrites, mineOf, ha, hm], ha, rfl⟩)
      · exact .inr (.inl ⟨x, rfl, rfl, rfl, by simp⟩)
    · exact .inr (.inl ⟨x, rfl, rfl, by cases cacheless <;> simp [ownWrites, mineOf, ha], fun _ => ha⟩)

theorem enrolled_of_mine (h : (mineOf a cacheless hs).isSome = true) : cacheless = false := by
  cases cacheless
  · rfl
  · cases h

theorem safe_share (hc : cacheless = false) (h : OneWriter hs) : SafePlan a cacheless hs (sharePlan a cacheless hs) := by
  unfold sharePlan
  rcases writer_cases h a cacheless with ⟨hf, hread, -⟩ | ⟨x, hone, hf, hown, hother⟩ | ⟨x, hone, hf, hown, ha, -⟩
  · rw [hf]
    exact .share hc fun x hx _ => hread x hx
  · simp only [hf, hown]
    exact .downgrade x 1 hone hother (.inr ⟨rfl, hc⟩)
  · simp only [hf, hown]
    exact .own [] hc snoopsOthers_nil fun y hy hya => absurd ha (by simp_all)

theorem safe_own (hc : cacheless = false) (h : OneWriter hs) : SafePlan a cacheless hs (ownPlan a cacheless hs) := by
  unfold ownPlan
  rcases writer_cases h a cacheless with ⟨-, -, hown⟩ | ⟨x, hone, -, hown, -⟩ | ⟨x, hone, -, hown, ha, -⟩
  · rw [hown]
    exact .own _ hc snoopsOthers_othersOf fun x hx hxa => mem_othersOf hx hxa
  · rw [hown]
    exact .own _ hc snoopsOthers_othersOf fun x hx hxa => mem_othersOf hx hxa
  · rw [hown]
    exact .own [] hc snoopsOthers_nil fun y hy hya => absurd ha (by simp_all)

/-- Where no holder writes, a requester that is recorded keeps its copy in S, and another is granted nothing. -/
theorem safe_keep_of_no_writer (hread : ∀ x ∈ hs, x.m = false) : SafePlan a cacheless hs
    (if (mineOf a cacheless hs).isSome then ⟨1, [], false, false⟩ else ⟨0, [], false, false⟩) := by
  split
  · next hmine => exact .share (enrolled_of_mine hmine) fun x hx _ => hread x hx
  · exact .none [] false snoopsOthers_nil

theorem safe_look (h : OneWriter hs) : SafePlan a cacheless hs (lookPlan a cacheless hs) := by
  unfold lookPlan
  rcases writer_cases h a cacheless with ⟨hf, hread, -⟩ | ⟨x, hone, hf, hown, hother⟩ | ⟨x, hone, hf, hown, ha, hc⟩
  · rw [hf]
    exact safe_keep_of_no_writer hread
  · simp only [hf, hown]
    exact .downgrade x 0 hone hother (.inl rfl)
  · simp only [hf, hown]
    exact .own [] hc snoopsOthers_nil fun y hy hya => absurd ha (by simp_all)

theorem safe_keep (h : OneWriter hs) : SafePlan a cacheless hs (keepPlan a cacheless hs) := by
  unfold keepPlan
  rcases writer_cases h a cacheless with ⟨hf, hread, -⟩ | ⟨x, hone, hf, hown, hother⟩ | ⟨x, hone, hf, hown, ha, hc⟩
  · rw [hf]
    exact safe_keep_of_no_writer hread
  · simp only [hf, hown]
    exact .downgrade x 0 hone hother (.inl rfl)
  · simp only [hf, hown]
    exact .share hc fun y hy hya => absurd ha (by simp_all)

theorem safe_inv (st : Nat) (h : OneWriter hs) : SafePlan a cacheless hs (invPlan st a cacheless hs) := by
  unfold invPlan
  split
  · next hst => exact safe_own (by simpa using hst.2) h
  · split
    · exact safe_keep h
    · refine .none _ true ?_
      split
      · exact snoopsOthers_nil
      · exact snoopsOthers_othersOf

theorem safe_memRd (st : Nat) (h : OneWriter hs) : SafePlan a cacheless hs (planOf .memRd st a cacheless hs) := by
  rw [planOf_memRd]
  cases cacheless
  · split
    · exact safe_look h
    · split
      · exact safe_share rfl h
      · exact safe_own rfl h
  · rw [if_neg (askedState_of_cacheless st)]
    split
    · exact safe_look h
    · exact .none _ false snoopsOthers_othersOf

theorem safe_memRdData (st : Nat) (h : OneWriter hs) : SafePlan a cacheless hs (planOf .memRdData st a cacheless hs) := by
  rw [planOf_memRdData]
  cases cacheless
  · simp only [Bool.false_eq_true, if_false]
    split
    · next hempty =>
      exact .own [] rfl snoopsOthers_nil fun x hx _ => by simp_all
    · exact safe_share rfl h
  · exact safe_look h

theorem safe_planOf (op : ReqOp) (st : Nat) (hop : isClass3 op = true) (h : OneWriter hs) :
    SafePlan a cacheless hs (planOf op st a cacheless hs) := by
  cases op with
  | memRd => exact safe_memRd st h
  | memRdData => exact safe_memRdData st h
  | memInv => exact safe_inv st h
  | memInvNT => exact safe_inv st h
  | memClnEvct => exact .none [] true snoopsOthers_nil
  | memWr => cases hop
  | memWrPtl => cases hop
  | placeWr => cases hop

/-- Settles O29: every plan of R375 is of one of four kinds, and each kind leaves at most one writer. -/
theorem grantsKeepOneWriter : Obligations.GrantsKeepOneWriter := by
  unfold Obligations.GrantsKeepOneWriter
  intro op st a gen cacheless hs h hop p
  have hp : SafePlan a cacheless hs p := safe_planOf op st hop h
  exact ⟨hp.oneWriter h gen, hp.snoops, hp.grant⟩

end Sys2Proof.Machine

/-! # Legal commands: the first legal slot, and what the scheduler chooses (R136, R147–R149, R163) -/

namespace Sys2Proof.Machine

/-! ## The timing-rule engine -/

/-- A running maximum stays within a bound exactly where its start and every element do. -/
theorem foldl_max_le_iff {α : Type} (f : α → Nat) (l : List α) (m u : Nat) :
    l.foldl (fun m a => max m (f a)) m ≤ u ↔ m ≤ u ∧ ∀ a ∈ l, f a ≤ u := by
  induction l generalizing m with
  | nil => simp
  | cons x l ih => rw [List.foldl_cons, ih]; simp [and_assoc]

/-- Settles O8: the slot is the maximum of the bounds. -/
theorem timingRulesGiveTheFirstLegalSlot : Obligations.TimingRulesGiveTheFirstLegalSlot := by
  unfold Obligations.TimingRulesGiveTheFirstLegalSlot
  intro cb log b t u
  rw [earliest, foldl_max_le_iff, max_le_iff, and_assoc]

/-! ## The scheduler's choice -/

theorem mem_of_mem_prefer {p : Cand → Bool} {ks : List Cand} {k : Cand} (h : k ∈ prefer p ks) : k ∈ ks := by
  unfold prefer at h
  split at h
  · exact List.mem_of_mem_filter h
  · exact h

/-- Where one candidate is preferred, only preferred ones are left. -/
theorem preferred_of_mem_prefer {p : Cand → Bool} {ks : List Cand} {k q : Cand} (h : k ∈ prefer p ks) (hq : q ∈ ks)
    (hp : p q = true) : p k = true := by
  rw [prefer, if_pos (List.any_eq_true.2 ⟨q, hq, hp⟩)] at h
  exact (List.mem_filter.1 h).2

theorem mem_of_oldest {ks : List Cand} {k : Cand} (h : oldest ks = some k) : k ∈ ks := by
  induction ks generalizing k with
  | nil => cases h
  | cons x ks ih =>
    unfold oldest at h
    split at h
    · rw [← Option.some.inj h]
      exact List.mem_cons_self ..
    · next m hm =>
      split at h
      · rw [← Option.some.inj h]
        exact List.mem_cons_self ..
      · rw [← Option.some.inj h]
        exact List.mem_cons_of_mem _ (ih hm)

/-- The command that a candidate takes: a CAS with or without auto-precharge, or its own. -/
def kindOf (e : Engine) (n sc : Nat) (k : Cand) : DKind :=
  if kindRank k.kind = 0 then casKind e n (getChan e n) (inDirection e (getChan e n) sc) k else k.kind

/-- The candidates that are legal in the slot and delay no promoted entry. -/
def eligible (e : Engine) (n sc t : Nat) : List Cand :=
  ((inDirection e (getChan e n) sc).filter fun k =>
    !orderHolds (getChan e n) k && allowed e n sc (kindOf e n sc k) k.loc t).filter fun k =>
      !delays e n sc (getChan e n) t k

theorem mem_eligible {e : Engine} {n sc t : Nat} {k : Cand} : k ∈ eligible e n sc t ↔
    k ∈ inDirection e (getChan e n) sc ∧
      (orderHolds (getChan e n) k = false ∧ allowed e n sc (kindOf e n sc k) k.loc t = true) ∧
      delays e n sc (getChan e n) t k = false := by
  simp only [eligible, List.mem_filter, Bool.and_eq_true, Bool.not_eq_true', and_assoc]

/-- R147: the choice narrows the eligible candidates, the promoted ones first. -/
theorem chooseCmd_mem {e : Engine} {n sc t : Nat} {k : Cand} (h : chooseCmd e n sc t = some k) :
    k ∈ prefer (·.promoted) (eligible e n sc t) :=
  List.mem_of_mem_filter (List.mem_of_mem_filter (List.mem_of_mem_filter (mem_of_mem_prefer (mem_of_oldest h))))

/-- R148: a promoted candidate delays nothing. -/
theorem delays_of_promoted {e : Engine} {n sc t : Nat} {c : Chan} {k : Cand} (h : k.promoted = true) :
    delays e n sc c t k = false := by
  simp [delays, h]

/-- What the timing-rule engine and the refusals of ACT ask of an allowed command. -/
theorem of_allowed {e : Engine} {n sc t : Nat} {k : DKind} {l : Loc} (h : allowed e n sc k l t = true) :
    earliest (cidBits e) (getSub (getChan e n) sc).log (mkCmd e n k l t) t ≤ t ∧
      (k = .act → actRefused e n .sched (getChan e n) l t = false) := by
  simp only [allowed, Bool.and_eq_true, decide_eq_true_eq, Bool.not_eq_true', Bool.and_eq_false_iff,
    beq_eq_false_iff_ne] at h
  obtain ⟨⟨⟨⟨⟨hslot, -⟩, -⟩, -⟩, -⟩, hact⟩ := h
  exact ⟨hslot, fun hk => hact.resolve_left fun hne => hne hk⟩

/-- Settles O9: the chosen command is eligible, and a promoted one wherever an eligible one is. -/
theorem schedulerChoosesALegalCommand : Obligations.SchedulerChoosesALegalCommand := by
  unfold Obligations.SchedulerChoosesALegalCommand
  intro e n sc t k hk c all kind legal
  have hmem := chooseCmd_mem hk
  obtain ⟨hdir, hlegal, hdelays⟩ := mem_eligible.1 (mem_of_mem_prefer hmem)
  obtain ⟨hslot, hact⟩ := of_allowed hlegal.2
  refine ⟨hdir, hlegal, hdelays, hact, ?_, fun ⟨p, hp, hpl, hpp⟩ => ?_⟩
  · exact ((timingRulesGiveTheFirstLegalSlot _ _ _ _ _).1 hslot).2.2
  · exact preferred_of_mem_prefer hmem (mem_eligible.2 ⟨hp, hpl, delays_of_promoted hpp⟩) hpp

end Sys2Proof.Machine

/-! # Refresh debt and Row Guard (R197, R205) -/

namespace Sys2Proof.Machine

/-! ## Refresh debt -/

/-- Settles O12: the debts of the four ranks are separate five-bit fields of one register. -/
theorem debtIsKeptPerRank : Obligations.DebtIsKeptPerRank := by
  unfold Obligations.DebtIsKeptPerRank
  intro e n i j d hi hj hlo hhi
  constructor
  · have h : rd (setDebt e n i d) (debtF n i) = (d + 32).toNat % 32 % 2 ^ (8 * i + 4 + 1 - 8 * i) :=
      rd_wr_same e _ (show 8 * i ≤ 8 * i + 4 by omega) (show 8 * i + 4 < 32 by omega)
    rw [show 8 * i + 4 + 1 - 8 * i = 5 by omega] at h
    unfold debt
    simp only [h]
    split <;> omega
  · intro hne
    have hapart : (debtF n i).Apart (debtF n j) := by simp only [Fld.Apart, debtF]; omega
    have h : rd (setDebt e n i d) (debtF n j) = rd e (debtF n j) := rd_wr_apart e _ rfl hapart
    unfold debt
    rw [h]

/-! ## Row Guard -/

theorem lowCount_cons_cons (x y : RgRow) (rs : List RgRow) :
    lowCount (x :: y :: rs) = min x.count (lowCount (y :: rs)) := rfl

theorem lowCount_le {t : List RgRow} {r : RgRow} (h : r ∈ t) : lowCount t ≤ r.count := by
  induction t with
  | nil => cases h
  | cons x rs ih =>
    cases rs with
    | nil => rw [List.mem_singleton.1 h, lowCount]
    | cons y rs =>
      rw [lowCount_cons_cons]
      rcases List.mem_cons.1 h with rfl | h
      · exact min_le_left _ _
      · exact (min_le_right _ _).trans (ih h)

theorem exists_lowCount {t : List RgRow} (h : t ≠ []) : ∃ r ∈ t, r.count = lowCount t := by
  induction t with
  | nil => exact absurd rfl h
  | cons x rs ih =>
    cases rs with
    | nil => exact ⟨x, List.mem_singleton_self _, rfl⟩
    | cons y rs =>
      rw [lowCount_cons_cons]
      obtain ⟨r, hr, hlow⟩ := ih (List.cons_ne_nil _ _)
      rcases min_choice x.count (lowCount (y :: rs)) with h | h
      · exact ⟨x, List.mem_cons_self .., h.symm⟩
      · exact ⟨r, List.mem_cons_of_mem _ hr, hlow.trans h.symm⟩

theorem lowCount_mul_le (t : List RgRow) {m : Nat} (h : ∀ r ∈ t, m ≤ r.count) : m * t.length ≤ countSum t := by
  have := List.card_nsmul_le_sum (t.map (·.count)) m (by simpa using h)
  rwa [List.length_map, smul_eq_mul, mul_comm] at this

/-- The table splits at the entry that a new row replaces. -/
theorem rgReplace_split (row : Nat) {low : Nat} {t : List RgRow} (h : ∃ r ∈ t, r.count = low) :
    ∃ before r after, t = before ++ r :: after ∧ r.count = low ∧
      rgReplace row low t = before ++ ⟨row, low + 1, false, false⟩ :: after := by
  induction t with
  | nil => obtain ⟨r, hr, -⟩ := h; cases hr
  | cons x rs ih =>
    by_cases hx : x.count = low
    · exact ⟨[], x, rs, rfl, hx, by simp [rgReplace, hx]⟩
    · obtain ⟨r, hr, hlow⟩ := h
      have hrs : r ∈ rs := (List.mem_cons.1 hr).resolve_left fun heq => hx (heq ▸ hlow)
      obtain ⟨before, q, after, rfl, hq, hrep⟩ := ih ⟨r, hrs, hlow⟩
      exact ⟨x :: before, q, after, rfl, hq, by simp [rgReplace, hx, hrep]⟩

/-- An ACT of a row that the table holds. -/
theorem rgCount_of_mem {row : Nat} {t : List RgRow} (h : ∃ r ∈ t, r.row = row) :
    rgCount row t = t.map fun (r : RgRow) => if r.row = row then { r with count := r.count + 1 } else r :=
  if_pos (by simpa using h)

theorem rgCount_of_room {row : Nat} {t : List RgRow} (h : ∀ r ∈ t, r.row ≠ row) (hlen : t.length < 64) :
    rgCount row t = t ++ [⟨row, 1, false, false⟩] := by
  rw [rgCount, if_neg (by simpa using h), if_pos hlen]

theorem rgCount_of_full {row : Nat} {t : List RgRow} (h : ∀ r ∈ t, r.row ≠ row) (hlen : t.length = 64) :
    rgCount row t = rgReplace row (lowCount t) t := by
  rw [rgCount, if_neg (by simpa using h), if_neg (by omega)]

/-- Counting a row up keeps every entry's row. -/
theorem map_row_count (row : Nat) (t : List RgRow) :
    (t.map fun (r : RgRow) => if r.row = row then { r with count := r.count + 1 } else r).map (·.row) = t.map (·.row) := by
  rw [List.map_map]
  exact List.map_congr_left fun r _ => by simp only [Function.comp]; split <;> rfl

theorem countSum_count (row : Nat) {t : List RgRow} (hnodup : (t.map (·.row)).Nodup) (h : ∃ r ∈ t, r.row = row) :
    countSum (t.map fun (r : RgRow) => if r.row = row then { r with count := r.count + 1 } else r) = countSum t + 1 := by
  obtain ⟨r, hr, rfl⟩ := h
  obtain ⟨before, after, rfl⟩ := List.append_of_mem hr
  rw [List.map_append, List.map_cons, List.nodup_middle, List.nodup_cons, List.mem_append, not_or] at hnodup
  obtain ⟨⟨hb, ha⟩, -⟩ := hnodup
  have hkeep : ∀ l : List RgRow, r.row ∉ l.map (·.row) →
      (l.map fun (q : RgRow) => if q.row = r.row then { q with count := q.count + 1 } else q) = l := by
    intro l hl
    refine (List.map_congr_left fun q hq => ?_).trans (List.map_id l)
    exact if_neg fun heq => hl (List.mem_map.2 ⟨q, hq, heq⟩)
  rw [List.map_append, List.map_cons, hkeep before hb, hkeep after ha, if_pos rfl]
  simp only [countSum, List.map_append, List.map_cons, List.sum_append, List.sum_cons]
  omega

/-- What O13 says of an ACT, where the table holds the row. -/
theorem rgCount_held {row : Nat} {t : List RgRow} (hwf : rgWf t) (h : ∃ r ∈ t, r.row = row) :
    rgWf (rgCount row t) ∧ countSum (rgCount row t) = countSum t + 1 ∧
      (∀ r ∈ t, r.row = row → { r with count := r.count + 1 } ∈ rgCount row t) ∧
      (∀ r ∈ rgCount row t, r.row ≠ row → r ∈ t) := by
  obtain ⟨hlen, hnodup⟩ := hwf
  rw [rgCount_of_mem h]
  refine ⟨⟨by rwa [List.length_map], by rwa [map_row_count]⟩, countSum_count row hnodup h, fun r hr hrow => ?_, fun r hr hrow => ?_⟩
  · exact List.mem_map.2 ⟨r, hr, if_pos hrow⟩
  · obtain ⟨q, hq, rfl⟩ := List.mem_map.1 hr
    split at hrow
    · next heq => exact absurd heq hrow
    · next heq => rwa [if_neg heq]

/-- … where it has room for the row. -/
theorem rgCount_room {row : Nat} {t : List RgRow} (hwf : rgWf t) (h : ∀ r ∈ t, r.row ≠ row) (hroom : t.length < 64) :
    rgWf (rgCount row t) ∧ countSum (rgCount row t) = countSum t + 1 ∧ ⟨row, 1, false, false⟩ ∈ rgCount row t ∧
      (∀ r ∈ rgCount row t, r.row ≠ row → r ∈ t) := by
  rw [rgCount_of_room h hroom]
  refine ⟨⟨by simpa using hroom, ?_⟩, by simp [countSum], by simp, fun r hr hrow => ?_⟩
  · rw [List.map_append]
    exact List.nodup_append.2 ⟨hwf.2, by simp, by simpa using h⟩
  · exact (List.mem_append.1 hr).resolve_right fun hq => hrow (by rw [List.mem_singleton.1 hq])

/-- … and where the row replaces the lowest entry of a full table. -/
theorem rgCount_full {row : Nat} {t : List RgRow} (hwf : rgWf t) (h : ∀ r ∈ t, r.row ≠ row) (hfull : t.length = 64) :
    rgWf (rgCount row t) ∧ countSum (rgCount row t) = countSum t + 1 ∧
      ⟨row, lowCount t + 1, false, false⟩ ∈ rgCount row t ∧ (∀ r ∈ rgCount row t, r.row ≠ row → r ∈ t) := by
  rw [rgCount_of_full h hfull]
  obtain ⟨before, q, after, hsplit, hq, hrep⟩ :=
    rgReplace_split row (exists_lowCount (List.ne_nil_of_length_pos (by omega : 0 < t.length)))
  rw [hrep]
  have hlen := hwf.1
  have hnodup := hwf.2
  rw [hsplit] at hlen hnodup
  rw [List.map_append, List.map_cons, List.nodup_middle, List.nodup_cons] at hnodup
  refine ⟨⟨by simpa using hlen, ?_⟩, ?_, by simp, fun r hr hrow => ?_⟩
  · rw [List.map_append, List.map_cons, List.nodup_middle, List.nodup_cons]
    refine ⟨fun hmem => ?_, hnodup.2⟩
    rw [← List.map_append] at hmem
    obtain ⟨r, hr, heq⟩ := List.mem_map.1 hmem
    refine h r ?_ heq
    rw [hsplit]
    rcases List.mem_append.1 hr with hr | hr
    · exact List.mem_append_left _ hr
    · exact List.mem_append_right _ (List.mem_cons_of_mem _ hr)
  · rw [← hq, hsplit]
    simp only [countSum, List.map_append, List.map_cons, List.sum_append, List.sum_cons]
    omega
  · rw [hsplit]
    rcases List.mem_append.1 hr with hr | hr
    · exact List.mem_append_left _ hr
    · rcases List.mem_cons.1 hr with rfl | hr
      · exact absurd rfl hrow
      · exact List.mem_append_right _ (List.mem_cons_of_mem _ hr)

/-- Settles O13: the row is held, or has room, or replaces the lowest entry. -/
theorem rowGuardCountsEveryActivation : Obligations.RowGuardCountsEveryActivation := by
  unfold Obligations.RowGuardCountsEveryActivation
  intro row t hwf u
  have hlow : t.length = 64 → lowCount t * 64 ≤ countSum t := fun hfull => by
    have := lowCount_mul_le t fun r hr => lowCount_le hr
    rwa [hfull] at this
  by_cases hheld : ∃ r ∈ t, r.row = row
  · obtain ⟨hu, hsum, hown, hrest⟩ := rgCount_held hwf hheld
    have hno : ¬ ∀ r ∈ t, r.row ≠ row := fun hall => by
      obtain ⟨r, hr, hrow⟩ := hheld
      exact hall r hr hrow
    exact ⟨hu, hsum, hown, fun hall => absurd hall hno, fun hall => absurd hall hno, hrest, hlow⟩
  · have hall : ∀ r ∈ t, r.row ≠ row := fun r hr hrow => hheld ⟨r, hr, hrow⟩
    have hown : ∀ r ∈ t, r.row = row → ({ r with count := r.count + 1 } : RgRow) ∈ u :=
      fun r hr hrow => absurd hrow (hall r hr)
    rcases Nat.lt_or_eq_of_le hwf.1 with hroom | hfull
    · obtain ⟨hu, hsum, hnew, hrest⟩ := rgCount_room hwf hall hroom
      exact ⟨hu, hsum, hown, fun _ _ => hnew, fun _ hfull => absurd hfull (by omega), hrest, hlow⟩
    · obtain ⟨hu, hsum, hnew, hrest⟩ := rgCount_full hwf hall hfull
      exact ⟨hu, hsum, hown, fun _ hroom => absurd hroom (by omega), fun _ _ => hnew, hrest, hlow⟩

end Sys2Proof.Machine

/-! # Token buckets and shedding (R398, R401, R409, R410) -/

namespace Sys2Proof.Machine

/-! ## Charges -/

theorem getBucket_putBucket (e : Engine) (c ch : Nat) (b : Bucket) : getBucket (putBucket e c ch b) c ch = b := by
  simp only [getBucket, putBucket, tlookup_tinsert, if_true]

theorem depth_nonneg (e : Engine) (c : Nat) : 0 ≤ depth e c := Nat.cast_nonneg _

theorem refill_g_le (e : Engine) (c ch : Nat) : (refill e c ch).g ≤ depth e c := min_le_left _ _

theorem refill_x_le (e : Engine) (c ch : Nat) : (refill e c ch).x ≤ depth e c := by
  unfold refill
  simp only
  split
  · exact min_le_left _ _
  · split
    · exact min_le_left _ _
    · exact le_rfl

section
variable {e : Engine} {c ch : Nat} {a : Rat}

theorem chargeBucket_of_g (h : a ≤ (refill e c ch).g) : chargeBucket e c ch a =
    (putBucket e c ch { refill e c ch with g := (refill e c ch).g - a }, .g) := by
  simp only [chargeBucket, coverOf, ge_iff_le, if_pos h]

theorem chargeBucket_of_x (hg : (refill e c ch).g < a) (hx : a ≤ (refill e c ch).x) : chargeBucket e c ch a =
    (putBucket e c ch { refill e c ch with x := (refill e c ch).x - a }, .x) := by
  simp only [chargeBucket, coverOf, ge_iff_le, if_neg hg.not_ge, if_pos hx]

theorem chargeBucket_of_none (hg : (refill e c ch).g < a) (hx : (refill e c ch).x < a) : chargeBucket e c ch a =
    (putBucket e c ch { refill e c ch with g := max (- depth e c) ((refill e c ch).g - a) }, .none) := by
  simp only [chargeBucket, coverOf, ge_iff_le, if_neg hg.not_ge, if_neg hx.not_ge]

end

/-- Settles O32: G covers the charge, or X does, or neither. -/
theorem bucketsStayWithinBurst : Obligations.BucketsStayWithinBurst := by
  unfold Obligations.BucketsStayWithinBurst
  intro e c ch a ha b r b'
  have hd := depth_nonneg e c
  refine ⟨refill_g_le e c ch, refill_x_le e c ch, ?_⟩
  rcases le_or_gt a b.g with hg | hg
  · have hr : r = _ := chargeBucket_of_g hg
    have hb' : b' = { b with g := b.g - a } := by simp only [b', hr, getBucket_putBucket, b]
    rw [hr, hb']
    exact ⟨le_rfl, fun _ => ⟨by linarith, by linarith⟩, fun _ => ⟨rfl, rfl, rfl, by linarith⟩,
      fun h => absurd h hg.not_gt, fun h => absurd h hg.not_gt⟩
  · rcases le_or_gt a b.x with hx | hx
    · have hr : r = _ := chargeBucket_of_x hg hx
      have hb' : b' = { b with x := b.x - a } := by simp only [b', hr, getBucket_putBucket, b]
      rw [hr, hb']
      exact ⟨by linarith, fun h => ⟨h, le_rfl⟩, fun h => absurd h hg.not_ge, fun _ _ => ⟨rfl, rfl, rfl, by linarith⟩,
        fun _ h => absurd h hx.not_gt⟩
    · have hr : r = _ := chargeBucket_of_none hg hx
      have hb' : b' = { b with g := max (- depth e c) (b.g - a) } := by simp only [b', hr, getBucket_putBucket, b]
      rw [hr, hb']
      exact ⟨le_rfl, fun h => ⟨le_max_left _ _, max_le h (by linarith)⟩, fun h => absurd h hg.not_ge,
        fun _ h => absurd h hx.not_ge, fun _ _ _ => ⟨rfl, rfl, rfl⟩⟩

/-! ## The shedding walk -/

/-- What a list of cuts takes from a class. -/
def pairVal (ps : List (Nat × Rat)) (c : Nat) : Rat := ((ps.find? fun p => p.1 == c).map (·.2)).getD 0

theorem pairVal_append_left {ps qs : List (Nat × Rat)} {c : Nat} (h : ∀ p ∈ qs, p.1 ≠ c) :
    pairVal (ps ++ qs) c = pairVal ps c := by
  have hnone : qs.find? (fun p => p.1 == c) = none := List.find?_eq_none.2 fun p hp => by simpa using h p hp
  rw [pairVal, List.find?_append, hnone, Option.or_none, pairVal]

theorem pairVal_append_right {ps qs : List (Nat × Rat)} {c : Nat} (h : ∀ p ∈ ps, p.1 ≠ c) :
    pairVal (ps ++ qs) c = pairVal qs c := by
  rw [pairVal, List.find?_append, List.find?_eq_none.2 fun p hp => by simpa using h p hp, Option.none_or, pairVal]

theorem pairVal_cons (p : Nat × Rat) (ps : List (Nat × Rat)) (c : Nat) :
    pairVal (p :: ps) c = if p.1 = c then p.2 else pairVal ps c := by
  by_cases h : p.1 = c <;> simp [pairVal, h]

section
variable (share : Nat → Rat)

/-- What the walk takes from class `j` on its way down `cs`, with `s` to absorb. -/
def lowCut : List Nat → Rat → Nat → Rat
  | [], _, _ => 0
  | c :: cs, s, j => if c = j then min s (share c) else lowCut cs (s - min s (share c)) j

/-- What is left to absorb after `cs`. -/
def lowRest (cs : List Nat) (s : Rat) : Rat := cs.foldl (fun s c => s - min s (share c)) s

theorem lowCut_zero (hshare : ∀ c, 0 ≤ share c) (cs : List Nat) (j : Nat) : lowCut share cs 0 j = 0 := by
  induction cs with
  | nil => rfl
  | cons c cs ih => simp [lowCut, min_eq_left (hshare c), ih]

theorem lowRest_zero (hshare : ∀ c, 0 ≤ share c) (cs : List Nat) : lowRest share cs 0 = 0 := by
  induction cs with
  | nil => rfl
  | cons c cs ih => simpa [lowRest, min_eq_left (hshare c)] using ih

/-- The walk's early stop takes nothing from the rest: what is cut, and what is left, is as if it went on. -/
theorem shedLow_spec (hshare : ∀ c, 0 ≤ share c) (cs : List Nat) (s : Rat) :
    (∀ j, pairVal (shedLow share cs s).2.1 j = lowCut share cs s j) ∧ (shedLow share cs s).2.2 = lowRest share cs s ∧
      (∀ p ∈ (shedLow share cs s).2.1, p.1 ∈ cs ∧ p.1 ∈ (shedLow share cs s).1) := by
  induction cs generalizing s with
  | nil => exact ⟨fun _ => rfl, rfl, fun p hp => absurd hp List.not_mem_nil⟩
  | cons c cs ih =>
    unfold shedLow
    simp only
    split
    · next hstop =>
      refine ⟨fun j => ?_, ?_, fun p hp => ?_⟩
      · rw [pairVal_cons, lowCut, hstop, lowCut_zero share hshare]
        rfl
      · rw [lowRest, List.foldl_cons, hstop]
        exact (lowRest_zero share hshare cs).symm
      · rw [List.mem_singleton.1 hp]
        exact ⟨List.mem_cons_self .., List.mem_singleton_self _⟩
    · obtain ⟨hcut, hrest, hmem⟩ := ih (s - min s (share c))
      refine ⟨fun j => ?_, hrest, fun p hp => ?_⟩
      · rw [pairVal_cons, lowCut, hcut]
      · rcases List.mem_cons.1 hp with rfl | hp
        · exact ⟨List.mem_cons_self .., List.mem_cons_self ..⟩
        · exact ⟨List.mem_cons_of_mem _ (hmem p hp).1, List.mem_cons_of_mem _ (hmem p hp).2⟩

end

/-- One step of the walk: the cut fits the share and what is left, and where something is left it is the whole share. -/
theorem step_of_walk {s x : Rat} (hs : 0 ≤ s) (hx : 0 ≤ x) :
    0 ≤ min s x ∧ min s x ≤ x ∧ min s x ≤ s ∧ (0 < s - min s x → min s x = x) := by
  refine ⟨le_min hs hx, min_le_right _ _, min_le_left _ _, fun h => ?_⟩
  rcases min_choice s x with hmin | hmin
  · rw [hmin, sub_self] at h
    exact absurd h (lt_irrefl _)
  · exact hmin

/-- The common factor of the classes 1 to 3. -/
def midFactor (s t : Rat) : Rat := if s > 0 then (if t > 0 then min 1 (s / t) else 0) else 0

theorem midFactor_spec {s t : Rat} (hs : 0 ≤ s) (ht : 0 ≤ t) :
    0 ≤ midFactor s t ∧ midFactor s t ≤ 1 ∧ midFactor s t * t ≤ s ∧ (0 < midFactor s t → 0 < s) ∧
      (0 < s - midFactor s t * t → midFactor s t = 1 ∨ t = 0) := by
  unfold midFactor
  split
  · next hpos =>
    split
    · next htpos =>
      have hdiv : s / t * t = s := div_mul_cancel₀ s htpos.ne'
      refine ⟨le_min zero_le_one (div_nonneg hs ht), min_le_left _ _, ?_, fun _ => hpos, fun h => ?_⟩
      · exact (mul_le_mul_of_nonneg_right (min_le_right _ _) ht).trans hdiv.le
      · rcases min_choice 1 (s / t) with hmin | hmin
        · exact .inl hmin
        · rw [hmin, hdiv, sub_self] at h
          exact absurd h (lt_irrefl _)
    · next htneg =>
      exact ⟨le_rfl, zero_le_one, by simpa using hs, fun _ => hpos, fun _ => .inr (le_antisymm (not_lt.1 htneg) ht)⟩
  · next hneg =>
    refine ⟨le_rfl, zero_le_one, by simpa using hs, fun h => absurd h (lt_irrefl _), fun h => ?_⟩
    exact absurd (by simpa using h) hneg

/-! ### The walk as a whole -/

section
variable (share : Nat → Rat) (s : Rat)

/-- The walk's first part: the classes 7 to 4, one after another. -/
def lowClasses : List Nat := [7, 6, 5, 4]

/-- What the classes 1 to 3 hold together. -/
def midShare : Rat := share 1 + share 2 + share 3

/-- The common factor of the classes 1 to 3, after the classes 7 to 4. -/
def walkFactor : Rat := midFactor (lowRest share lowClasses s) (midShare share)

/-- What is left to class 0. -/
def topRest : Rat := lowRest share lowClasses s - walkFactor share s * midShare share

/-- What the walk takes from a class, with `s` to absorb. -/
def walkCut (c : Nat) : Rat :=
  if 4 ≤ c then lowCut share lowClasses s c
  else if 1 ≤ c then walkFactor share s * share c
  else min (topRest share s) (share 0)

/-- What the shares exceed the capacity by. -/
def shortOf (cNow : Nat) : Rat := (List.range 8).foldl (fun a c => a + share c) 0 - 9 / 10 * (cNow : Rat)

theorem shedWalk_of_fit {cNow : Nat} (h : shortOf share cNow ≤ 0) :
    shedWalk share cNow = ⟨[], [0, 0, 0, 0, 0, 0, 0, 0], 0⟩ := if_pos h

/-- The cuts of the classes 1 to 3, and of class 0. -/
def midPairs : List (Nat × Rat) := [1, 2, 3].map fun c => (c, walkFactor share s * share c)
def topPairs : List (Nat × Rat) := if topRest share s > 0 then [(0, min (topRest share s) (share 0))] else []

theorem shedWalk_of_short (hshare : ∀ c, 0 ≤ share c) {cNow : Nat} (h : 0 < shortOf share cNow) :
    let s := shortOf share cNow
    shedWalk share cNow = ⟨(shedLow share lowClasses s).1 ++ ((midPairs share s).filter fun p => decide (p.2 > 0)).map (·.1) ++
        (topPairs share s).map (·.1),
      (List.range 8).map (pairVal ((shedLow share lowClasses s).2.1 ++ midPairs share s ++ topPairs share s)), s⟩ := by
  intro s
  have hrest : (shedLow share lowClasses s).2.2 = lowRest share lowClasses s := (shedLow_spec share hshare _ _).2.1
  have hwalk : shedWalk share cNow = _ := if_neg h.not_ge
  rw [hwalk]
  simp only [midPairs, topPairs, topRest, walkFactor, midShare, ← hrest]
  rfl

theorem topPairs_fst : ∀ p ∈ topPairs share s, p.1 = 0 := by
  intro p hp
  unfold topPairs at hp
  split at hp
  · rw [List.mem_singleton.1 hp]
  · exact absurd hp List.not_mem_nil

theorem midPairs_fst : ∀ p ∈ midPairs share s, 1 ≤ p.1 ∧ p.1 < 4 := by
  intro p hp
  obtain ⟨c, hc, rfl⟩ := List.mem_map.1 hp
  simp only [List.mem_cons, List.not_mem_nil, or_false] at hc
  exact ⟨by omega, by omega⟩

theorem pairVal_midPairs {c : Nat} (h1 : 1 ≤ c) (h4 : c < 4) : pairVal (midPairs share s) c = walkFactor share s * share c := by
  interval_cases c <;> simp [midPairs, pairVal_cons]

theorem pairVal_topPairs (hshare : ∀ c, 0 ≤ share c) (htop : 0 ≤ topRest share s) :
    pairVal (topPairs share s) 0 = min (topRest share s) (share 0) := by
  unfold topPairs
  split
  · simp [pairVal_cons]
  · next h =>
    rw [le_antisymm (not_lt.1 h) htop, min_eq_left (hshare 0)]
    rfl

/-- The list of the walk's cuts holds the cut of each class. -/
theorem pairVal_walk (hshare : ∀ c, 0 ≤ share c) (htop : 0 ≤ topRest share s) {c : Nat} :
    pairVal ((shedLow share lowClasses s).2.1 ++ midPairs share s ++ topPairs share s) c = walkCut share s c := by
  obtain ⟨hcut, -, hmem⟩ := shedLow_spec share hshare lowClasses s
  have hlow : ∀ p ∈ (shedLow share lowClasses s).2.1, 4 ≤ p.1 := fun p hp => by
    have := (hmem p hp).1
    simp only [lowClasses, List.mem_cons, List.not_mem_nil, or_false] at this
    omega
  unfold walkCut
  split
  · rw [List.append_assoc, pairVal_append_left, hcut]
    intro p hp
    rcases List.mem_append.1 hp with hp | hp
    · have := midPairs_fst share s p hp
      omega
    · have := topPairs_fst share s p hp
      omega
  · rw [List.append_assoc, pairVal_append_right fun p hp => by have := hlow p hp; omega]
    split
    · rw [pairVal_append_left fun p hp => by have := topPairs_fst share s p hp; omega,
        pairVal_midPairs share s (by omega) (by omega)]
    · rw [pairVal_append_right fun p hp => by have := midPairs_fst share s p hp; omega,
        show c = 0 by omega, pairVal_topPairs share s hshare htop]

/-- A class outside the shed set is in no pair, or in one that cuts nothing. -/
theorem pairVal_of_not_mem_set (hshare : ∀ c, 0 ≤ share c) {c : Nat}
    (h : c ∉ (shedLow share lowClasses s).1 ++ ((midPairs share s).filter fun p => decide (p.2 > 0)).map (·.1) ++
      (topPairs share s).map (·.1)) (hc : 0 < walkCut share s c) (htop : 0 ≤ topRest share s) : False := by
  rw [← pairVal_walk share s hshare htop, pairVal] at hc
  cases hfind : ((shedLow share lowClasses s).2.1 ++ midPairs share s ++ topPairs share s).find? (fun p => p.1 == c) with
  | none =>
    rw [hfind] at hc
    exact lt_irrefl _ hc
  | some p =>
    have hp : 0 < p.2 := by rwa [hfind] at hc
    obtain rfl : p.1 = c := by simpa using List.find?_some hfind
    have hin := List.mem_of_find?_eq_some hfind
    simp only [List.mem_append, not_or] at h hin
    obtain ⟨⟨hlow, hmid⟩, htp⟩ := h
    rcases hin with (hin | hin) | hin
    · exact hlow ((shedLow_spec share hshare lowClasses s).2.2 p hin).2
    · exact hmid (List.mem_map.2 ⟨p, List.mem_filter.2 ⟨hin, decide_eq_true hp⟩, rfl⟩)
    · exact htp (List.mem_map.2 ⟨p, hin, rfl⟩)

end

theorem foldl_classes (f : Nat → Rat) : (List.range 8).foldl (fun a c => a + f c) 0 =
    f 0 + f 1 + f 2 + f 3 + f 4 + f 5 + f 6 + f 7 := by
  simp [List.range_succ]

/-- What the walk does with a shortfall that the shares can absorb. -/
structure WalkFits (share : Nat → Rat) (s : Rat) : Prop where
  rest : 0 ≤ topRest share s
  bounds : ∀ c < 8, 0 ≤ walkCut share s c ∧ walkCut share s c ≤ share c
  total : walkCut share s 0 + walkCut share s 1 + walkCut share s 2 + walkCut share s 3 + walkCut share s 4 +
    walkCut share s 5 + walkCut share s 6 + walkCut share s 7 = s
  top : 0 < walkCut share s 0 → ∀ c < 8, 1 ≤ c → walkCut share s c = share c
  mid : ∀ c < 4, 1 ≤ c → 0 < walkCut share s c → ∀ d < 8, 4 ≤ d → walkCut share s d = share d
  low : ∀ c < 8, ∀ d < 8, 4 ≤ c → c < d → 0 < walkCut share s c → walkCut share s d = share d

theorem walkFits {share : Nat → Rat} {s : Rat} (hshare : ∀ c, 0 ≤ share c) (hs : 0 ≤ s)
    (hle : s ≤ share 0 + share 1 + share 2 + share 3 + share 4 + share 5 + share 6 + share 7) : WalkFits share s := by
  have h0 := hshare 0
  have h1 := hshare 1
  have h2 := hshare 2
  have h3 := hshare 3
  obtain ⟨a7, b7, c7, d7⟩ := step_of_walk hs (hshare 7)
  have e7 : walkCut share s 7 = min s (share 7) := rfl
  set k7 := min s (share 7)
  obtain ⟨a6, b6, c6, d6⟩ := step_of_walk (sub_nonneg.2 c7) (hshare 6)
  have e6 : walkCut share s 6 = min (s - k7) (share 6) := rfl
  set k6 := min (s - k7) (share 6)
  obtain ⟨a5, b5, c5, d5⟩ := step_of_walk (sub_nonneg.2 c6) (hshare 5)
  have e5 : walkCut share s 5 = min (s - k7 - k6) (share 5) := rfl
  set k5 := min (s - k7 - k6) (share 5)
  obtain ⟨a4, b4, c4, d4⟩ := step_of_walk (sub_nonneg.2 c5) (hshare 4)
  have e4 : walkCut share s 4 = min (s - k7 - k6 - k5) (share 4) := rfl
  set k4 := min (s - k7 - k6 - k5) (share 4)
  have hmid : 0 ≤ midShare share := by unfold midShare; linarith
  have hrest : lowRest share lowClasses s = s - k7 - k6 - k5 - k4 := rfl
  obtain ⟨hF0, hF1, hFt, hFpos, hFone⟩ := midFactor_spec (sub_nonneg.2 c4) hmid
  have hF : midFactor (s - k7 - k6 - k5 - k4) (midShare share) = walkFactor share s := by rw [walkFactor, hrest]
  have hT : s - k7 - k6 - k5 - k4 - walkFactor share s * midShare share = topRest share s := by rw [topRest, hrest]
  rw [hF] at hF0 hF1 hFt hFpos hFone
  rw [hT] at hFone
  set F := walkFactor share s with hFdef
  set T := topRest share s with hTdef
  have hFmid : 0 ≤ F * midShare share := mul_nonneg hF0 hmid
  have hTnonneg : 0 ≤ T := by linarith
  have hcut : ∀ c < 4, 1 ≤ c → walkCut share s c = F * share c := fun c h4 h1 => by
    rw [walkCut, if_neg (by omega), if_pos h1]
  have hpart : ∀ c, 0 ≤ F * share c ∧ F * share c ≤ share c := fun c =>
    ⟨mul_nonneg hF0 (hshare c), mul_le_of_le_one_left (hshare c) hF1⟩
  have hfull : 0 < s - k7 - k6 - k5 - k4 → k7 = share 7 ∧ k6 = share 6 ∧ k5 = share 5 ∧ k4 = share 4 := fun h =>
    ⟨d7 (by linarith), d6 (by linarith), d5 (by linarith), d4 h⟩
  have hlowAll : 0 < s - k7 - k6 - k5 - k4 → ∀ d < 8, 4 ≤ d → walkCut share s d = share d := fun h d hd hd4 => by
    obtain ⟨f7, f6, f5, f4⟩ := hfull h
    interval_cases d
    · exact e4.trans f4
    · exact e5.trans f5
    · exact e6.trans f6
    · exact e7.trans f7
  have hmidEq : midShare share = share 1 + share 2 + share 3 := rfl
  have hTle : T ≤ share 0 := by
    rcases hTnonneg.lt_or_eq with hpos | hzero
    · obtain ⟨f7, f6, f5, f4⟩ := hfull (by linarith)
      rcases hFone hpos with hone | hnone
      · rw [hone] at hT
        linarith
      · rw [hnone] at hT
        linarith
    · linarith
  have e0 : walkCut share s 0 = T := min_eq_left hTle
  have e1 := hcut 1 (by decide) (by decide)
  have e2 := hcut 2 (by decide) (by decide)
  have e3 := hcut 3 (by decide) (by decide)
  refine ⟨hTnonneg, fun c hc => ?_, ?_, fun hpos c hc h1 => ?_, fun c h4 h1 hpos d hd hd4 => ?_, fun c hc d hd h4 hcd hpos => ?_⟩
  · interval_cases c
    · rw [e0]; exact ⟨hTnonneg, hTle⟩
    · rw [e1]; exact hpart 1
    · rw [e2]; exact hpart 2
    · rw [e3]; exact hpart 3
    · rw [e4]; exact ⟨a4, b4⟩
    · rw [e5]; exact ⟨a5, b5⟩
    · rw [e6]; exact ⟨a6, b6⟩
    · rw [e7]; exact ⟨a7, b7⟩
  · rw [hmidEq, mul_add, mul_add] at hT
    rw [e0, e1, e2, e3, e4, e5, e6, e7]
    linarith
  · rw [e0] at hpos
    by_cases h4 : 4 ≤ c
    · exact hlowAll (by linarith) c hc h4
    · rw [hcut c (by omega) h1]
      rcases hFone hpos with hone | hnone
      · rw [hone, one_mul]
      · rw [hmidEq] at hnone
        have hzero : share c = 0 := by
          obtain rfl | rfl | rfl : c = 1 ∨ c = 2 ∨ c = 3 := by omega
          · linarith
          · linarith
          · linarith
        rw [hzero, mul_zero]
  · rw [hcut c h4 h1] at hpos
    have hFp : 0 < F := hF0.lt_of_ne fun h => by rw [← h, zero_mul] at hpos; exact lt_irrefl _ hpos
    exact hlowAll (hFpos hFp) d hd hd4
  · interval_cases c
    · rw [e4] at hpos
      obtain ⟨f7, f6, f5⟩ : k7 = share 7 ∧ k6 = share 6 ∧ k5 = share 5 := ⟨d7 (by linarith), d6 (by linarith), d5 (by linarith)⟩
      interval_cases d
      · exact e5.trans f5
      · exact e6.trans f6
      · exact e7.trans f7
    · rw [e5] at hpos
      obtain ⟨f7, f6⟩ : k7 = share 7 ∧ k6 = share 6 := ⟨d7 (by linarith), d6 (by linarith)⟩
      interval_cases d
      · exact e6.trans f6
      · exact e7.trans f7
    · rw [e6] at hpos
      obtain rfl : d = 7 := by omega
      exact e7.trans (d7 (by linarith))
    · omega

/-- Settles O31: either the shares fit, or the walk absorbs all that they exceed. -/
theorem shedCutsFitTheCapacity : Obligations.ShedCutsFitTheCapacity := by
  unfold Obligations.ShedCutsFitTheCapacity
  intro share cNow hshare r cut total spare
  have hshort : shortOf share cNow = total share - spare := rfl
  rcases le_or_gt (shortOf share cNow) 0 with hfit | hover
  · have hr : r = ⟨[], [0, 0, 0, 0, 0, 0, 0, 0], 0⟩ := shedWalk_of_fit share hfit
    have hcut : ∀ c < 8, cut c = 0 := fun c hc => by
      simp only [cut, hr]
      interval_cases c <;> rfl
    have hno : ∀ c < 8, ¬ 0 < cut c := fun c hc => by rw [hcut c hc]; exact lt_irrefl _
    refine ⟨fun c hc => ?_, ?_, ?_, fun h => absurd h (hno 0 (by decide)), fun c hc _ h => absurd h (hno c (by omega)),
      fun c hc _ _ _ _ h => absurd h (hno c hc)⟩
    · rw [hcut c hc]
      exact ⟨le_rfl, hshare c, fun _ => rfl⟩
    · rw [hr, max_eq_left (hshort ▸ hfit)]
    · simp only [total, foldl_classes, hcut _ (by decide : 0 < 8), hcut _ (by decide : 1 < 8), hcut _ (by decide : 2 < 8),
        hcut _ (by decide : 3 < 8), hcut _ (by decide : 4 < 8), hcut _ (by decide : 5 < 8), hcut _ (by decide : 6 < 8),
        hcut _ (by decide : 7 < 8), hr, sub_zero]
  · have hr := shedWalk_of_short share hshare hover
    have hspare : 0 ≤ spare := by positivity
    have htotal : total share = _ := foldl_classes share
    have hfits := walkFits (share := share) (s := shortOf share cNow) hshare hover.le (by linarith)
    have hcut : ∀ c < 8, cut c = walkCut share (shortOf share cNow) c := fun c hc => by
      have hnth : ∀ f : Nat → Rat, nth ((List.range 8).map f) c 0 = f c := fun f => by
        simp [nth, List.getD_eq_getElem?_getD, hc]
      simp only [cut, r, hr, hnth]
      exact pairVal_walk share _ hshare hfits.rest
    have hshortR : r.short = shortOf share cNow := congrArg Shed.short hr
    refine ⟨fun c hc => ?_, ?_, ?_, ?_, ?_, ?_⟩
    · rw [hcut c hc]
      obtain ⟨hnonneg, hle⟩ := hfits.bounds c hc
      refine ⟨hnonneg, hle, fun hset => ?_⟩
      by_contra hne
      rw [show r.set = _ from congrArg Shed.set hr] at hset
      exact pairVal_of_not_mem_set share _ hshare hset (hnonneg.lt_of_ne (Ne.symm hne)) hfits.rest
    · rw [hshortR, ← hshort, max_eq_right hover.le]
    · have hsum := hfits.total
      simp only [total, foldl_classes, hcut _ (by decide : 0 < 8), hcut _ (by decide : 1 < 8), hcut _ (by decide : 2 < 8),
        hcut _ (by decide : 3 < 8), hcut _ (by decide : 4 < 8), hcut _ (by decide : 5 < 8), hcut _ (by decide : 6 < 8),
        hcut _ (by decide : 7 < 8), hshortR]
      linarith
    · intro hpos c hc h1
      rw [hcut 0 (by decide)] at hpos
      exact (hcut c hc).trans (hfits.top hpos c hc h1)
    · intro c hc h1 hpos d hd h4
      rw [hcut c (by omega)] at hpos
      exact (hcut d hd).trans (hfits.mid c hc h1 hpos d hd h4)
    · intro c hc d hd h4 hcd hpos
      rw [hcut c hc] at hpos
      exact (hcut d hd).trans (hfits.low c hc d hd h4 hcd hpos)

end Sys2Proof.Machine

/-! # The timebase: exact nominal advance, and slews (R433, R440, R441) -/

namespace Sys2Proof.Machine

/-- R433: STEP and REM of a bin are 128 root periods. -/
theorem bin_periods (bin : Nat) : binStep bin * binRate bin + binRem bin = 128000 * 2 ^ 24 := by
  unfold binStep binRate binRem
  split <;> rfl

theorem binRate_pos (bin : Nat) : 0 < binRate bin := by
  unfold binRate
  split <;> decide

/-- R440: TBS cycles advance by their root periods exactly: the remainder carries what the quotient leaves. -/
theorem nominalAdvance_exact (bin rem n : Nat) :
    (nominalAdvance bin rem n).1 * binRate bin + (nominalAdvance bin rem n).2 = n * (128000 * 2 ^ 24) + rem := by
  have hdiv := Nat.div_add_mod (rem + n * binRem bin) (binRate bin)
  rw [← bin_periods bin]
  simp only [nominalAdvance]
  linear_combination hdiv

theorem nominalAdvance_rem_lt (bin rem n : Nat) : (nominalAdvance bin rem n).2 < binRate bin :=
  Nat.mod_lt _ (binRate_pos bin)

/-- R440: the advance of cycles in two parts is their advance at once. -/
theorem nominalAdvance_add (bin rem m n : Nat) :
    nominalAdvance bin rem (m + n) =
      ((nominalAdvance bin rem m).1 + (nominalAdvance bin (nominalAdvance bin rem m).2 n).1,
        (nominalAdvance bin (nominalAdvance bin rem m).2 n).2) := by
  have hpos := binRate_pos bin
  have hsplit : rem + (m + n) * binRem bin =
      (rem + m * binRem bin) % binRate bin + n * binRem bin + binRate bin * ((rem + m * binRem bin) / binRate bin) := by
    have := Nat.mod_add_div (rem + m * binRem bin) (binRate bin)
    linear_combination -this
  simp only [nominalAdvance, hsplit, Nat.add_mul_div_left _ _ hpos, Nat.add_mul_mod_self_left, Prod.mk.injEq, and_true]
  ring

/-! ## Clocks without a slew -/

theorem slewPart_zero (bin n : Nat) : slewPart bin 0 n = 0 := by
  simp only [slewPart, ge_iff_le, le_refl, if_true]
  exact min_eq_left (Int.natCast_nonneg _)

/-- R440, R444: without a slew, TB advances with nominal time. -/
theorem tbsCycles_of_no_slew {c : Clk} (h : c.slew = 0) (n : Nat) : tbsCycles c n = { c with
    rem := (nominalAdvance c.bin c.rem n).2
    nominal := c.nominal + (nominalAdvance c.bin c.rem n).1
    tb := (c.tb + (nominalAdvance c.bin c.rem n).1) % 2 ^ 88 } := by
  simp only [tbsCycles, h, slewPart_zero, Int.add_zero, Int.toNat_natCast, Int.sub_zero, ne_eq, not_true_eq_false,
    decide_false, Bool.false_and, Bool.or_false]

theorem tbsCycles_add {c : Clk} (h : c.slew = 0) (m n : Nat) : tbsCycles (tbsCycles c m) n = tbsCycles c (m + n) := by
  rw [tbsCycles_of_no_slew h m, tbsCycles_of_no_slew h (m + n), tbsCycles_of_no_slew (by exact h) n, nominalAdvance_add]
  simp only [Nat.mod_add_mod, Nat.add_assoc]

/-- A change of the CTL count leaves the timebase's cycles as they are. -/
theorem tbsCycles_cyc (c : Clk) (k n : Nat) : tbsCycles { c with cyc := k } n = { tbsCycles c n with cyc := k } := rfl

theorem clkCycles_locked {c : Clk} (h : c.root = .locked) (n : Nat) :
    clkCycles c n = { tbsCycles c ((c.cyc + n) / 16 - c.cyc / 16) with cyc := c.cyc + n } := if_pos h

theorem clkCycles_add {c : Clk} (h : c.slew = 0) (m n : Nat) : clkCycles (clkCycles c m) n = clkCycles c (m + n) := by
  by_cases hroot : c.root = .locked
  · rw [clkCycles_locked hroot m, clkCycles_locked hroot (m + n),
      clkCycles_locked (c := { tbsCycles c ((c.cyc + m) / 16 - c.cyc / 16) with cyc := c.cyc + m }) hroot n,
      tbsCycles_cyc, tbsCycles_add h]
    simp only [Nat.add_assoc]
    rw [show (c.cyc + m) / 16 - c.cyc / 16 + ((c.cyc + (m + n)) / 16 - (c.cyc + m) / 16) =
      (c.cyc + (m + n)) / 16 - c.cyc / 16 by omega]
  · have hstop : ∀ k, clkCycles c k = c := fun k => if_neg hroot
    rw [hstop, hstop, hstop]

/-! ## Slews -/

/-- R444: a slew moves TB by at most a sixteenth of the nominal advance. -/
theorem slewPart_bounds (bin : Nat) (slew : Int) (rem n : Nat) :
    -((nominalAdvance bin rem n).1 : Int) ≤ 16 * slewPart bin slew n ∧
      16 * slewPart bin slew n ≤ (nominalAdvance bin rem n).1 := by
  have hstep : n * (binStep bin / 16) * 16 ≤ (nominalAdvance bin rem n).1 := by
    rw [Nat.mul_assoc]
    exact (Nat.mul_le_mul_left n (Nat.div_mul_le_self _ 16)).trans (Nat.le_add_right _ _)
  simp only [slewPart, Int.ofNat_eq_natCast]
  split <;> omega

/-- Settles O35: exactness of the remainder, additivity, and the bound of a slew. -/
theorem timebaseFollowsTheReference : Obligations.TimebaseFollowsTheReference := by
  unfold Obligations.TimebaseFollowsTheReference
  refine ⟨fun bin rem n _ => ⟨nominalAdvance_exact bin rem n, nominalAdvance_rem_lt bin rem n⟩,
    fun c m n _ h _ => clkCycles_add h m n, fun c n h => ?_⟩
  obtain ⟨hlo, hhi⟩ := slewPart_bounds c.bin c.slew c.rem n
  have htb : (tbsCycles c n).tb =
      (((c.tb + (nominalAdvance c.bin c.rem n).1 : Nat) : Int) + slewPart c.bin c.slew n).toNat % 2 ^ 88 := rfl
  have hnominal : (tbsCycles c n).nominal = c.nominal + (nominalAdvance c.bin c.rem n).1 := rfl
  generalize (nominalAdvance c.bin c.rem n).1 = adv at *
  generalize slewPart c.bin c.slew n = part at *
  rw [Nat.mod_eq_of_lt (by omega)] at htb
  exact ⟨by omega, by omega, hnominal⟩

end Sys2Proof.Machine

/-! # The packer's decision table and the choice of a Vref code (R228, R298) -/

namespace Sys2Proof.Machine

/-! ## The packer -/

/-- Two cells pack exactly where both fit. -/
theorem isSome_packCells (a b : Cell) : (packCells a b).isSome = (cellFits a && cellFits b) := by
  cases a with
  | none => rfl
  | some x =>
    cases b with
    | none => simp [packCells, cellFits]
    | some y => exact isSome_packPair x y

theorem packCells_eq_none {a b : Cell} (h : cellFits a = false ∨ cellFits b = false) : packCells a b = none := by
  rw [← Option.isNone_iff_eq_none, ← Option.not_isSome, isSome_packCells]
  rcases h with h | h <;> simp [h]

/-- The written line and its partner, in the order of their addresses. -/
theorem decideSeparate_of_partner (la : Nat) (pack : Bool) (x y : Cell) : decideSeparate la pack x (some y) =
    match (if la % 2 = 0 then packCells x y else packCells y x) with
    | some p => if pack then ⟨[(la / 2 * 2, some p)], 3, true, false⟩ else ⟨[(la, x)], 0, false, false⟩
    | none => ⟨[(la, x)], 0, false, false⟩ := rfl

theorem decideSeparate_of_not_fit {la : Nat} {pack : Bool} {x y : Cell}
    (h : cellFits x = false ∨ cellFits y = false ∨ pack = false) :
    decideSeparate la pack x (some y) = ⟨[(la, x)], 0, false, false⟩ := by
  rw [decideSeparate_of_partner]
  rcases h with h | h | rfl
  · rw [packCells_eq_none (.inl h), packCells_eq_none (.inr h), ite_self]
  · rw [packCells_eq_none (.inl h), packCells_eq_none (.inr h), ite_self]
  · split <;> rfl

theorem decidePacked_of_not_fit {k2 : Nat} {pack poisoned : Bool} {a b : Cell}
    (h : packCells a b = none ∨ pack = false ∨ poisoned = true) :
    decidePacked k2 pack poisoned a b = ⟨[(k2, a), (k2 + 1, b)], 0, false, true⟩ := by
  unfold decidePacked
  rcases h with h | rfl | rfl
  · rw [h]
  · split <;> rfl
  · split
    · simp
    · rfl

/-- Settles O21: the rows of the table, for the even line and for the odd one. -/
theorem packerDecidesByItsTable : Obligations.PackerDecidesByItsTable := by
  unfold Obligations.PackerDecidesByItsTable
  intro k la pack poisoned a b hla x y own
  refine ⟨fun h => decideSeparate_of_not_fit (.inl h), rfl, fun h => decideSeparate_of_not_fit (.inr h),
    fun p hp hpack => ?_, fun p hp hpack hpois => ?_, fun h => decidePacked_of_not_fit (h.imp_left fun hx => ?_)⟩
  · rw [decideSeparate_of_partner, hpack]
    rcases hla with rfl | rfl
    · simp [x, y, hp]
      omega
    · simp [x, y, hp, show (2 * k + 1) % 2 = 1 by omega, show (2 * k + 1) / 2 * 2 = 2 * k by omega]
  · simp [decidePacked, hp, hpack, hpois]
  · rcases hla with rfl | rfl
    · exact packCells_eq_none (.inl (by simpa [x] using hx))
    · exact packCells_eq_none (.inr (by simpa [x] using hx))

/-! ## The Vref code -/

/-- The better of what is kept and a new element. -/
def keepBest {α : Type} (better : α → α → Bool) (o : Option α) (x : α) : Option α :=
  match o with
  | none => some x
  | some b => if better x b then some x else some b

/-- Keeping the better of two on the way through a list leaves an element that is no worse than any, for every
transitive reading of "no worse" that the comparison decides. -/
theorem foldl_best {α : Type} {better : α → α → Bool} {nw : α → α → Prop} (hrefl : ∀ a, nw a a)
    (htrans : ∀ a b c, nw a b → nw b c → nw a c) (hyes : ∀ a b, better a b = true → nw a b)
    (hno : ∀ a b, better a b = false → nw b a) (l : List α) (b : α) :
    ∃ c, l.foldl (keepBest better) (some b) = some c ∧
      c ∈ b :: l ∧ ∀ d ∈ b :: l, nw c d := by
  induction l generalizing b with
  | nil => exact ⟨b, rfl, List.mem_singleton_self b, fun d hd => by rw [List.mem_singleton.1 hd]; exact hrefl b⟩
  | cons x l ih =>
    rw [List.foldl_cons]
    cases hb : better x b with
    | true =>
      obtain ⟨c, hc, hmem, hbest⟩ := ih x
      refine ⟨c, by simpa only [keepBest, hb, if_true] using hc, List.mem_cons_of_mem _ hmem, fun d hd => ?_⟩
      rcases List.mem_cons.1 hd with rfl | hd
      · exact htrans c x _ (hbest x (List.mem_cons_self ..)) (hyes x _ hb)
      · exact hbest d hd
    | false =>
      obtain ⟨c, hc, hmem, hbest⟩ := ih b
      refine ⟨c, by simpa only [keepBest, hb, Bool.false_eq_true, if_false] using hc, ?_, fun d hd => ?_⟩
      · rcases List.mem_cons.1 hmem with rfl | hmem
        · exact List.mem_cons_self ..
        · exact List.mem_cons_of_mem _ (List.mem_cons_of_mem _ hmem)
      · rcases List.mem_cons.1 hd with rfl | hd
        · exact hbest _ (List.mem_cons_self ..)
        · rcases List.mem_cons.1 hd with rfl | hd
          · exact htrans c b _ (hbest b (List.mem_cons_self ..)) (hno _ b hb)
          · exact hbest d (List.mem_cons_of_mem _ hd)

/-- A code of a sweep with the passing ranges of its lanes. -/
abbrev Code := Fin 128 × List Range

/-- Twice the distance of a code from the middle of the codes from `lo` to `hi`, with `mid` their sum. -/
def farFrom (mid v : Nat) : Nat := (2 * v - mid) + (mid - 2 * v)

theorem farFrom_eq (mid v : Nat) : farFrom mid v = (2 * (v : Int) - mid).natAbs := by
  unfold farFrom
  omega

/-- R228: the comparison of two passing codes. -/
def betterCode (mid : Nat) (a b : Code) : Bool :=
  let wa := (codeWidth a.2).getD 0
  let wb := (codeWidth b.2).getD 0
  decide (wa > wb) || (wa == wb && (decide (farFrom mid a.1.val < farFrom mid b.1.val) ||
    (farFrom mid a.1.val == farFrom mid b.1.val && decide (a.1 < b.1))))

/-- A code is no worse than another: no narrower, and, where as wide, no farther from the middle. -/
def NoWorse (mid : Nat) (a b : Code) : Prop :=
  let wa := (codeWidth a.2).getD 0
  let wb := (codeWidth b.2).getD 0
  wb ≤ wa ∧ (wb = wa → farFrom mid a.1.val ≤ farFrom mid b.1.val)

theorem NoWorse.trans {mid : Nat} {a b c : Code} (hab : NoWorse mid a b) (hbc : NoWorse mid b c) : NoWorse mid a c := by
  simp only [NoWorse] at *
  omega

theorem noWorse_of_better {mid : Nat} {a b : Code} (h : betterCode mid a b = true) : NoWorse mid a b := by
  simp only [betterCode, Bool.or_eq_true, decide_eq_true_eq, Bool.and_eq_true, beq_iff_eq] at h
  simp only [NoWorse]
  omega

theorem noWorse_of_not_better {mid : Nat} {a b : Code} (h : betterCode mid a b = false) : NoWorse mid b a := by
  simp only [betterCode, Bool.or_eq_false_iff, decide_eq_false_iff_not, Bool.and_eq_false_iff, beq_eq_false_iff_ne] at h
  simp only [NoWorse]
  omega

/-- The passing codes of a sweep, and the sum of the lowest and the highest. -/
def passing (codes : List Code) : List Code := codes.filter fun c => (codeWidth c.2).isSome
def midOf (codes : List Code) : Nat :=
  let vs := (passing codes).map fun c => c.1.val
  (vs.min?.getD 0) + (vs.max?.getD 0)

theorem chooseCode_eq (codes : List Code) : chooseCode codes =
    (passing codes).foldl (keepBest (betterCode (midOf codes))) none := by
  unfold chooseCode
  refine congrArg (fun f => List.foldl f none _) (funext fun o => funext fun c => ?_)
  cases o <;> rfl

theorem chooseCode_of_none {codes : List Code} (h : passing codes = []) : chooseCode codes = none := by
  rw [chooseCode_eq, h]
  rfl

theorem chooseCode_of_cons {codes l : List Code} {b : Code} (h : passing codes = b :: l) :
    ∃ c, chooseCode codes = some c ∧ c ∈ passing codes ∧ ∀ d ∈ passing codes, NoWorse (midOf codes) c d := by
  rw [chooseCode_eq, h]
  exact foldl_best (nw := NoWorse (midOf codes)) (fun a => ⟨le_rfl, fun _ => le_rfl⟩) (fun _ _ _ => NoWorse.trans) (fun _ _ => noWorse_of_better)
    (fun _ _ => noWorse_of_not_better) l b

theorem passing_eq_nil_iff {codes : List Code} : passing codes = [] ↔ ∀ c ∈ codes, codeWidth c.2 = none := by
  simp [passing, List.filter_eq_nil_iff]

/-- Settles O15: the fold keeps a code that is no worse than any passing one. -/
theorem centeringChoosesTheWidestCode : Obligations.CenteringChoosesTheWidestCode := by
  unfold Obligations.CenteringChoosesTheWidestCode
  intro codes
  rw [← passing_eq_nil_iff]
  cases hok : passing codes with
  | nil =>
    rw [chooseCode_of_none hok]
    exact ⟨by simp, fun c hc => by cases hc⟩
  | cons b l =>
    obtain ⟨c, hc, hmem, hbest⟩ := chooseCode_of_cons hok
    rw [hc]
    refine ⟨by simp, fun c' hc' => ?_⟩
    obtain rfl := Option.some.inj hc'
    intro vs far
    obtain ⟨hin, hsome⟩ := List.mem_filter.1 hmem
    obtain ⟨w, hw⟩ := Option.isSome_iff_exists.1 hsome
    refine ⟨hin, w, hw, fun d hd v hv => ?_⟩
    have hdbest := hbest d (List.mem_filter.2 ⟨hd, by rw [hv]; rfl⟩)
    have hfar : ∀ x : Code, far x = farFrom (midOf codes) x.1.val := fun x => by
      rw [farFrom_eq]
      simp only [far, vs, midOf, passing, Nat.cast_add]
    simp only [NoWorse, hw, hv, Option.getD_some] at hdbest
    rw [hfar, hfar]
    exact hdbest

end Sys2Proof.Machine

/-! # Write accesses of a mapped register at its value address (R47, R562) -/

namespace Sys2Proof.Machine

theorem portUp_ext {e : Engine} (h : clocked e = true) : portUp e .ext = true := by
  simp [portUp, portPair, regAvail, h]

/-- An access of a value address outside the CH_ range completes where a register is mapped there. -/
theorem accessError_value {a : Nat} (e : Engine) (h16 : a % 16 = 0) (hmap : mapped a = true) (hch : a / 0x100000 ≠ 1) :
    accessError e a = 0 := by
  have hval : valueAddr a = a := by unfold valueAddr; omega
  have hpow : chanPowered e a = true := by simp [chanPowered, chanOfAddr, hch]
  rw [accessError, if_neg (by omega), hval, if_neg (by simp [hmap]), if_neg (by simp [hpow])]

/-- A port that is up, at a value address outside the CH_ range: the write is traced and reaches the register. -/
theorem portWrite_value {e : Engine} {p : RegPort} {a : Nat} (data : Word) (hup : portUp e p = true) (h16 : a % 16 = 0)
    (hmap : mapped a = true) (hch : a / 0x100000 ≠ 1) :
    portWrite e p a data = regWrite (traceRec e (if isInternal p then 2 else 1) a data) p a 0 data := by
  have hval : valueAddr a = a := by unfold valueAddr; omega
  have hal : aliasOf a = 0 := by unfold aliasOf; omega
  simp [portWrite, hup, accessError_value _ h16 hmap hch, hval, hal]

/-- A bit of a number. -/
theorem getLsbD_ofNat_eq (n i : Nat) (h : i < 32) : (BitVec.ofNat 32 n).getLsbD i = decide (n / 2 ^ i % 2 = 1) := by
  rw [BitVec.getLsbD_ofNat, decide_eq_true h, Bool.true_and, Nat.testBit_eq_decide_div_mod_eq]

end Sys2Proof.Machine

/-! # Semaphores have one owner (R493–R496) -/

namespace Sys2Proof.Machine

/-! ## The written word and its operation -/

/-- R494: the action bits and the fields of an operation's word. -/
theorem semWord_fields (b : Nat) (kind : Bool) (id : BitVec 12) (hb : b = 29 ∨ b = 30 ∨ b = 31) :
    (semWord b kind id).getLsbD 31 = decide (b = 31) ∧ (semWord b kind id).getLsbD 30 = decide (b = 30) ∧
      (semWord b kind id).getLsbD 29 = decide (b = 29) ∧
      wordField (semWord b kind id) 12 12 = (if kind then 1 else 0) ∧ wordField (semWord b kind id) 11 0 = id.toNat := by
  have hid : id.toNat < 4096 := id.isLt
  have hsmall : (if kind then 2 ^ 12 else 0) + id.toNat < 2 ^ 13 := by split <;> omega
  have htop : 2 ^ b + (if kind then 2 ^ 12 else 0) + id.toNat < 2 ^ 32 := by
    rcases hb with rfl | rfl | rfl <;> omega
  refine ⟨?_, ?_, ?_, ?_, ?_⟩
  · rw [semWord, getLsbD_ofNat_eq _ _ (by omega), decide_eq_decide]
    rcases hb with rfl | rfl | rfl <;> omega
  · rw [semWord, getLsbD_ofNat_eq _ _ (by omega), decide_eq_decide]
    rcases hb with rfl | rfl | rfl <;> omega
  · rw [semWord, getLsbD_ofNat_eq _ _ (by omega), decide_eq_decide]
    rcases hb with rfl | rfl | rfl <;> omega
  · rw [semWord, wordField, BitVec.toNat_ofNat, Nat.mod_eq_of_lt htop]
    rcases hb with rfl | rfl | rfl <;> cases kind <;> simp <;> omega
  · rw [semWord, wordField, BitVec.toNat_ofNat, Nat.mod_eq_of_lt htop]
    rcases hb with rfl | rfl | rfl <;> cases kind <;> simp <;> omega

theorem mapped_semOp : ∀ n : Fin 64, mapped (MBX_SEM_OP n) = true := by decide

/-- A write of MBX_SEMn_OP through the register port is its operation. -/
theorem portWrite_semOp {e : Engine} (n : Fin 64) (w : Word) (hclk : clocked e = true) :
    portWrite e .ext (MBX_SEM_OP n) w = semOp (traceRec e 1 (MBX_SEM_OP n) w) n .ext w := by
  have hn := n.isLt
  have h16 : MBX_SEM_OP n % 16 = 0 := by simp only [MBX_SEM_OP]; omega
  have hreg : MBX_SEM_OP n / 0x100000 = 7 := by simp only [MBX_SEM_OP]; omega
  rw [portWrite_value w (portUp_ext hclk) h16 (mapped_semOp n) (by omega)]
  have hspecial : ∀ x : Engine, special x .ext (MBX_SEM_OP n) 0 w = some (semOp x n .ext w) := fun x => by
    have hix : (MBX_SEM_OP n - MBX_SEM_OP 0) / 0x10 = n := by simp only [MBX_SEM_OP]; omega
    simp only [special, hreg, mbxSpecial, hix]
    rw [if_neg (by simp only [MBX_SEM_OP, MBX_MB_STATE]; omega), if_neg (by simp only [MBX_SEM_OP, MBX_BIND]; omega),
      if_neg (by simp only [MBX_SEM_OP, MBX_CORE_KICK]; omega), if_pos (by simp only [MBX_SEM_OP]; omega), if_true]
  simp only [regWrite, hspecial]
  rfl

section
variable {e : Engine} {n : Nat} {id : BitVec 12}

/-- R494: at the register port an operation of KIND 1 is foreign. -/
theorem semOp_foreign {b : Nat} (hb : b = 29 ∨ b = 30 ∨ b = 31) :
    semOp e n .ext (semWord b true id) = boxFlag e MBX_STATUS_SEM_FOREIGN n := by
  obtain ⟨-, -, -, hkind, -⟩ := semWord_fields b true id hb
  simp [semOp, portPair, hkind]

theorem semOp_acq : semOp e n .ext (semWord 31 false id) = semAct e n 0 id.toNat .acq := by
  obtain ⟨h31, h30, h29, hkind, hid⟩ := semWord_fields 31 false id (by decide)
  simp only [semOp, portPair, hkind, h31, h30, h29, hid, Bool.false_eq_true, if_false, zero_ne_one, decide_true,
    Nat.reduceEqDiff, decide_false]

theorem semOp_rel : semOp e n .ext (semWord 30 false id) = semAct e n 0 id.toNat .rel := by
  obtain ⟨h31, h30, h29, hkind, hid⟩ := semWord_fields 30 false id (by decide)
  simp only [semOp, portPair, hkind, h31, h30, h29, hid, Bool.false_eq_true, if_false, zero_ne_one, decide_true,
    Nat.reduceEqDiff, decide_false]

theorem semOp_clrAbn : semOp e n .ext (semWord 29 false id) = semAct e n 0 id.toNat .clrAbn := by
  obtain ⟨h31, h30, h29, hkind, hid⟩ := semWord_fields 29 false id (by decide)
  simp only [semOp, portPair, hkind, h31, h30, h29, hid, Bool.false_eq_true, if_false, zero_ne_one, decide_true,
    Nat.reduceEqDiff, decide_false]

end

/-! ## Abandonment -/

/-- R495: an abandonment touches the semaphore's own register. -/
theorem reg_semAbandon_ne (k i cause : Nat) (e : Engine) {s a : Nat} (h : a ≠ MBX_SEM s) :
    reg (semAbandon k i cause e s) a = reg e a := by
  unfold semAbandon
  split
  · exact reg_setReg_ne _ _ h
  · rfl

theorem semAbandon_held {k i cause : Nat} {e : Engine} {s : Nat}
    (h : on e (MBX_SEM_HELD s) = true ∧ rd e (MBX_SEM_KIND s) = k ∧ rd e (MBX_SEM_OWNER s) = i) :
    reg (semAbandon k i cause e s) (MBX_SEM s) = setFields 0
      [(MBX_SEM_ABANDONED s, 1), (MBX_SEM_CAUSE s, cause), (MBX_SEM_PREV_KIND s, k), (MBX_SEM_PREV_OWNER s, i)] := by
  rw [semAbandon, if_pos h]
  exact reg_setReg_same ..

theorem reg_foldl_semAbandon_ne (k i cause : Nat) (l : List Nat) (e : Engine) {n : Nat} (h : n ∉ l) :
    reg (l.foldl (semAbandon k i cause) e) (MBX_SEM n) = reg e (MBX_SEM n) := by
  induction l generalizing e with
  | nil => rfl
  | cons s l ih =>
    rw [List.mem_cons, not_or] at h
    rw [List.foldl_cons, ih _ h.2, reg_semAbandon_ne]
    simp only [MBX_SEM]
    omega

/-- The walk over the semaphores abandons each one as it finds it. -/
theorem reg_semAbandonAll {k i cause : Nat} (e : Engine) {n : Nat} (hn : n < 64)
    (h : on e (MBX_SEM_HELD n) = true ∧ rd e (MBX_SEM_KIND n) = k ∧ rd e (MBX_SEM_OWNER n) = i) :
    reg (semAbandonAll e k i cause) (MBX_SEM n) = setFields 0
      [(MBX_SEM_ABANDONED n, 1), (MBX_SEM_CAUSE n, cause), (MBX_SEM_PREV_KIND n, k), (MBX_SEM_PREV_OWNER n, i)] := by
  obtain ⟨before, after, hsplit⟩ := List.append_of_mem (List.mem_range.2 hn)
  have hnodup := List.nodup_range (n := 64)
  rw [hsplit, List.nodup_middle, List.nodup_cons, List.mem_append, not_or] at hnodup
  obtain ⟨⟨hb, ha⟩, -⟩ := hnodup
  have hbefore := reg_foldl_semAbandon_ne k i cause before e hb
  rw [semAbandonAll, hsplit, List.foldl_append, List.foldl_cons, reg_foldl_semAbandon_ne k i cause after _ ha]
  refine semAbandon_held ?_
  simpa only [on, rd, hbefore] using h

/-! ## The obligation -/

theorem semExec_acq (s : State) (rp : RegPort) (n : Fin 64) (kind : Bool) (id : BitVec 12) {e : Engine}
    (h : portWrite s.fresh rp (MBX_SEM_OP n) (semWord 31 kind id) = e) : AnswersWrite (.semAcq rp n kind id) s e := by
  subst h
  rfl

theorem semExec_rel (s : State) (rp : RegPort) (n : Fin 64) (kind : Bool) (id : BitVec 12) {e : Engine}
    (h : portWrite s.fresh rp (MBX_SEM_OP n) (semWord 30 kind id) = e) : AnswersWrite (.semRel rp n kind id) s e := by
  subst h
  rfl

theorem semExec_clrAbn (s : State) (rp : RegPort) (n : Fin 64) (kind : Bool) (id : BitVec 12) {e : Engine}
    (h : portWrite s.fresh rp (MBX_SEM_OP n) (semWord 29 kind id) = e) : AnswersWrite (.semClrAbn rp n kind id) s e := by
  subst h
  rfl

/-- The word of an abandoned semaphore: free, with its cause and its previous owner. -/
def abandonedWord (n k i cause : Nat) : Word := setFields 0
  [(MBX_SEM_ABANDONED n, 1), (MBX_SEM_CAUSE n, cause), (MBX_SEM_PREV_KIND n, k), (MBX_SEM_PREV_OWNER n, i)]

theorem abandonedWord_fields {n k i cause : Nat} (hcause : cause < 4) (hk : k < 2) (hi : i < 4096) :
    wordField (abandonedWord n k i cause) 31 31 = 0 ∧ wordField (abandonedWord n k i cause) 30 30 = 1 ∧
      wordField (abandonedWord n k i cause) 29 28 = cause ∧ wordField (abandonedWord n k i cause) 14 14 = k ∧
      wordField (abandonedWord n k i cause) 13 2 = i := by
  have hfree := wordField_setFields_apart [(MBX_SEM_ABANDONED n, 1), (MBX_SEM_CAUSE n, cause), (MBX_SEM_PREV_KIND n, k),
    (MBX_SEM_PREV_OWNER n, i)] (MBX_SEM_HELD n) (by simp [Fld.Apart]) 0
  have habn := wordField_setFields_mem [] [(MBX_SEM_CAUSE n, cause), (MBX_SEM_PREV_KIND n, k), (MBX_SEM_PREV_OWNER n, i)]
    (MBX_SEM_ABANDONED n) 1 (by simp) (by simp) (by simp [Fld.Apart]) 0
  have hc := wordField_setFields_mem [(MBX_SEM_ABANDONED n, 1)] [(MBX_SEM_PREV_KIND n, k), (MBX_SEM_PREV_OWNER n, i)]
    (MBX_SEM_CAUSE n) cause (by simp) (by simp) (by simp [Fld.Apart]) 0
  have hkind := wordField_setFields_mem [(MBX_SEM_ABANDONED n, 1), (MBX_SEM_CAUSE n, cause)] [(MBX_SEM_PREV_OWNER n, i)]
    (MBX_SEM_PREV_KIND n) k (by simp) (by simp) (by simp [Fld.Apart]) 0
  have howner := wordField_setFields_mem [(MBX_SEM_ABANDONED n, 1), (MBX_SEM_CAUSE n, cause), (MBX_SEM_PREV_KIND n, k)] []
    (MBX_SEM_PREV_OWNER n) i (by simp) (by simp) (by simp) 0
  exact ⟨hfree.trans (by simp [wordField]), habn, hc.trans (Nat.mod_eq_of_lt hcause), hkind.trans (Nat.mod_eq_of_lt hk),
    howner.trans (Nat.mod_eq_of_lt hi)⟩

/-- Settles O41: each operation by whether the semaphore is held, and by whom. -/
theorem semaphoresHaveOneOwner : Obligations.SemaphoresHaveOneOwner := by
  unfold Obligations.SemaphoresHaveOneOwner
  intro s n id kind e r c mine set hclk
  refine ⟨fun hk => ?_, fun hk => ?_, fun x k i cause hcause hk hi hheld hkind howner => ?_⟩
  · subst hk
    exact semExec_acq s _ n _ id ((portWrite_semOp n _ hclk).trans (semOp_foreign (by decide)))
  · subst hk
    have hacq := (portWrite_semOp n (semWord 31 false id) hclk).trans semOp_acq
    have hrel := (portWrite_semOp n (semWord 30 false id) hclk).trans semOp_rel
    have hclr := (portWrite_semOp n (semWord 29 false id) hclk).trans semOp_clrAbn
    have hon : ∀ k w f, on (traceRec s.fresh 1 k w) f = on s.fresh f := fun k w f => on_congr (traceRec_regs ..) f
    have hrd : ∀ k w f, rd (traceRec s.fresh 1 k w) f = rd s.fresh f := fun k w f => rd_congr (traceRec_regs ..) f
    refine ⟨fun hfree => semExec_acq s _ n _ id (hacq.trans ?_), fun ⟨hheld, hkind, howner⟩ => ?_, fun hnot => ?_⟩
    · simp [semAct, hon, hfree, e]
    · refine ⟨semExec_acq s _ n _ id (hacq.trans ?_), semExec_rel s _ n _ id (hrel.trans ?_),
        semExec_clrAbn s _ n _ id (hclr.trans ?_)⟩
      · simp [semAct, hon, hrd, hheld, hkind, howner, e]
      · simp [semAct, hon, hrd, hheld, hkind, howner, r]
      · simp [semAct, hon, hrd, hheld, hkind, howner, c]
    · have hmine : (on s.fresh (MBX_SEM_HELD n) && rd s.fresh (MBX_SEM_KIND n) == 0 &&
          rd s.fresh (MBX_SEM_OWNER n) == id.toNat) = false := by
        rw [Bool.eq_false_iff]
        intro htrue
        rw [Bool.and_eq_true, Bool.and_eq_true, beq_iff_eq, beq_iff_eq, and_assoc] at htrue
        exact hnot htrue
      refine ⟨fun hheld => semExec_acq s _ n _ id (hacq.trans ?_), semExec_rel s _ n _ id (hrel.trans ?_),
        semExec_clrAbn s _ n _ id (hclr.trans ?_)⟩
      · rw [hheld] at hmine
        simp only [semAct, hon, hrd, hheld, hmine, Bool.true_eq_false, if_false, Bool.false_eq_true, e]
      · simp only [semAct, hon, hrd, hmine, if_false, Bool.false_eq_true, r]
      · simp only [semAct, hon, hrd, hmine, if_false, Bool.false_eq_true, c]
  · have hreg := reg_semAbandonAll (k := k) (i := i) (cause := cause) x n.isLt ⟨hheld, hkind, howner⟩
    obtain ⟨hfree, habn, hc, hpk, hpo⟩ := abandonedWord_fields (n := n) hcause hk hi
    simp only [on, rd, hreg]
    exact ⟨beq_eq_false_iff_ne.2 (hfree.trans_ne (by decide)), beq_iff_eq.2 habn, hc, hpo, hpk⟩

end Sys2Proof.Machine

/-! # Events: promotion, counting and the history queue (R530, R536, R537) -/

namespace Sys2Proof.Machine

/-! ## The history queue -/

/-- What gives way is one record, at or below the new one's class. -/
theorem displace_some {c : FClass} {h h' : List HistRec} (hgives : displace c h = some h') :
    h'.length + 1 = h.length ∧ ∀ r ∈ h, classCode c < classCode r.cls → r ∈ h' := by
  induction h generalizing h' with
  | nil => cases hgives
  | cons x h ih =>
    unfold displace at hgives
    split at hgives
    · next hle =>
      obtain rfl := Option.some.inj hgives
      refine ⟨rfl, fun r hr hgrave => (List.mem_cons.1 hr).resolve_left fun heq => ?_⟩
      rw [heq] at hgrave
      omega
    · obtain ⟨k, hk, rfl⟩ := Option.map_eq_some_iff.1 hgives
      obtain ⟨hlen, hmem⟩ := ih hk
      refine ⟨congrArg (· + 1) hlen, fun r hr hgrave => ?_⟩
      rcases List.mem_cons.1 hr with rfl | hr
      · exact List.mem_cons_self ..
      · exact List.mem_cons_of_mem _ (hmem r hr hgrave)

/-- The three ways of the history queue (R536, R537): room, a record given up, or none given up. -/
theorem pushHist_cases (e : Engine) (cls : FClass) (promoted : Bool) (src : Nat) (syn : Word) :
    (e.flt.hist.length < 32 ∧ pushHist e cls promoted src syn = { e with flt := { e.flt with
      rseq := (e.flt.rseq + 1) % 256
      hist := e.flt.hist ++ [formedRec e cls promoted src syn e.flt.ovfPend], ovfPend := false } }) ∨
    (32 ≤ e.flt.hist.length ∧ ∃ h, displace cls e.flt.hist = some h ∧
      pushHist e cls promoted src syn = { countLost e with flt := { e.flt with
        rseq := (e.flt.rseq + 1) % 256
        hist := h ++ [formedRec e cls promoted src syn true], ovfPend := false } }) ∨
    (32 ≤ e.flt.hist.length ∧ pushHist e cls promoted src syn = { countLost e with flt := { e.flt with
        rseq := (e.flt.rseq + 1) % 256
        ovfPend := true } }) := by
  rcases lt_or_ge e.flt.hist.length 32 with hroom | hfull
  · exact .inl ⟨hroom, pushHist_of_room promoted src syn hroom⟩
  · cases hgives : displace cls e.flt.hist with
    | some h =>
      refine .inr (.inl ⟨hfull, h, rfl, ?_⟩)
      simp only [pushHist, hgives, if_neg hfull.not_gt]
      rfl
    | none =>
      refine .inr (.inr ⟨hfull, ?_⟩)
      simp only [pushHist, hgives, if_neg hfull.not_gt]
      rfl

theorem reg_countLost_ne (e : Engine) {a : Nat} (hdrop : a ≠ FLT_CNT_HIST_DROP) (hstat : a ≠ FLT_STATUS) :
    reg (countLost e) a = reg e a := by
  rw [countLost, reg_sqSet_ne _ _ hstat, reg_inc, if_neg hdrop]

theorem countLost_clk (e : Engine) : (countLost e).clk = e.clk := by
  rw [countLost, sqSet_eq]
  rfl

/-- A field of FLT_STATUS that a status update does not name, below SEQ. -/
theorem rd_sqSet_apart (e : Engine) {f : Fld} (fs : List (Fld × Nat)) (hf : f.hi < 24) (h : ∀ x ∈ fs, x.1.Apart f) :
    rd (sqSet e f.addr fs) f = rd e f := by
  have hset := rd_sqSet e f.addr fs f.lo hf
  rw [wordField_setFields_apart fs f h] at hset
  exact hset

theorem isSafe_countLost (e : Engine) : isSafe (countLost e) = isSafe e := by
  have h := rd_sqSet_apart (f := FLT_STATUS_SAFE) (inc e FLT_CNT_HIST_DROP) [(FLT_STATUS_OVF, 1)] (by decide)
    (by simp [Fld.Apart])
  have hinc : reg (inc e FLT_CNT_HIST_DROP) FLT_STATUS = reg e FLT_STATUS := by rw [reg_inc, if_neg (by decide)]
  simp only [isSafe, on, countLost, h]
  rw [rd, hinc, rd]

/-- What a record that is queued leaves: registers but two, time, the counts of the sources, and SAFE. -/
theorem pushHist_frame (e : Engine) (cls : FClass) (promoted : Bool) (src : Nat) (syn : Word) :
    (∀ a, a ≠ FLT_CNT_HIST_DROP → a ≠ FLT_STATUS → reg (pushHist e cls promoted src syn) a = reg e a) ∧
      (pushHist e cls promoted src syn).clk = e.clk ∧
      (pushHist e cls promoted src syn).flt.counts = e.flt.counts ∧
      isSafe (pushHist e cls promoted src syn) = isSafe e := by
  have hlost : ∀ f : Flt, (∀ a, a ≠ FLT_CNT_HIST_DROP → a ≠ FLT_STATUS → reg { countLost e with flt := f } a = reg e a) ∧
      ({ countLost e with flt := f } : Engine).clk = e.clk ∧ isSafe { countLost e with flt := f } = isSafe e :=
    fun f => ⟨fun a hdrop hstat => reg_countLost_ne e hdrop hstat, countLost_clk e, isSafe_countLost e⟩
  rcases pushHist_cases e cls promoted src syn with ⟨-, hp⟩ | ⟨-, h, -, hp⟩ | ⟨-, hp⟩
  · rw [hp]
    exact ⟨fun _ _ _ => rfl, rfl, rfl, rfl⟩
  · rw [hp]
    obtain ⟨hreg, hclk, hsafe⟩ := hlost { e.flt with
      rseq := (e.flt.rseq + 1) % 256, hist := h ++ [formedRec e cls promoted src syn true], ovfPend := false }
    exact ⟨hreg, hclk, rfl, hsafe⟩
  · rw [hp]
    obtain ⟨hreg, hclk, hsafe⟩ := hlost { e.flt with rseq := (e.flt.rseq + 1) % 256, ovfPend := true }
    exact ⟨hreg, hclk, rfl, hsafe⟩

/-! ## The report of an event -/

/-- The source's registers and the class's counter take an event (R532). -/
def srcMarked (e : Engine) (src : Nat) (cls : FClass) (syn : Word) : Engine :=
  inc (setReg (sqSet e (FLT_SRC_STATUS src)
    [(FLT_SRC_STATUS_PEND src, 1),
     (FLT_SRC_STATUS_CLASS src, max (rd e (FLT_SRC_STATUS_CLASS src)) (classCode cls)),
     (FLT_SRC_STATUS_COUNT src, min (rd e (FLT_SRC_STATUS_COUNT src) + 1) 0xFFFF)]) (FLT_SRC_SYN src) syn)
    (classCounter cls)

/-- The queue and FLT_STATUS take an event that MODE does not leave out. -/
def histMarked (e : Engine) (src : Nat) (cls : FClass) (promoted : Bool) (syn : Word) : Engine :=
  if rd e FLT_CTRL_MODE = 0 ∨ cls = .fatal ∨ promoted then
    sqSet (pushHist e cls promoted src syn) FLT_STATUS [(classFlag cls, 1), (FLT_STATUS_SOURCE, src)]
  else e

/-- An event in the safe state starts the quiet period anew (R551). -/
def noteSafe (e : Engine) (src : Nat) (cls : FClass) : Engine :=
  if isSafe e then
    let q := if cls = .corrected then e.flt.quietAt else e.clk.nominal
    { e with flt := { e.flt with quietAt := q, since := src :: e.flt.since } }
  else e

/-- What the collector records of an event, before it reacts to a fatal one. -/
def recorded (e : Engine) (src : Nat) (cls : FClass) (promoted : Bool) (syn : Word) : Engine :=
  noteSafe (traceRec (histMarked (srcMarked e src cls syn) src cls promoted syn) 5 src syn) src cls

theorem reportFault_of_not_fatal {cls : FClass} (h : cls ≠ .fatal) (e : Engine) (src : Nat) (promoted : Bool) (syn : Word)
    (noAuto : Nat) : reportFault e src cls promoted syn noAuto = recorded e src cls promoted syn := by
  have hfirst : ∀ p : Prop, ¬ (cls = .fatal ∧ p) := fun _ hp => h hp.1
  unfold reportFault
  simp only [if_neg (hfirst _)]
  rfl

theorem reportFault_fatal (e : Engine) (src : Nat) (promoted : Bool) (syn : Word)
    (h : isSafe (recorded e src .fatal promoted syn) = false) :
    reportFault e src .fatal promoted syn 0 = enterSafe (recorded e src .fatal promoted syn)
      (formedRec (srcMarked e src .fatal syn) .fatal promoted src syn (srcMarked e src .fatal syn).flt.ovfPend) 0 :=
  if_pos ⟨rfl, by rw [Bool.not_eq_true]; exact h⟩

section
variable {e : Engine} {src : Nat} {cls : FClass} {promoted : Bool} {syn : Word}

theorem classCounter_cases (cls : FClass) :
    classCounter cls = FLT_CNT_CE ∨ classCounter cls = FLT_CNT_CONT ∨ classCounter cls = FLT_CNT_FATAL := by
  cases cls <;> decide

/-- A register that no event of a source touches. -/
def Untouched (src a : Nat) : Prop :=
  a ≠ FLT_SRC_STATUS src ∧ a ≠ FLT_SRC_SYN src ∧ a ≠ FLT_CNT_HIST_DROP ∧ a ≠ FLT_STATUS

theorem reg_srcMarked {a : Nat} (hstat : a ≠ FLT_SRC_STATUS src) (hsyn : a ≠ FLT_SRC_SYN src) :
    reg (srcMarked e src cls syn) a = if a = classCounter cls then reg e a + 1 else reg e a := by
  rw [srcMarked, reg_inc]
  split
  · next h => rw [← h, reg_setReg_ne _ _ hsyn, reg_sqSet_ne _ _ hstat]
  · rw [reg_setReg_ne _ _ hsyn, reg_sqSet_ne _ _ hstat]

theorem isSafe_of_reg {e' : Engine} (h : reg e' FLT_STATUS = reg e FLT_STATUS) : isSafe e' = isSafe e := by
  rw [isSafe, on, rd, h]
  rfl

/-- Marking a source changes registers only. -/
theorem srcMarked_frame (e : Engine) (src : Nat) (cls : FClass) (syn : Word) :
    (srcMarked e src cls syn).clk = e.clk ∧ (srcMarked e src cls syn).flt = e.flt ∧
      isSafe (srcMarked e src cls syn) = isSafe e := by
  refine ⟨?_, ?_, isSafe_of_reg ?_⟩
  · rw [srcMarked, sqSet_eq]
    rfl
  · rw [srcMarked, sqSet_eq]
    rfl
  · rw [reg_srcMarked (by simp only [FLT_SRC_STATUS, FLT_STATUS]; omega) (by simp only [FLT_SRC_SYN, FLT_STATUS]; omega), if_neg]
    rcases classCounter_cases cls with h | h | h <;> rw [h] <;> decide

theorem histMarked_frame (e : Engine) (src : Nat) (cls : FClass) (promoted : Bool) (syn : Word) :
    (∀ a, a ≠ FLT_CNT_HIST_DROP → a ≠ FLT_STATUS → reg (histMarked e src cls promoted syn) a = reg e a) ∧
      (histMarked e src cls promoted syn).clk = e.clk ∧
      (histMarked e src cls promoted syn).flt.counts = e.flt.counts ∧
      isSafe (histMarked e src cls promoted syn) = isSafe e := by
  unfold histMarked
  split
  · obtain ⟨hreg, hclk, hcounts, hsafe⟩ := pushHist_frame e cls promoted src syn
    refine ⟨fun a hdrop hstat => ?_, ?_, ?_, ?_⟩
    · rw [reg_sqSet_ne _ _ hstat]
      exact hreg a hdrop hstat
    · rw [sqSet_eq]
      exact hclk
    · rw [sqSet_eq]
      exact hcounts
    · have h := rd_sqSet_apart (f := FLT_STATUS_SAFE) (pushHist e cls promoted src syn)
        [(classFlag cls, 1), (FLT_STATUS_SOURCE, src)] (by decide) (by cases cls <;> simp [Fld.Apart, classFlag])
      rw [← hsafe]
      exact congrArg (· == 1) h
  · exact ⟨fun _ _ _ => rfl, rfl, rfl, rfl⟩

theorem noteSafe_frame (e : Engine) (src : Nat) (cls : FClass) : (noteSafe e src cls).regs = e.regs ∧
    (noteSafe e src cls).clk = e.clk ∧ (noteSafe e src cls).flt.counts = e.flt.counts := by
  unfold noteSafe
  split <;> exact ⟨rfl, rfl, rfl⟩

theorem traceRec_frame (e : Engine) (k loc : Nat) (v : Word) : (traceRec e k loc v).regs = e.regs ∧
    (traceRec e k loc v).clk = e.clk ∧ (traceRec e k loc v).flt = e.flt := by
  obtain ⟨t, h⟩ := traceRec_eq e k loc v
  rw [h]
  exact ⟨rfl, rfl, rfl⟩

/-- What recording an event leaves. -/
theorem recorded_frame (e : Engine) (src : Nat) (cls : FClass) (promoted : Bool) (syn : Word) :
    (∀ a, Untouched src a → reg (recorded e src cls promoted syn) a =
      if a = classCounter cls then reg e a + 1 else reg e a) ∧
      (recorded e src cls promoted syn).clk = e.clk ∧
      (recorded e src cls promoted syn).flt.counts = e.flt.counts ∧
      isSafe (recorded e src cls promoted syn) = isSafe e := by
  obtain ⟨sclk, sflt, ssafe⟩ := srcMarked_frame e src cls syn
  obtain ⟨hreg, hclk, hcounts, hsafe⟩ := histMarked_frame (srcMarked e src cls syn) src cls promoted syn
  obtain ⟨tregs, tclk, tflt⟩ := traceRec_frame (histMarked (srcMarked e src cls syn) src cls promoted syn) 5 src syn
  obtain ⟨nregs, nclk, ncounts⟩ := noteSafe_frame
    (traceRec (histMarked (srcMarked e src cls syn) src cls promoted syn) 5 src syn) src cls
  have hregs := nregs.trans tregs
  refine ⟨fun a ⟨hstat, hsyn, hdrop, hflt⟩ => ?_, nclk.trans (tclk.trans (hclk.trans sclk)), ?_, ?_⟩
  · rw [← reg_srcMarked hstat hsyn]
    exact (reg_congr hregs a).trans (hreg a hdrop hflt)
  · rw [← sflt, ← hcounts, ← tflt]
    exact ncounts
  · rw [← ssafe, ← hsafe]
    exact isSafe_of_reg (reg_congr hregs _)

end

/-- The registers with which the engine enters the safe state (R538, R543). -/
def safeRegs (e : Engine) (src noAuto : Nat) : Engine :=
  wr (wr (wr (wr (wr (telPartial e) FLT_STATUS_SAFE 1) FLT_SAFE_PHASE 1) FLT_SAFE_DUMP_DONE 0) FLT_SAFE_NO_AUTO noAuto)
    FLT_SAFE_CAUSE_SRC src

theorem enterSafe_regs (e : Engine) (r : HistRec) : ∃ n, (enterSafe e r 0).regs = (safeRegs e r.source n).regs := by
  unfold enterSafe
  simp only [ne_eq, not_true_eq_false, if_false, OfNat.zero_ne_ofNat]
  exact ⟨_, rfl⟩

theorem isSafe_safeRegs (e : Engine) (src n : Nat) : isSafe (safeRegs e src n) = true := by
  have hstat : ∀ (x : Engine) (f : Fld) (v : Nat), f.addr = FLT_SAFE → rd (wr x f v) FLT_STATUS_SAFE = rd x FLT_STATUS_SAFE :=
    fun x f v hf => rd_wr_ne x v (by rw [hf]; decide)
  rw [isSafe, on, beq_iff_eq, safeRegs, hstat _ _ _ rfl, hstat _ _ _ rfl, hstat _ _ _ rfl, hstat _ _ _ rfl]
  exact rd_wr_same _ _ (by decide) (by decide)

/-- R538: the engine that enters the safe state is in it, with the record as its cause. -/
theorem enterSafe_spec (e : Engine) (r : HistRec) :
    isSafe (enterSafe e r 0) = true ∧ (enterSafe e r 0).flt.cause = some r := by
  obtain ⟨n, hregs⟩ := enterSafe_regs e r
  exact ⟨(isSafe_of_reg (reg_congr hregs _)).trans (isSafe_safeRegs e r.source n), rfl⟩

/-! ## Promotion -/

/-- The parameters of a source's promotion are not touched by its events. -/
theorem untouched_srcCfg (src : Nat) : Untouched src (FLT_SRC_CFG src) ∧ ∀ cls, FLT_SRC_CFG src ≠ classCounter cls := by
  refine ⟨?_, fun cls => ?_⟩
  · simp only [Untouched, FLT_SRC_CFG, FLT_SRC_STATUS, FLT_SRC_SYN, FLT_CNT_HIST_DROP, FLT_STATUS]
    omega
  · have : 0x501000 ≤ FLT_SRC_CFG src := Nat.le_add_right ..
    rcases classCounter_cases cls with h | h | h <;> rw [h] <;> simp only [FLT_CNT_CE, FLT_CNT_CONT, FLT_CNT_FATAL] <;> omega

theorem promote_congr {e e' : Engine} {src : Nat} (h : reg e' (FLT_SRC_CFG src) = reg e (FLT_SRC_CFG src)) :
    promoteN e' src = promoteN e src ∧ promoteW e' src = promoteW e src := by
  simp only [promoteN, promoteW, rd, h, and_self]

/-- The engine with new counts of a source. -/
def putCount (e : Engine) (src : Nat) (c : SrcCnt) : Engine :=
  { e with flt := { e.flt with counts := tput noCount e.flt.counts src c } }

/-- The counts of a source as a contained event finds them: a passed window starts anew (R530). -/
def startedCt (e : Engine) (src : Nat) : SrcCnt :=
  let c := tget noCount e.flt.counts src
  if c.ctCount = 0 ∨ e.clk.nominal ≥ c.ctStart + promoteW e src then { c with ctStart := e.clk.nominal, ctCount := 0 } else c

theorem countContained_eq (e : Engine) (src : Nat) (syn : Word) (promoted : Bool) : countContained e src syn promoted =
    let c := startedCt e src
    let hit := c.ctCount + 1 = promoteN e src
    let x := putCount e src { c with ctCount := if hit then 0 else c.ctCount + 1 }
    if hit then reportFault x src .fatal true syn 0 else reportFault x src .contained promoted syn 0 := rfl

/-- What has been counted of contained events at the present moment: `j` events below N, outside the safe state. -/
structure Counting (e₀ : Engine) (src j : Nat) (x : Engine) : Prop where
  safe : isSafe x = false
  clk : x.clk = e₀.clk
  cfg : reg x (FLT_SRC_CFG src) = reg e₀ (FLT_SRC_CFG src)
  count : (tget noCount x.flt.counts src).ctCount = j
  start : 0 < j → (tget noCount x.flt.counts src).ctStart = e₀.clk.nominal

/-- The counts that a contained event finds, in a window that has not passed. -/
theorem Counting.next {e₀ x : Engine} {src j : Nat} (h : Counting e₀ src j x) (hw : 0 < promoteW e₀ src) (syn : Word)
    (promoted : Bool) : ∃ c : SrcCnt, c.ctStart = e₀.clk.nominal ∧
      c.ctCount = (if j + 1 = promoteN e₀ src then 0 else j + 1) ∧
      countContained x src syn promoted = if j + 1 = promoteN e₀ src then reportFault (putCount x src c) src .fatal true syn 0
        else reportFault (putCount x src c) src .contained promoted syn 0 := by
  obtain ⟨hN, hW⟩ := promote_congr h.cfg
  have hstart : (startedCt x src).ctStart = e₀.clk.nominal ∧ (startedCt x src).ctCount = j := by
    unfold startedCt
    simp only [h.clk, hW]
    rcases Nat.eq_zero_or_pos j with rfl | hj
    · rw [if_pos (.inl h.count)]
      exact ⟨rfl, rfl⟩
    · rw [if_neg (by rw [h.count, h.start hj]; omega)]
      exact ⟨h.start hj, h.count⟩
  refine ⟨{ startedCt x src with ctCount := if j + 1 = promoteN e₀ src then 0 else j + 1 }, hstart.1, rfl, ?_⟩
  rw [countContained_eq, hN]
  simp only [hstart.2]

theorem Counting.step {e₀ x : Engine} {src j : Nat} (h : Counting e₀ src j x) (hw : 0 < promoteW e₀ src) (syn : Word)
    (hj : j + 1 ≠ promoteN e₀ src) : Counting e₀ src (j + 1) (raise x src .contained syn) := by
  obtain ⟨c, hcs, hcc, hx⟩ := h.next hw syn false
  rw [if_neg hj] at hcc hx
  have hr : raise x src .contained syn = recorded (putCount x src c) src .contained false syn := by
    rw [← reportFault_of_not_fatal (by decide) _ _ _ _ 0]
    exact hx
  obtain ⟨hreg, hclk, hcounts, hsafe⟩ := recorded_frame (putCount x src c) src .contained false syn
  obtain ⟨hun, hcls⟩ := untouched_srcCfg src
  have hget : tget noCount (recorded (putCount x src c) src .contained false syn).flt.counts src = c := by
    rw [hcounts]
    exact tget_tput_same ..
  rw [hr]
  exact ⟨hsafe.trans h.safe, hclk.trans h.clk, by rw [hreg _ hun, if_neg (hcls _)]; exact h.cfg,
    by rw [hget, hcc], fun _ => by rw [hget, hcs]⟩

theorem Counting.hit {e₀ x : Engine} {src j : Nat} (h : Counting e₀ src j x) (hw : 0 < promoteW e₀ src) (syn : Word)
    (hj : j + 1 = promoteN e₀ src) : isSafe (raise x src .contained syn) = true ∧
      ∃ r, (raise x src .contained syn).flt.cause = some r ∧ r.source = src ∧ r.cls = .fatal ∧ r.promoted = true := by
  obtain ⟨c, -, -, hx⟩ := h.next hw syn false
  rw [if_pos hj] at hx
  obtain ⟨-, -, -, hsafe⟩ := recorded_frame (putCount x src c) src .fatal true syn
  have hr : raise x src .contained syn = _ := hx.trans (reportFault_fatal _ src true syn (hsafe.trans h.safe))
  rw [hr]
  obtain ⟨hin, hcause⟩ := enterSafe_spec (recorded (putCount x src c) src .fatal true syn)
    (formedRec (srcMarked (putCount x src c) src .fatal syn) .fatal true src syn
      (srcMarked (putCount x src c) src .fatal syn).flt.ovfPend)
  exact ⟨hin, _, hcause, rfl, rfl, rfl⟩

theorem counting_iterate {e : Engine} {src : Nat} (syn : Word) (hw : 0 < promoteW e src) (hsafe : isSafe e = false)
    (hzero : (tget noCount e.flt.counts src).ctCount = 0) (k : Nat) (hk : k < promoteN e src) :
    Counting e src k ((fun e => raise e src .contained syn)^[k] e) := by
  induction k with
  | zero => exact ⟨hsafe, rfl, rfl, hzero, fun h => absurd h (lt_irrefl 0)⟩
  | succ k ih =>
    rw [Function.iterate_succ_apply']
    exact (ih (by omega)).step hw syn (by omega)

/-- A corrected event that does not promote is recorded with a count of one. -/
theorem raise_corrected {e : Engine} {src : Nat} (syn : Word) (hN : promoteN e src ≠ 1)
    (hzero : (tget noCount e.flt.counts src).ceCount = 0) : ∃ c : SrcCnt, c.ceCount = 1 ∧
      c.ctCount = (tget noCount e.flt.counts src).ctCount ∧
      raise e src .corrected syn = recorded (putCount e src c) src .corrected false syn := by
  have hone : ¬ 0 + 1 = promoteN e src := fun h => hN h.symm
  refine ⟨{ tget noCount e.flt.counts src with ceStart := e.clk.nominal, ceCount := 1 }, rfl, rfl, ?_⟩
  rw [← reportFault_of_not_fatal (by decide) _ _ _ _ 0]
  simp only [raise, countCorrected]
  simp only [if_pos (Or.inl hzero), if_neg hone]
  rfl

/-- Settles O46: the counted events of one moment up to N, one corrected event, and the three ways of the queue. -/
theorem eventsArePromotedAndRecorded : Obligations.EventsArePromotedAndRecorded := by
  unfold Obligations.EventsArePromotedAndRecorded
  refine ⟨?_, ?_, ?_⟩
  · intro e src syn _ _ hw hsafe hzero k x
    refine ⟨fun hk => (counting_iterate syn hw hsafe hzero k hk).safe, fun hk hpos => ?_⟩
    obtain ⟨j, rfl⟩ := Nat.exists_eq_add_of_le' hpos
    have hcount := counting_iterate syn hw hsafe hzero j (by omega)
    have hx : x = raise ((fun e => raise e src .contained syn)^[j] e) src .contained syn :=
      Function.iterate_succ_apply' _ _ _
    rw [hx]
    exact hcount.hit hw syn hk
  · intro e src syn hN hzero x
    obtain ⟨c, hone, hct, hx⟩ := raise_corrected syn hN hzero
    obtain ⟨hreg, -, hcounts, -⟩ := recorded_frame (putCount e src c) src .corrected false syn
    have hget : tget noCount x.flt.counts src = c := by
      rw [show x = _ from hx, hcounts]
      exact tget_tput_same ..
    refine ⟨by rw [hget, hone], by rw [hget, hct], ?_⟩
    rw [show x = _ from hx, hreg FLT_CNT_CE]
    · exact if_pos rfl
    · simp only [Untouched, FLT_SRC_STATUS, FLT_SRC_SYN, FLT_CNT_HIST_DROP, FLT_STATUS, FLT_CNT_CE]
      omega
  · intro e cls promoted src syn hlen x
    rcases pushHist_cases e cls promoted src syn with ⟨hroom, hp⟩ | ⟨hfull, h, hgives, hp⟩ | ⟨hfull, hp⟩
    · rw [show x = _ from hp]
      refine ⟨by simpa using hroom, fun r hr _ => List.mem_append_left _ hr, fun _ => ⟨_, rfl, rfl, rfl, rfl⟩⟩
    · rw [show x = _ from hp]
      obtain ⟨hh, hgraver⟩ := displace_some hgives
      refine ⟨?_, fun r hr hg => List.mem_append_left _ (hgraver r hr hg), fun hroom => absurd hroom hfull.not_gt⟩
      simp only [List.length_append, List.length_singleton]
      omega
    · rw [show x = _ from hp]
      exact ⟨hlen, fun r hr _ => hr, fun hroom => absurd hroom hfull.not_gt⟩

end Sys2Proof.Machine

/-! # Sequence numbers guard the status registers (R8, R565) -/

namespace Sys2Proof.Machine

/-- The SQ fields that a clear clears lie below SEQ. -/
theorem sqMask_high (a : Nat) {i : Nat} (h : 24 ≤ i) : (sqMask a).getLsbD i = false := by
  have hlow : (0x00FFFFFF : Word).getLsbD i = false := by
    rcases lt_or_ge i 32 with hi | hi
    · interval_cases i <;> rfl
    · exact BitVec.getLsbD_of_ge _ _ hi
  unfold sqMask
  split
  · exact hlow
  · split
    · rw [BitVec.getLsbD_and, hlow, Bool.and_false]
    · exact BitVec.getLsbD_zero

theorem seq_andNot_sqMask (w : Word) (a : Nat) : wordField (w &&& ~~~ (sqMask a)) 31 24 = wordField w 31 24 := by
  refine Nat.eq_of_testBit_eq fun j => ?_
  rw [testBit_wordField, testBit_wordField]
  by_cases hj : j < 31 + 1 - 24
  · rw [BitVec.getLsbD_and, BitVec.getLsbD_not, sqMask_high a (by omega)]
    simp [show j + 24 < 32 by omega]
  · simp [hj]

section
variable {e : Engine} {a seq : Nat} (hdeg : a ≠ QOS_DEGRADED) (htel : ¬ (TEL_WM_STATUS 0 ≤ a ∧ a / 0x100000 = 8))
include hdeg htel

/-- A write of another SEQ does nothing. -/
theorem seqWrite_of_ne (hseq : wordField (reg e a) 31 24 ≠ seq) : seqWrite e a seq = e := by
  rw [seqWrite, if_neg hdeg, if_neg htel, sqClear_of_ne _ _ _ hseq]
  simp [hseq]

/-- A write of the current SEQ to a status register with no rule of its own clears its fields. -/
theorem regs_seqWrite_plain (hseq : wordField (reg e a) 31 24 = seq) (hsched : a ≠ CH_SCHED_STATUS (chIx a)) :
    (seqWrite e a seq).regs = (sqClear e a seq).regs := by
  rw [seqWrite, if_neg hdeg, if_neg htel]
  simp [hseq, hsched]

/-- A clear of CH_SCHED_STATUS takes the peak of the write queue down to what it holds now. -/
theorem seqWrite_sched (hseq : wordField (reg e a) 31 24 = seq) (hsched : a = CH_SCHED_STATUS (chIx a)) :
    seqWrite e a seq = wr (sqClear e a seq) (CH_SCHED_STATUS_WQ_PEAK (chIx a)) (wqOcc (sqClear e a seq) (chIx a)) := by
  rw [seqWrite, if_neg hdeg, if_neg htel]
  simp [hseq, ← hsched]

end

theorem wqOcc_sqClear (e : Engine) (a seq n : Nat) : wqOcc (sqClear e a seq) n = wqOcc e n := by
  rw [sqClear_eq]
  rfl

theorem sameRegs_sqClear (e : Engine) (a seq : Nat) : SameRegs e (sqClear e a seq) [a] :=
  fun _ hb => reg_sqClear_ne e seq (by simpa using hb)

theorem wordField_seq_sqClear (e : Engine) (a seq : Nat) (h : wordField (reg e a) 31 24 = seq) :
    wordField (reg (sqClear e a seq) a) 31 24 = seq := by
  rw [reg_sqClear_of_eq e a seq h, seq_andNot_sqMask, h]

/-- Settles O51: a change moves SEQ on, and a clear asks for the SEQ of now. -/
theorem sequenceNumbersGuardStatus : Obligations.SequenceNumbersGuardStatus := by
  unfold Obligations.SequenceNumbersGuardStatus
  constructor
  · intro e a fs w e'
    refine ⟨fun b hb => reg_sqSet_ne e fs (by simpa using hb), sqSet_of_eq e a fs, fun hne => ?_⟩
    have hreg : reg e' a = setWordField w 31 24 (wordField (reg e a) 31 24 + 1) := reg_sqSet_of_ne e a fs hne
    have hseq : wordField (reg e' a) 31 24 = (wordField (reg e a) 31 24 + 1) % 256 := by
      rw [hreg]
      exact wordField_setWordField_same _ _ (by decide) (by decide)
    have hlt := wordField_lt (reg e a) 31 24
    refine ⟨hseq, ?_, fun hdeg htel => seqWrite_of_ne hdeg htel ?_⟩
    · rw [hreg, wordField_setWordField_disjoint _ _ (by decide) (by decide) (.inl (by decide))]
    · rw [hseq]
      omega
  · intro e a seq hdeg htel e'
    refine ⟨seqWrite_of_ne hdeg htel, fun hseq => ?_⟩
    by_cases hsched : a = CH_SCHED_STATUS (chIx a)
    · have he' : e' = _ := seqWrite_sched hdeg htel hseq hsched
      have hreg : reg e' a = setWordField (reg (sqClear e a seq) a) 23 16 (wqOcc (sqClear e a seq) (chIx a)) := by
        have h := reg_wr_same (sqClear e a seq) (CH_SCHED_STATUS_WQ_PEAK (chIx a)) (wqOcc (sqClear e a seq) (chIx a))
        rw [he']
        simpa only [← hsched] using h
      refine ⟨?_, fun b hb => ?_, fun hno => absurd hsched hno, fun _ => ?_⟩
      · rw [hreg, wordField_setWordField_disjoint _ _ (by decide) (by decide) (.inr (by decide)),
          wordField_seq_sqClear e a seq hseq]
      · rw [he', reg_wr_ne _ _ _ (fun h => hb (List.mem_singleton.2 (h.trans hsched.symm)))]
        exact sameRegs_sqClear e a seq b hb
      · rw [he', ← wqOcc_sqClear e a seq]
        exact rd_wr_same _ _ (by simp) (by simp)
    · have hregs := regs_seqWrite_plain hdeg htel hseq hsched
      refine ⟨?_, fun b hb => ?_, fun _ => reg_seqWrite_hit hdeg htel hsched hseq, fun h => absurd h hsched⟩
      · rw [reg_congr hregs, wordField_seq_sqClear e a seq hseq]
      · rw [reg_congr hregs]
        exact sameRegs_sqClear e a seq b hb

end Sys2Proof.Machine

/-! # Regulators and telemetry: shedding, the ramp, promotion, the hotlist and its epochs (R146, R397, R409, R418, R419) -/

namespace Sys2Proof.Machine

/-! ## The sorted snapshot -/

theorem hotBefore_total {a b : HotEntry} (h : hotBefore a b = false) : hotBefore b a = true := by
  simp only [hotBefore, Bool.or_eq_false_iff, Bool.and_eq_false_iff, decide_eq_false_iff_not, beq_eq_false_iff_ne,
    Bool.or_eq_true, Bool.and_eq_true, decide_eq_true_eq, beq_iff_eq] at *
  omega

theorem hotBefore_trans {a b c : HotEntry} (hab : hotBefore a b = true) (hbc : hotBefore b c = true) :
    hotBefore a c = true := by
  simp only [hotBefore, Bool.or_eq_true, Bool.and_eq_true, decide_eq_true_eq, beq_iff_eq] at *
  omega

theorem hotInsert_perm (h : HotEntry) (l : List HotEntry) : (hotInsert h l).Perm (h :: l) := by
  induction l with
  | nil => exact .refl _
  | cons g l ih =>
    unfold hotInsert
    split
    · exact .refl _
    · exact (ih.cons g).trans (.swap h g l)

theorem hotInsert_sorted {h : HotEntry} {l : List HotEntry} (hl : l.Pairwise fun a b => hotBefore a b = true) :
    (hotInsert h l).Pairwise fun a b => hotBefore a b = true := by
  induction l with
  | nil => exact List.pairwise_singleton _ _
  | cons g l ih =>
    obtain ⟨hg, hrest⟩ := List.pairwise_cons.1 hl
    unfold hotInsert
    split
    · next hb =>
      refine List.pairwise_cons.2 ⟨fun x hx => ?_, hl⟩
      rcases List.mem_cons.1 hx with rfl | hx
      · exact hb
      · exact hotBefore_trans hb (hg x hx)
    · next hb =>
      refine List.pairwise_cons.2 ⟨fun x hx => ?_, ih hrest⟩
      rcases List.mem_cons.1 ((hotInsert_perm h l).mem_iff.1 hx) with rfl | hx
      · exact hotBefore_total (Bool.eq_false_iff.2 hb)
      · exact hg x hx

theorem hotSort_perm (l : List HotEntry) : (hotSort l).Perm l := by
  induction l with
  | nil => exact .refl _
  | cons h l ih => exact (hotInsert_perm h _).trans (ih.cons h)

theorem hotSort_sorted (l : List HotEntry) : (hotSort l).Pairwise fun a b => hotBefore a b = true := by
  induction l with
  | nil => exact .nil
  | cons h l ih => exact hotInsert_sorted ih

/-! ## The end of an epoch -/

theorem epochEnd_not_sorted (e : Engine) : on (epochEnd e) TEL_HOT_STATE_SORTED = false := by
  have h : rd (epochEnd e) TEL_HOT_STATE_SORTED = 0 :=
    (rd_wr_apart _ (f := TEL_HOT_STATE_ENTRIES) (g := TEL_HOT_STATE_SORTED) _ rfl (by decide)).trans
      ((rd_wr_apart _ (f := TEL_HOT_STATE_PARTIAL) (g := TEL_HOT_STATE_SORTED) _ rfl (by decide)).trans
        (rd_wr_same _ (f := TEL_HOT_STATE_SORTED) 0 (by decide) (by decide)))
  rw [on, h]
  rfl

/-- Settles O34: each command's guard holds, and what it then does. -/
theorem regulatorsAndTelemetryAct : Obligations.RegulatorsAndTelemetryAct := by
  unfold Obligations.RegulatorsAndTelemetryAct
  intro s hclk e
  refine ⟨fun hdue => run_of_eq ?_, run_of_eq (if_pos hclk), fun n => run_of_eq (if_pos hclk),
    fun hen => ⟨fun p rest hfifo => run_of_eq ?_, run_of_eq ?_, rfl, rfl, rfl, rfl, epochEnd_not_sorted _⟩,
    fun hrun hepoch hsorted => ⟨run_of_eq ?_, hotSort_perm _, hotSort_sorted _⟩⟩
  · have hdue' : s.fresh.qos.shedDue = true := hdue
    simp only [shedStep, hclk, hdue', Bool.and_self, if_true, e]
  · have hen' : on s.fresh TEL_CTRL_TEL_EN = true := hen
    have hfifo' : s.fresh.tel.fifo = p :: rest := hfifo
    simp only [hotStep, hclk, hen', Bool.and_self, if_true, hotTake, hfifo', e]
  · have hen' : on s.fresh TEL_CTRL_TEL_EN = true := hen
    simp only [epochStep, hclk, hen', Bool.and_self, if_true, e]
  · exact if_pos (by
      simp only [Bool.and_eq_true, decide_eq_true_eq, Bool.not_eq_true']
      exact ⟨⟨hrun, hepoch⟩, hsorted⟩)

end Sys2Proof.Machine

/-! # Estimates, the sleep advance and the Kiln calibration (R442, R444–R446) -/

namespace Sys2Proof.Machine

/-! ## Estimates -/

/-- R442: whether an estimate is applied as a jump. -/
def Jumps (e : Engine) (est : Nat) : Prop :=
  (rd e PWR_TB_CFG_STEP_TH * nsUnit : Nat) < (est : Int) - e.clk.tb ∨ e.clk.epochInvalid = true ∧ 0 < (est : Int) - e.clk.tb

theorem applyEstimate_of_jump {e : Engine} {est : Nat} (u : Nat) (h : Jumps e est) : applyEstimate e est u =
    mapClk (sqSet (mapClk e fun c => { c with tb := est % 2 ^ 88, slew := 0, winDirty := true })
      PWR_TB_STATE [(PWR_TB_STATE_STEPPED, 1)]) fun c => { c with uncert := u, epochInvalid := false } := by
  have hjump : (decide ((est : Int) - e.clk.tb > (rd e PWR_TB_CFG_STEP_TH * nsUnit : Nat)) ||
      (e.clk.epochInvalid && decide ((est : Int) - e.clk.tb > 0))) = true := by
    simpa [Jumps] using h
  simp only [applyEstimate, hjump, if_true]

theorem applyEstimate_of_slew {e : Engine} {est : Nat} (u : Nat) (h : ¬ Jumps e est) : applyEstimate e est u =
    mapClk (mapClk e fun c => { c with
        slew := (est : Int) - e.clk.tb
        winDirty := c.winDirty || decide ((est : Int) - e.clk.tb ≠ 0) })
      fun c => { c with uncert := u, epochInvalid := false } := by
  have hjump : (decide ((est : Int) - e.clk.tb > (rd e PWR_TB_CFG_STEP_TH * nsUnit : Nat)) ||
      (e.clk.epochInvalid && decide ((est : Int) - e.clk.tb > 0))) = false := by
    rw [Bool.eq_false_iff]
    intro htrue
    exact h (by simpa [Jumps] using htrue)
  simp only [applyEstimate, hjump, if_false, Bool.false_eq_true]

theorem sqSet_clk (e : Engine) (a : Nat) (fs : List (Fld × Nat)) : (sqSet e a fs).clk = e.clk := by
  rw [sqSet_eq]

/-! ## The Kiln calibration -/

/-- The state of AON after a calibration window (R445). -/
def windowEnded (e : Engine) (dirty : Bool) : Engine := mapClk e fun c => { c with
  kiln := (c.kiln / 16384 + 1) * 16384 % 2 ^ 48, kilnAt := c.nominal, winTb := c.tb, winDirty := dirty }

section
variable {e : Engine} {n : Nat}

/-- R445: the period that a window has measured. -/
def measured (e : Engine) : Nat := (e.clk.tb - e.clk.winTb) / 2 ^ 22

theorem kilnWindow_good (hrun : e.clk.root = .locked) (hclean : (tick e n).clk.winDirty = false)
    (hin : 800 * 65536 ≤ measured (tick e n) ∧ measured (tick e n) ≤ 1250 * 65536) : kilnWindow e n =
      windowEnded (mapClk (wr (tick e n) PWR_KILN_PER_PERIOD (measured (tick e n))) fun c => { c with calValid := true })
        false := by
  unfold measured at hin
  simp only [kilnWindow, hrun, hclean, beq_self_eq_true, Bool.not_false, Bool.and_self, if_true, if_pos hin]
  rfl

theorem kilnWindow_bad (hrun : e.clk.root = .locked) (hclean : (tick e n).clk.winDirty = false)
    (hout : ¬ (800 * 65536 ≤ measured (tick e n) ∧ measured (tick e n) ≤ 1250 * 65536)) : kilnWindow e n =
      windowEnded (raise (sqSet (tick e n) PWR_CLK_STATUS [(PWR_CLK_STATUS_KILN_BAD, 1)]) 0x0B .contained
        (synOf PWR_CLK_STATUS_KILN_BAD.lo 0)) false := by
  unfold measured at hout
  simp only [kilnWindow, hrun, hclean, beq_self_eq_true, Bool.not_false, Bool.and_self, if_true, if_neg hout]
  rfl

theorem kilnWindow_dirty (hrun : e.clk.root = .locked) (hdirty : (tick e n).clk.winDirty = true) :
    kilnWindow e n = windowEnded (tick e n) false := by
  simp only [kilnWindow, hrun, hdirty, Bool.not_true, Bool.and_false, Bool.false_eq_true, if_false]
  rfl

theorem kilnWindow_stopped (hstop : e.clk.root ≠ .locked) : kilnWindow e n = windowEnded (tick e n) true := by
  have hbeq : (e.clk.root == .locked) = false := beq_eq_false_iff_ne.2 hstop
  simp only [kilnWindow, hbeq, Bool.false_and, Bool.false_eq_true, if_false]
  rfl

theorem kilnCal_of_supplied (hsup : e.pins.supply = true) (hpor : e.pins.porst = false) : kilnCal e n = kilnWindow e n := by
  simp only [kilnCal, hsup, hpor, Bool.not_false, Bool.and_self, if_true]

end

/-- Settles O36: a jump or a slew, the advance of a wake, and the four outcomes of a window. -/
theorem estimatesSleepAndKilnMoveTime : Obligations.EstimatesSleepAndKilnMoveTime := by
  unfold Obligations.EstimatesSleepAndKilnMoveTime
  refine ⟨⟨?_, fun e => ?_⟩, fun s n hsup hpor => ?_⟩
  · intro e est u hest d a
    by_cases hj : Jumps e est
    · have ha : a = _ := applyEstimate_of_jump u hj
      have hclk : a.clk = { e.clk with
          tb := est % 2 ^ 88
          slew := 0
          winDirty := true
          uncert := u
          epochInvalid := false } := by rw [ha, mapClk_clk, sqSet_clk]; rfl
      have hon : on a PWR_TB_STATE_STEPPED = true := by
        rw [ha]
        exact on_sqSet_flag (f := PWR_TB_STATE_STEPPED) _ rfl (by decide)
      rw [hclk]
      refine ⟨rfl, rfl, rfl, fun _ => ⟨Nat.mod_eq_of_lt hest, rfl, hon⟩, fun hle hinv => absurd hj ?_⟩
      rintro (hlt | ⟨hval, hpos⟩)
      · exact absurd hle (not_le.2 hlt)
      · exact absurd (hinv hval) (not_le.2 hpos)
    · have ha : a = _ := applyEstimate_of_slew u hj
      rw [ha]
      exact ⟨rfl, rfl, rfl, fun hjump => absurd hjump hj, fun _ _ => ⟨rfl, rfl, rfl⟩⟩
  · intro count adv w
    have hclk : w.clk = { startDividers e.clk with
        tb := (e.clk.tbStop + adv * 256) % 2 ^ 88
        nominal := e.clk.nominal + adv * 256
        kilnAt := e.clk.nominal + adv * 256
        uncert := e.clk.uncert + (adv * rd e PWR_TB_CFG_UNC_PPM + 65536 * 1000000 - 1) / (65536 * 1000000) + 64
        lastSleep := count } := sqSet_clk ..
    rw [hclk]
    exact ⟨rfl, rfl, rfl, rfl, rfl, on_sqSet_flag (f := PWR_TB_STATE_WOKE) _ rfl (by decide)⟩
  · intro e per next runs
    have hcal := kilnCal_of_supplied (n := n) hsup hpor
    refine ⟨fun hrun hclean hlo hhi => run_of_eq (hcal.trans (kilnWindow_good hrun hclean ⟨hlo, hhi⟩)),
      fun hrun hclean hout => run_of_eq (hcal.trans (kilnWindow_bad hrun hclean ?_)),
      fun hrun hdirty => run_of_eq (hcal.trans (kilnWindow_dirty hrun hdirty)),
      fun hstop => run_of_eq (hcal.trans (kilnWindow_stopped hstop))⟩
    rintro ⟨hlo, hhi⟩
    rcases hout with h | h
    · exact absurd hlo (not_le.2 h)
    · exact absurd hhi (not_le.2 h)

end Sys2Proof.Machine

/-! # Power requests, the handshake, the steps of an entry and the stages of a wake (R51, R52, R455–R465) -/

namespace Sys2Proof.Machine

/-! ## Requests (R455, R456) -/

/-- A block keeps an entry out exactly where R52 and R445 name one. -/
theorem entryBarred_none {e : Engine} {t : Nat}
    (hwake : e.pins.wake = false ∨ t < 2 ∨ on e PWR_CTRL_IN_SERVICE = true ∧ pwrState e < 2)
    (hkiln : on e PWR_CTRL_IN_SERVICE = true ∨ t < 2 ∨ t = 4 ∨ kilnGood e = true) : entryBarred e t = none := by
  have h2 : ¬ (t ≥ 2 ∧ e.pins.wake = true ∧
      ((!on e PWR_CTRL_IN_SERVICE) = true ∨ pwrState e = 2 ∨ pwrState e = 3)) := by
    rintro ⟨ht, hw, hc⟩
    rcases hwake with h | h | ⟨hs, hlt⟩
    · exact absurd hw (by simp [h])
    · omega
    · rcases hc with h | h | h
      · exact absurd h (by simp [hs])
      all_goals omega
  have h3 : ¬ ((!on e PWR_CTRL_IN_SERVICE) = true ∧ (t = 2 ∨ t = 3) ∧ kilnGood e = false) := by
    rintro ⟨hc, ht, hk⟩
    rcases hkiln with h | h | h | h
    · exact absurd hc (by simp [h])
    · omega
    · omega
    · exact absurd hk (by simp [h])
  unfold entryBarred
  rw [if_neg h2, if_neg h3]

theorem entryBarred_wake {e : Engine} {t : Nat} (ht : 2 ≤ t) (hwake : e.pins.wake = true)
    (hno : on e PWR_CTRL_IN_SERVICE = false ∨ pwrState e = 2 ∨ pwrState e = 3) : entryBarred e t = some 2 :=
  if_pos ⟨ht, hwake, hno.imp_left fun h => by simp [h]⟩

/-- With no transition in progress, a request is launched with its ticket in place. -/
theorem powerRequest_of_rest {e : Engine} (h : inTrans e = false) (t : Nat) (tk : Option Nat) :
    powerRequest e t tk = launch (mapPwr e fun p => { p with tickets := tk.toList }) t := by
  unfold powerRequest
  simp only [h, Bool.false_eq_true, if_false]

theorem powerRequest_of_trans {e : Engine} (h : inTrans e = true) (t : Nat) (tk : Option Nat) :
    powerRequest e t tk = if t = pwrTarget e then mapPwr e fun p => { p with tickets := p.tickets ++ tk.toList }
      else if t = 0 ∧ reversible (setPending e t tk) then reverseEntry (setPending e t tk) stSuperseded
      else setPending e t tk := by
  unfold powerRequest
  simp only [h, if_true]

theorem launch_of_reached {e : Engine} {t : Nat} (h : t = pwrState e) : launch e t = endTickets e stOk := if_pos h

theorem launch_idle_to_run {e : Engine} (h : pwrState e = 1) : launch e 0 = endTickets (leaveIdle
    (hsFlag (inc (wr e PWR_STATE_STATE 0) PWR_CNT_TRANS) PWR_HS_STATUS_DONE)) stOk := by
  have h0 : ¬ 0 = pwrState e := by omega
  exact (if_neg h0).trans (if_pos ⟨h, rfl⟩)

theorem launch_of_barred {e : Engine} {t b : Nat} (hne : t ≠ pwrState e) (hrun : ¬ (pwrState e = 1 ∧ t = 0))
    (h : entryBarred e t = some b) : launch e t =
      endTickets (sqSet e PWR_HS_STATUS [(PWR_HS_STATUS_REFUSED, 1), (PWR_HS_STATUS_BLOCK, b)]) stBusy := by
  unfold launch
  rw [if_neg hne, if_neg hrun, h]

theorem launch_of_free {e : Engine} {t : Nat} (hne : t ≠ pwrState e) (hrun : ¬ (pwrState e = 1 ∧ t = 0))
    (h : entryBarred e t = none) : launch e t = beginTrans e t := by
  unfold launch
  rw [if_neg hne, if_neg hrun, h]

/-! ## The handshake (R459–R461) -/

/-- A refusal of an entry that does not reverse yet undoes it and ends its request with BUSY. -/
theorem refuseEntry_of_forward {e : Engine} (h : e.pwr.reverse = none) (b : Nat) :
    refuseEntry e b = settleTrans (endTickets (undoEntry (sqSet e PWR_HS_STATUS
      [(PWR_HS_STATUS_REFUSED, 1), (PWR_HS_STATUS_BLOCK, b)])) stBusy) := by
  unfold refuseEntry
  rw [h]

section
variable {e : Engine} {b : Nat} (us : Nat) (hask : isAsked e b = true) (hre : tget 0 e.pwr.reask b = 0)
include hask hre

/-- What an asked block does whose delay, if it had one, is over. -/
theorem handshakeAnswer_of_asked : handshakeAnswer e b us =
    if canAgree (stopAsked e b) b then mapPwr (stopAsked e b) fun p => { p with agreed := p.agreed ++ [b] }
    else if refuses b then refuseEntry (stopAsked e b) b
    else if b = 4 then stopAsked e b
    else if tget 0 (stopAsked e b).pwr.delay b ≥ delayLimit then
      refuseEntry (hsFlag (stopAsked e b) PWR_HS_STATUS_EXPIRED) b
    else stopRoll (mapPwr (markRoll (stopAsked e b) b) fun p => { p with
      delay := tput 0 p.delay b (tget 0 (stopAsked e b).pwr.delay b +
        min (usUnits us) (delayLimit - tget 0 (stopAsked e b).pwr.delay b))
      reask := tput 0 p.reask b ((stopAsked e b).clk.nominal +
        min (usUnits us) (delayLimit - tget 0 (stopAsked e b).pwr.delay b)) }) := by
  unfold handshakeAnswer
  simp only [hask, hre, beq_self_eq_true, Bool.and_true, if_true]

theorem handshakeAnswer_agrees (h : canAgree (stopAsked e b) b = true) : handshakeAnswer e b us =
    mapPwr (stopAsked e b) fun p => { p with agreed := p.agreed ++ [b] } :=
  (handshakeAnswer_of_asked us hask hre).trans (if_pos h)

theorem handshakeAnswer_refuses (h : canAgree (stopAsked e b) b = false) (hb : b = 2 ∨ b = 3) :
    handshakeAnswer e b us = refuseEntry (stopAsked e b) b := by
  rw [handshakeAnswer_of_asked us hask hre, if_neg (by simp [h]), if_pos (by rcases hb with rfl | rfl <;> rfl)]

variable (h : canAgree (stopAsked e b) b = false) (h2 : b ≠ 2) (h3 : b ≠ 3) (h4 : b ≠ 4)
include h h2 h3 h4

theorem handshakeAnswer_expires (hfull : msUnits 10 ≤ tget 0 (stopAsked e b).pwr.delay b) :
    handshakeAnswer e b us = refuseEntry (hsFlag (stopAsked e b) PWR_HS_STATUS_EXPIRED) b := by
  rw [handshakeAnswer_of_asked us hask hre, if_neg (by simp [h]), if_neg (by simp [refuses, h2, h3]), if_neg h4]
  exact if_pos hfull

theorem handshakeAnswer_delays (hroom : tget 0 (stopAsked e b).pwr.delay b < msUnits 10) :
    handshakeAnswer e b us = stopRoll (mapPwr (markRoll (stopAsked e b) b) fun p => { p with
      delay := tput 0 p.delay b (tget 0 (stopAsked e b).pwr.delay b +
        min (usUnits us) (msUnits 10 - tget 0 (stopAsked e b).pwr.delay b))
      reask := tput 0 p.reask b ((stopAsked e b).clk.nominal +
        min (usUnits us) (msUnits 10 - tget 0 (stopAsked e b).pwr.delay b)) }) := by
  rw [handshakeAnswer_of_asked us hask hre, if_neg (by simp [h]), if_neg (by simp [refuses, h2, h3]), if_neg h4]
  exact if_neg (Nat.not_le.mpr hroom)

end

theorem handshakeReask_of_asked {e : Engine} {b : Nat} (hask : isAsked e b = true) (hre : tget 0 e.pwr.reask b ≠ 0) :
    handshakeReask e b = stopRoll (mapPwr (tickTo e (tget 0 e.pwr.reask b)) fun p => { p with
      reask := tput 0 p.reask b 0 }) := by
  unfold handshakeReask
  simp [hask, hre]

theorem handshakeLimit_of_asked {e : Engine} {b : Nat} (hask : isAsked e b = true)
    (hfull : msUnits 10 ≤ tget 0 e.pwr.delay b) (h : canAgree e b = false) : handshakeLimit e b =
      refuseEntry (hsFlag (tickTo e (tget 0 e.pwr.reask b)) PWR_HS_STATUS_EXPIRED) b := by
  have hl : tget 0 e.pwr.delay b ≥ delayLimit := hfull
  unfold handshakeLimit
  simp [hask, hl, h]

/-- Settles O37: each request and each answer by the case of its function. -/
theorem powerRequestsAndHandshakesAct : Obligations.PowerRequestsAndHandshakesAct := by
  refine ⟨fun e t tk => ⟨?_, ?_, ?_, ?_, ?_, ?_⟩, fun s b us hask => ⟨fun hre => ⟨?_, ?_, ?_, ?_⟩, ?_, ?_⟩,
    fun e b h => refuseEntry_of_forward h b⟩
  · exact fun hrest ht => (powerRequest_of_rest hrest t tk).trans (launch_of_reached ht)
  · rintro hrest hidle rfl
    exact (powerRequest_of_rest hrest 0 tk).trans (launch_idle_to_run hidle)
  · intro hrest hne hrun hwake hkiln
    exact (powerRequest_of_rest hrest t tk).trans (launch_of_free hne hrun (entryBarred_none hwake hkiln))
  · intro hrest hne ht hwake hno
    exact (powerRequest_of_rest hrest t tk).trans
      (launch_of_barred hne (fun h => by omega) (entryBarred_wake ht hwake hno))
  · exact fun htrans ht => (powerRequest_of_trans htrans t tk).trans (if_pos ht)
  · exact fun htrans ht => (powerRequest_of_trans htrans t tk).trans (if_neg ht)
  · exact fun h => run_of_eq (handshakeAnswer_agrees us hask hre h)
  · exact fun h hb => run_of_eq (handshakeAnswer_refuses us hask hre h (by simpa [Fin.ext_iff] using hb))
  · exact fun h h2 h3 h4 hfull => run_of_eq (handshakeAnswer_expires us hask hre h (Fin.val_ne_of_ne h2)
      (Fin.val_ne_of_ne h3) (Fin.val_ne_of_ne h4) hfull)
  · exact fun h h2 h3 h4 hroom => run_of_eq (handshakeAnswer_delays us hask hre h (Fin.val_ne_of_ne h2)
      (Fin.val_ne_of_ne h3) (Fin.val_ne_of_ne h4) hroom)
  · exact fun hre => run_of_eq (handshakeReask_of_asked hask hre)
  · exact fun hfull h => run_of_eq (handshakeLimit_of_asked hask hfull h)

end Sys2Proof.Machine

/-! # Resets, losses of clock and supply, and the way out of reset (R37, R55, R56, R436–R439, R449, R468–R470) -/

namespace Sys2Proof.Machine

/-! ## What a reset of the core domain leaves (R437) -/

theorem kilnSync_pins (e : Engine) : (kilnSync e).pins = e.pins := by
  unfold kilnSync
  split <;> rfl

theorem kilnSync_regs (e : Engine) : (kilnSync e).regs = e.regs := by
  unfold kilnSync
  split <;> rfl

/-- The registers of AON that a reset of the core domain leaves. -/
def aonKept : List Nat := [PWR_BIN_NEXT, PWR_RESET_CAUSE, PWR_KILN_PER, PWR_AON_STATUS]

/-- Registers taken over one by one hold what they held; every other holds what it held before. -/
theorem reg_foldl_keep (e : Engine) (a : Nat) (l : List Nat) (x : Engine) :
    reg (l.foldl (fun x b => setReg x b (reg e b)) x) a = if a ∈ l then reg e a else reg x a := by
  induction l generalizing x with
  | nil => rfl
  | cons b l ih =>
    rw [List.foldl_cons, ih, reg_setReg]
    by_cases hab : a = b
    · simp [hab]
    · simp [hab]

theorem reg_coreReset (e : Engine) (a : Nat) : reg (coreReset e) a = if a ∈ aonKept then reg e a else resetOf a := by
  have h := reg_foldl_keep (kilnSync e) a aonKept engineReset
  rw [reg_congr (kilnSync_regs e)] at h
  exact h

/-- A register outside AON's four stands at its reset value. -/
theorem rd_coreReset (e : Engine) {f : Fld} (h : f.addr ∉ aonKept) :
    rd (coreReset e) f = wordField (resetOf f.addr) f.hi f.lo := by
  unfold rd
  rw [reg_coreReset, if_neg h]

theorem coreReset_supply (e : Engine) : (coreReset e).pins.supply = e.pins.supply :=
  congrArg (·.supply) (kilnSync_pins e)

theorem coreReset_porst (e : Engine) : (coreReset e).pins.porst = e.pins.porst :=
  congrArg (·.porst) (kilnSync_pins e)

theorem coreReset_srst (e : Engine) : (coreReset e).pins.srst = e.pins.srst :=
  congrArg (·.srst) (kilnSync_pins e)

/-! ## What starts the PLL again (R435, R439) -/

theorem sqSet_pins (e : Engine) (a : Nat) (fs : List (Fld × Nat)) : (sqSet e a fs).pins = e.pins := by
  rw [sqSet_eq]

theorem released_sqSet (e : Engine) (a : Nat) (fs : List (Fld × Nat)) : released (sqSet e a fs) = released e := by
  unfold released
  rw [sqSet_pins, sqSet_clk]

theorem startPll_of_held {e : Engine} (h : released e = false) : startPll e = e := by
  unfold startPll
  simp [h]

theorem startPll_of_released {e : Engine} (h : released e = true) : startPll e =
    mapClk e fun c => { c with root := .starting, bin := rd e PWR_BIN_NEXT_BIN_NEXT } := if_pos h

/-! ## The commands -/

theorem srstAssert_eq (e : Engine) : srstAssert e = if e.pins.supply && !e.pins.porst then
    sqSet (coreReset { e with pins := { e.pins with srst := true } }) PWR_RESET_CAUSE [(PWR_RESET_CAUSE_SRST, 1)]
    else coreReset { e with pins := { e.pins with srst := true } } := by
  unfold srstAssert
  simp only [coreReset_supply, coreReset_porst, resetCause]

theorem engPresentLow_eq (e : Engine) : engPresentLow e = if e.pins.supply && !e.pins.porst then
    sqSet (mapClk (coreReset { e with pins := { e.pins with engPresent := false } }) fun c => { c with lost := e.clk.lost })
      PWR_RESET_CAUSE [(PWR_RESET_CAUSE_ABSENT, 1)]
    else mapClk (coreReset { e with pins := { e.pins with engPresent := false } }) fun c => { c with lost := e.clk.lost } := by
  unfold engPresentLow
  simp only [mapClk_pins, coreReset_supply, coreReset_porst, resetCause]

section
variable {s : State} {ref : Bool}

theorem clockLoss_lost (h : canLoseClock s.fresh ref = true) : AnswersLost (.clockLoss ref) s (mapClk
    (sqSet (coreReset s.fresh) PWR_RESET_CAUSE [(if ref then PWR_RESET_CAUSE_REF_LOSS else PWR_RESET_CAUSE_LOCK_LOST, 1)])
    fun c => { c with lost := !s.fresh.pins.srst }) := by
  have hf : clockLoss s.fresh ref = mapClk (resetCause (coreReset s.fresh)
      (if ref then PWR_RESET_CAUSE_REF_LOSS else PWR_RESET_CAUSE_LOCK_LOST)) fun c => { c with lost := !s.fresh.pins.srst } := by
    unfold clockLoss
    simp only [h, if_true, resetCause, sqSet_pins, coreReset_srst]
  have hl : execClockLoss ref s = .next (s.runLosing (fun _ => true) fun _ e => clockLoss e ref) := by
    unfold execClockLoss
    rw [h]
  exact hl.trans (runLosing_true hf)

theorem clockLoss_kept (h : canLoseClock s.fresh ref = false) : Answers (.clockLoss ref) s s.fresh := by
  have hf : clockLoss s.fresh ref = s.fresh := if_neg (by simp [h])
  have hl : execClockLoss ref s = .next (s.run fun _ e => clockLoss e ref) := by
    unfold execClockLoss State.runLosing
    simp [h]
  exact hl.trans (run_of_eq hf)

theorem supplyOut_off (h : offFromSleep s.fresh = true) : AnswersLost .supplyOutOfRange s
    (sqSet (wr (coreReset s.fresh) PWR_STATE_STATE 4) PWR_AON_STATUS [(PWR_AON_STATUS_RET_LOST, 1)]) := by
  have hf : supplyOut s.fresh =
      sqSet (wr (coreReset s.fresh) PWR_STATE_STATE 4) PWR_AON_STATUS [(PWR_AON_STATUS_RET_LOST, 1)] := if_pos h
  have hl : execSupplyOutOfRange s = .next (s.runLosing (fun _ => true) fun _ e => supplyOut e) := by
    unfold execSupplyOutOfRange
    rw [h]
  exact hl.trans (runLosing_true hf)

theorem supplyOut_on (h : offFromSleep s.fresh = false) : Answers .supplyOutOfRange s s.fresh := by
  have hf : supplyOut s.fresh = s.fresh := if_neg (ne_true_of_eq_false h)
  have hl : execSupplyOutOfRange s = .next (s.run fun _ e => supplyOut e) := by
    unfold execSupplyOutOfRange State.runLosing
    simp [h]
  exact hl.trans (run_of_eq hf)

end

/-! The release of PORST_N, with the causes that still hold the core added. -/
section
variable {e : Engine} (hp : e.pins.porst = true) (hs : e.pins.supply = true)
include hp hs

theorem porstRelease_absent (hE : e.pins.engPresent = false) (hS : e.pins.srst = false) : porstRelease e =
    sqSet { e with pins := { e.pins with porst := false } } PWR_RESET_CAUSE [(PWR_RESET_CAUSE_ABSENT, 1)] := by
  unfold porstRelease
  simp only [hp, hs, hE, Bool.and_self, if_true, Bool.false_eq_true, if_false, resetCause, sqSet_pins, hS]
  exact startPll_of_held (by rw [released_sqSet]; simp [released])

theorem porstRelease_srst (hE : e.pins.engPresent = true) (hS : e.pins.srst = true) : porstRelease e =
    sqSet { e with pins := { e.pins with porst := false } } PWR_RESET_CAUSE [(PWR_RESET_CAUSE_SRST, 1)] := by
  unfold porstRelease
  simp only [hp, hs, hE, Bool.and_self, if_true, resetCause, hS]
  exact startPll_of_held (by rw [released_sqSet]; simp [released])

theorem porstRelease_both (hE : e.pins.engPresent = false) (hS : e.pins.srst = true) : porstRelease e =
    sqSet (sqSet { e with pins := { e.pins with porst := false } } PWR_RESET_CAUSE [(PWR_RESET_CAUSE_ABSENT, 1)])
      PWR_RESET_CAUSE [(PWR_RESET_CAUSE_SRST, 1)] := by
  unfold porstRelease
  simp only [hp, hs, hE, Bool.and_self, if_true, Bool.false_eq_true, if_false, resetCause, sqSet_pins, hS]
  exact startPll_of_held (by rw [released_sqSet, released_sqSet]; simp [released])

theorem porstRelease_free (hE : e.pins.engPresent = true) (hS : e.pins.srst = false) (hL : e.clk.lost = false) :
    porstRelease e = mapClk { e with pins := { e.pins with porst := false } } fun c => { c with
      root := .starting, bin := rd { e with pins := { e.pins with porst := false } } PWR_BIN_NEXT_BIN_NEXT } := by
  unfold porstRelease
  simp only [hp, hs, hE, Bool.and_self, if_true, Bool.false_eq_true, if_false, hS]
  exact startPll_of_released (by simp [released, hL])

end

theorem srstRelease_eq {e : Engine} (h : e.pins.srst = true) :
    srstRelease e = startPll { e with pins := { e.pins with srst := false } } := if_pos h

theorem pllLock_eq {e : Engine} (hroot : e.clk.root = .starting) (hrel : released e = true) :
    pllLock e =
      let x := mapClk (kilnInReset e) startDividers
      let x := tick { x with pins := { x.pins with relayClosed := false } } (64 * regCycle)
      mapCore x 1 fun c => { c with released := true, kick := x.clk.nominal } := if_pos ⟨hroot, hrel⟩

theorem not_safe_coreReset (e : Engine) : isSafe (coreReset e) = false := by
  unfold isSafe on
  rw [rd_coreReset e (by decide)]
  decide

theorem pwrState_coreReset (e : Engine) : pwrState (coreReset e) = 0 := by
  unfold pwrState
  rw [rd_coreReset e (by decide)]
  decide

/-- Settles O55: each command by its own equation, and the reset register by register. -/
theorem resetsClocksAndSuppliesAct : Obligations.ResetsClocksAndSuppliesAct := by
  refine ⟨fun s ref => ⟨?_, ?_, ?_, ?_, clockLoss_lost, clockLoss_kept, supplyOut_off, supplyOut_on, ?_, ?_, ?_, ?_⟩,
    fun e a => ⟨reg_coreReset e a, rfl, rfl, rfl, rfl, rfl, not_safe_coreReset e, pwrState_coreReset e, rfl, rfl, rfl, rfl,
      rfl, rfl⟩⟩
  · exact runLosing_true rfl
  · exact runLosing_true rfl
  · exact runLosing_true (srstAssert_eq s.fresh)
  · exact runLosing_true (engPresentLow_eq s.fresh)
  · intro hp hs
    refine ⟨fun hE hS => run_of_eq (porstRelease_absent hp hs hE hS), fun hE hS => run_of_eq (porstRelease_srst hp hs hE hS),
      fun hE hS => run_of_eq (porstRelease_both hp hs hE hS), fun hE hS hL => run_of_eq (porstRelease_free hp hs hE hS hL)⟩
  · exact fun h => ⟨fun hr => run_of_eq ((srstRelease_eq h).trans (startPll_of_released hr)),
      fun hr => run_of_eq ((srstRelease_eq h).trans (startPll_of_held hr))⟩
  · exact fun hroot hrel => run_of_eq (pllLock_eq hroot hrel)
  · exact fun hp he => run_of_eq (if_pos (by simp [hp, he]))

end Sys2Proof.Machine

/-! # The steps of an entry and the stages of a wake (R51, R52, R90, R131, R438, R460–R465) -/

namespace Sys2Proof.Machine

/-! ## Where nothing follows a step that stops the clocks -/

/-- The core domain stands still: no clock, nothing that waits in firmware, neither the safe state nor IDLE nor a
transition. -/
structure Still (e : Engine) : Prop where
  safe : isSafe e = false
  clock : clocked e = false
  acts : e.mci.acts = []
  verify : e.mci.verify = none
  failed : e.ring.failed = []
  state : pwrState e ≠ 1
  trans : inTrans e = false
  step : pwrStep e = 0

/-- Nothing follows in a step that leaves the core domain still. -/
theorem Still.settle {e : Engine} (h : Still e) (d : Dram) (before : Engine) : settle d before e = e := by
  have hwalks : unenrollEnds e = e := if_neg (by simp [pairRuns, h.clock])
  have htaken : takeFailed before e = e := by
    have hr : mapRing e (fun r => { r with failed := r.failed.drop before.ring.failed.length }) = e := by
      have hd : e.ring.failed.drop before.ring.failed.length = e.ring.failed := by rw [h.failed, List.drop_nil]
      simp only [mapRing, hd]
    unfold takeFailed
    rw [hr, ite_self]
  have hpump : ringPump e = e := if_neg (by simp [h.clock])
  have hhalt : settleIdle before e = e := if_neg (by simp [h.state, haltsNow, h.trans])
  unfold Machine.settle
  simp only [h.safe, Bool.false_eq_true, and_false, false_and, if_false, hwalks, fwActs_of_nil h.acts,
    stageVerify_of_none h.verify, h.clock, htaken, hpump, hhalt]

/-- The state is one of PWR_STATE's fields, apart from the transition's. -/
theorem rd_wr_state (e : Engine) (v : Nat) {f : Fld} (h : f = PWR_STATE_TRANS ∨ f = PWR_STATE_STEP) :
    rd (wr e PWR_STATE_STATE v) f = rd e f := by
  rcases h with rfl | rfl
  · exact rd_wr_apart (g := PWR_STATE_TRANS) e v rfl (by decide)
  · exact rd_wr_apart (g := PWR_STATE_STEP) e v rfl (by decide)

theorem isSafe_wr_state (e : Engine) (v : Nat) : isSafe (wr e PWR_STATE_STATE v) = isSafe e :=
  isSafe_of_reg (reg_wr_ne e _ v (by decide))

theorem pwrState_wr_state (e : Engine) {v : Nat} (h : v < 8) : pwrState (wr e PWR_STATE_STATE v) = v :=
  (rd_wr_same e v (by decide) (by decide)).trans (Nat.mod_eq_of_lt h)

/-- OFF is still, with nothing but AON left. -/
theorem still_off (e : Engine) : Still (wr (coreReset e) PWR_STATE_STATE 4) where
  safe := (isSafe_wr_state ..).trans (not_safe_coreReset e)
  clock := rfl
  acts := rfl
  verify := rfl
  failed := rfl
  state := by rw [pwrState_wr_state _ (by decide)]; decide
  trans := by
    unfold inTrans on
    rw [rd_wr_state _ _ (.inl rfl), rd_coreReset e (by decide)]
    decide
  step := by
    unfold pwrStep
    rw [rd_wr_state _ _ (.inr rfl), rd_coreReset e (by decide)]
    decide

theorem Still.startPll {e : Engine} (h : Still e) : Still (startPll e) := by
  unfold Machine.startPll
  split
  · exact { h with clock := rfl }
  · exact h

theorem clocked_congr {e e' : Engine} (hclk : e'.clk = e.clk) (hpwr : e'.pwr = e.pwr) : clocked e' = clocked e := by
  unfold clocked
  rw [hclk, hpwr]

theorem Still.toRun {e : Engine} (h : Still e) : Still (wr e PWR_STATE_STATE 0) :=
  { acts := by rw [wr_mci]; exact h.acts
    verify := by rw [wr_mci]; exact h.verify
    failed := by rw [wr_ring]; exact h.failed
    safe := (isSafe_wr_state ..).trans h.safe
    clock := (clocked_congr (wr_clk ..) (wr_pwr ..)).trans h.clock
    state := by rw [pwrState_wr_state _ (by decide)]; decide
    trans := by unfold inTrans on; rw [rd_wr_state _ _ (.inl rfl)]; exact h.trans
    step := by unfold pwrStep; rw [rd_wr_state _ _ (.inr rfl)]; exact h.step }

theorem Still.resetCause {e : Engine} (h : Still e) (f : Fld) : Still (resetCause e f) := by
  unfold Machine.resetCause
  have hreg : ∀ a, a ≠ PWR_RESET_CAUSE → reg (sqSet e PWR_RESET_CAUSE [(f, 1)]) a = reg e a :=
    fun a ha => reg_sqSet_ne _ _ ha
  generalize hx : sqSet e PWR_RESET_CAUSE [(f, 1)] = x at hreg
  have heq : x = { e with regs := x.regs } := hx ▸ sqSet_eq e PWR_RESET_CAUSE [(f, 1)]
  have hrd : ∀ g : Fld, g.addr = PWR_STATE → rd x g = rd e g := fun g hg => by
    unfold rd; rw [hreg _ (by rw [hg]; decide)]
  refine { safe := (isSafe_of_reg (hreg _ (by decide))).trans h.safe, state := ?_, trans := ?_, step := ?_, clock := ?_, acts := ?_, verify := ?_, failed := ?_ }
  · rw [heq]; exact h.clock
  · rw [heq]; exact h.acts
  · rw [heq]; exact h.verify
  · rw [heq]; exact h.failed
  · unfold pwrState; rw [hrd _ rfl]; exact h.state
  · unfold inTrans on; rw [hrd _ rfl]; exact h.trans
  · unfold pwrStep; rw [hrd _ rfl]; exact h.step

theorem Still.wakeFromOff {e : Engine} (h : Still e) : Still (wakeFromOff e) :=
  (h.toRun.resetCause _).startPll

theorem still_stepOff (e : Engine) : Still (stepOff e) := by
  have hoff : stepOff e = if runPending e then wakeFromOff (wr (coreReset e) PWR_STATE_STATE 4)
    else wr (coreReset e) PWR_STATE_STATE 4 := rfl
  rw [hoff]
  split
  · exact (still_off e).wakeFromOff
  · exact still_off e

/-! ## The controller's step (R460–R462) -/

theorem stepReady_of {e : Engine} (h : on e PWR_CTRL_IN_SERVICE = false ∨ ∀ b ∈ askedBlocks e, b ∈ e.pwr.agreed) :
    stepReady e = true := by
  rcases h with h | h
  · simp [stepReady, h]
  · simpa [stepReady] using Or.inr h

section
variable {d : Dram} {e : Engine}

theorem powerStep_forward (htrans : inTrans e = true) (hwake : e.pwr.wake = none) (hrev : e.pwr.reverse = none)
    (hready : stepReady e = true) : powerStep d e = stepGo d e := by
  unfold powerStep
  simp only [htrans, hwake, hrev, hready, Option.isNone_none, Bool.and_self, if_true]

theorem powerStep_reversing {st : Nat} (htrans : inTrans e = true) (hwake : e.pwr.wake = none)
    (hrev : e.pwr.reverse = some st) : powerStep d e =
      if stepReady e && !actsDone (pwrStep e) (if stepReady e then stepActs d e else e) then
        if stepReady e then stepActs d e else e
      else endReverse (if stepReady e then stepActs d e else e) st := by
  unfold powerStep
  simp only [htrans, hwake, hrev, Option.isNone_none, Bool.and_self, if_true]

/-- The actions of every step but the fourth are complete at once. -/
theorem stepActs_of_ne (h : pwrStep e ≠ 4) : stepActs d e = mapPwr e fun p => { p with done := p.done + 1 } := by
  unfold stepActs actsDone
  simp [h]

theorem stepGo_early {k : Nat} (hk : pwrStep e = k) (h5 : k ≤ 5) (h4 : k ≠ 4) (h1 : ¬ (k = 1 ∧ pwrTarget e = 1)) :
    stepGo d e = enterStep (mapPwr e fun p => { p with done := p.done + 1 }) (nextStep (pwrTarget e) k) := by
  have hk4 : pwrStep e ≠ 4 := by omega
  unfold stepGo
  subst hk
  simp only [if_neg h1, if_pos h5, stepActs_of_ne hk4]
  simp [actsDone, h4]

theorem stepGo_idle (hk : pwrStep e = 1) (ht : pwrTarget e = 1) :
    stepGo d e = mapPwr e fun p => { p with done := 1 } := if_pos ⟨hk, ht⟩

theorem stepGo_sleeps (hk : pwrStep e = 4) (h : allAsleep (inParallel e (sleepChannel d)) = true) : stepGo d e =
    enterStep (mapPwr (inParallel e (sleepChannel d)) fun p => { p with done := p.done + 1 }) 5 := by
  have hp : ∀ x, allAsleep (mapPwr x fun p => { p with done := p.done + 1 }) = allAsleep x := fun _ => rfl
  unfold stepGo stepActs
  simp [hk, actsDone, h, hp, nextStep]

theorem stepGo_waits (hk : pwrStep e = 4) (h : allAsleep (inParallel e (sleepChannel d)) = false) :
    stepGo d e = inParallel e (sleepChannel d) := by
  unfold stepGo stepActs
  simp [hk, actsDone, h]

theorem stepGo_deep (hk : pwrStep e = 7) : stepGo d e =
    reached (kilnTicks (emptyQueues <| mapPwr e fun p => { p with done := p.done + 1 }) 10) 3 := by
  unfold stepGo
  simp [hk]

theorem stepGo_late (hk : pwrStep e = 6 ∨ pwrStep e = 8) : stepGo d e =
    if lapDone e then (if pwrStep e = 6 then stepSleep e else stepOff e) else e := by
  unfold stepGo
  rcases hk with hk | hk <;> simp [hk]

theorem stepSleep_light (ht : pwrTarget e ≠ 3) :
    stepSleep e = reached (stepStop (mapPwr e fun p => { p with done := p.done + 1 })) 2 := if_neg ht

theorem stepSleep_deep (ht : pwrTarget e = 3) : stepSleep e =
    let d := wr (telPartial (stepStop (mapPwr e fun p => { p with done := p.done + 1 }))) PWR_STATE_STATE 2
    if runPending d then reached d 2 else enterStep d 7 := if_pos ht

theorem stepGo_six (hk : pwrStep e = 6) (hl : lapDone e = true) : stepGo d e = stepSleep e := by
  rw [stepGo_late (.inl hk), if_pos hl, if_pos hk]

theorem stepGo_eight (hk : pwrStep e = 8) (hl : lapDone e = true) : stepGo d e = stepOff e := by
  rw [stepGo_late (.inr hk), if_pos hl, if_neg (by omega)]

end

theorem answersStep_of_eq {s : State} {e' : Engine} (h : powerStep s.dram s.fresh = e') : AnswersStep s e' := by
  subst h
  rfl

/-- Step 8 loses the contents of the modules. -/
theorem answersLost_stepOff {s : State} (hk : pwrStep s.fresh = 8) (h : powerStep s.dram s.fresh = stepOff s.fresh) :
    AnswersLost .powerStep s (stepOff s.fresh) := by
  have hstep : pwrStep (s.run powerStep).e = 0 := by
    have hrun : s.run powerStep = s.after (stepOff s.fresh) := congrArg s.after h
    rw [hrun]
    unfold State.after
    rw [(still_stepOff s.fresh).settle]
    exact (still_stepOff s.fresh).step
  have hlost : (pwrStep s.fresh == 8 && pwrStep (s.run powerStep).e == 0) = true := by simp [hk, hstep]
  have hl : s.runLosing (fun t => pwrStep s.fresh == 8 && pwrStep t == 0) powerStep =
      s.afterLoss (powerStep s.dram s.fresh) := if_pos hlost
  exact congrArg Host.Outcome.next (hl.trans (congrArg s.afterLoss h))

/-! ## The end of an entry to IDLE, and a port that does not yield -/

theorem idleEnd_of_halted {x : Engine} (h : haltsNow x = true) (hp : ∀ p < 2, rd x (pairField p) = 1) :
    idleEnd x = deliverAll (reached x 1) := by
  have hall : ([0, 1].all fun p => rd x (pairField p) == 1) = true := by simp [hp 0, hp 1]
  exact if_pos (by rw [h, hall]; rfl)

theorem yieldTimeout_refuses {e : Engine} {p t : Nat} (ht : (getPort e p).recallAt = some t) (hc : clocked e = true)
    (h : (inTrans (tickTo e (t + usUnits 100)) && on (tickTo e (t + usUnits 100)) PWR_CTRL_IN_SERVICE &&
      pwrStep (tickTo e (t + usUnits 100)) == 2) = true) :
    yieldTimeout e p = refuseEntry (tickTo e (t + usUnits 100)) 4 := by
  unfold yieldTimeout
  simp only [ht, hc, h, if_true]

theorem yieldTimeout_withdraws {e : Engine} {p t : Nat} (ht : (getPort e p).recallAt = some t) (hc : clocked e = true)
    (h : (inTrans (tickTo e (t + usUnits 100)) && on (tickTo e (t + usUnits 100)) PWR_CTRL_IN_SERVICE &&
      pwrStep (tickTo e (t + usUnits 100)) == 2) = false) :
    yieldTimeout e p = ingressFault (putPort (tickTo e (t + usUnits 100)) p
      { getPort (tickTo e (t + usUnits 100)) p with held := [0, 0, 0, 0], recallAt := none }) p
      GC_ING_STATUS_YIELD_MISMATCH := by
  unfold yieldTimeout
  simp only [ht, hc, h, if_true, Bool.false_eq_true, if_false]

/-- Settles O38: the step of the controller by its number, and what reverses, ends or refuses an entry. -/
theorem entryTakesItsSteps : Obligations.EntryTakesItsSteps := by
  intro s
  refine ⟨fun htrans hwake hrev hready => ?_, fun st htrans hwake hrev hno => ?_, fun st htrans hwake hrev hyes h4 => ?_,
    fun x => idleEnd_of_halted, fun p t0 ht hc => ⟨fun h1 h2 h3 => run_of_eq ?_, fun h => run_of_eq ?_⟩⟩
  · have hgo : powerStep s.dram s.fresh = stepGo s.dram s.fresh :=
      powerStep_forward htrans hwake hrev (stepReady_of hready)
    have early : ∀ {k n}, pwrStep s.fresh = k → k ≤ 5 ∧ k ≠ 4 → ¬ (k = 1 ∧ pwrTarget s.fresh = 1) →
        nextStep (pwrTarget s.fresh) k = n → AnswersStep s
          (enterStep (mapPwr s.fresh fun p => { p with done := p.done + 1 }) n) := by
      rintro k n hk ⟨h5, h4⟩ h1 rfl
      exact answersStep_of_eq (hgo.trans (stepGo_early hk h5 h4 h1))
    refine ⟨fun hk ht => ?_, fun hk ht => ?_, fun hk => ?_, fun hk => ?_, fun hk => ⟨fun h => ?_, fun h => ?_⟩,
      fun hk => ?_, fun hk hl ht => ?_, fun hk hl ht => ?_, fun hk => ?_, fun hk hl => ?_, fun hk hl => ?_⟩
    · exact answersStep_of_eq (hgo.trans (stepGo_idle hk ht))
    · exact early hk (by decide) (fun h => ht h.2) rfl
    · exact early hk (by decide) (by simp) rfl
    · exact early hk (by decide) (by simp) rfl
    · exact answersStep_of_eq (hgo.trans (stepGo_sleeps hk h))
    · exact answersStep_of_eq (hgo.trans (stepGo_waits hk h))
    · exact early hk (by decide) (by simp) rfl
    · exact answersStep_of_eq (hgo.trans ((stepGo_six hk hl).trans (stepSleep_light ht)))
    · exact answersStep_of_eq (hgo.trans ((stepGo_six hk hl).trans (stepSleep_deep ht)))
    · exact answersStep_of_eq (hgo.trans (stepGo_deep hk))
    · have hoff : powerStep s.dram s.fresh = stepOff s.fresh :=
        hgo.trans (stepGo_eight hk hl)
      exact ⟨answersStep_of_eq hoff, answersLost_stepOff hk hoff⟩
    · exact answersStep_of_eq (hgo.trans ((stepGo_late hk).trans (if_neg (by simp [hl]))))
  · exact answersStep_of_eq ((powerStep_reversing htrans hwake hrev).trans (by simp [hno]))
  · refine answersStep_of_eq ((powerStep_reversing htrans hwake hrev).trans ?_)
    simp only [hyes, if_true, stepActs_of_ne h4]
    simp [actsDone, h4]
  · exact yieldTimeout_refuses ht hc (by simp [h1, h2, h3])
  · exact yieldTimeout_withdraws ht hc (by rcases h with h | h <;> simp [h])

end Sys2Proof.Machine

/-! # The stages of a wake and WAKE_N (R51, R52, R438, R465) -/

namespace Sys2Proof.Machine

section
variable {e : Engine} {n : Nat}

theorem wakeStage_regulator (h : e.pwr.wake = some 0) :
    wakeStage e n = mapPwr (kilnTicks e n) fun p => { p with wake := some 1 } := by
  unfold wakeStage
  rw [h]
  rfl

theorem wakeStage_lock (h : e.pwr.wake = some 1) : wakeStage e n =
    mapPwr (shiftPatrol (sleepAdvance (kilnTicks e n)) ((sleepAdvance (kilnTicks e n)).clk.nominal - e.clk.nominal))
      fun p => { p with wake := some (if e.pwr.deep then 2 else 3) } := by
  have hdeep : (sleepAdvance (kilnTicks e n)).pwr.deep = e.pwr.deep := by
    unfold sleepAdvance
    rw [sqSet_eq]
    rfl
  unfold wakeStage
  rw [h]
  simp only [hdeep]
  rfl

theorem wakeStage_memory (h : e.pwr.wake = some 2) :
    wakeStage e n = mapPwr (tick e 128) fun p => { p with wake := some 3 } := by
  unfold wakeStage
  rw [h]
  rfl

theorem wakeStage_logic (h : e.pwr.wake = some 3) : wakeStage e n =
    let w := tick e (if e.pwr.deep then 384 else 512)
    let w := leaveIdle (wakeEpoch { mapPwr w fun p => { p with wake := some 4 } with
      pins := { w.pins with relayClosed := false } })
    let w := mapRing w fun r => { r with left := false, laps := [] }
    if ringActive w then broadcastPresence w false false else w := by
  have hk : (if e.pwr.deep then 48 else 64) * regCycle = if e.pwr.deep then 384 else 512 := by split <;> rfl
  unfold wakeStage
  rw [h]
  simp only [hk]

theorem wakeStage_channels {k : Nat} (hk : 4 ≤ k) (h : e.pwr.wake = some k) : wakeStage e n = wakeEnd e := by
  obtain ⟨j, rfl⟩ : ∃ j, k = j + 4 := ⟨k - 4, by omega⟩
  unfold wakeStage
  rw [h]
  rfl

end

/-! ## WAKE_N -/

section
variable {e : Engine} {n : Nat}

theorem wakeN_short (h : n < 50) : wakeN e (some n) = e := by
  unfold wakeN wakeSeen
  simp [h]

theorem wakeN_free (h : 50 ≤ n) (h' : n < 2000) : wakeN e (some n) =
    if Config.choice e.free % 2 = 1 then wakeRecognised (drawFree e) else drawFree e := by
  unfold wakeN wakeSeen
  simp only [if_neg (Nat.not_lt.mpr h), if_pos h', beq_iff_eq]

theorem wakeN_sure (h : 2000 ≤ n) : wakeN e (some n) = wakeRecognised e := by
  unfold wakeN wakeSeen
  simp only [if_neg (show ¬ n < 50 by omega), if_neg (Nat.not_lt.mpr h), if_true]

theorem wakeRecognised_off (hrel : released e = true) (hoff : pwrState e = 4) :
    wakeRecognised e = wakeFromOff { e with pins := { e.pins with wake := true } } := by
  have h1 : ¬ released { e with pins := { e.pins with wake := true } } = false := by
    rw [show released { e with pins := { e.pins with wake := true } } = released e from rfl, hrel]
    decide
  exact (if_neg h1).trans (if_pos hoff)

theorem wakeRecognised_on (hrel : released e = true) (hon : pwrState e ≠ 4)
    (hpll : e.clk.root ≠ .starting ∨ e.pwr.wake ≠ none) :
    wakeRecognised e = powerRequest { e with pins := { e.pins with wake := true } } 0 none := by
  have h1 : ¬ released { e with pins := { e.pins with wake := true } } = false := by
    rw [show released { e with pins := { e.pins with wake := true } } = released e from rfl, hrel]
    decide
  have h3 : ¬ (e.clk.root = .starting ∧ e.pwr.wake.isNone = true) := by
    rw [Option.isNone_iff_eq_none]
    tauto
  exact (if_neg h1).trans ((if_neg hon).trans (if_neg h3))

end

/-- Settles O39: the stages by their number, and WAKE_N by how long it has lasted. -/
theorem wakeRunsItsStages : Obligations.WakeRunsItsStages := by
  intro s n
  refine ⟨fun h => run_of_eq (wakeStage_regulator h), fun h => run_of_eq (wakeStage_lock h),
    fun h => run_of_eq (wakeStage_memory h), fun h => run_of_eq (wakeStage_logic h),
    fun k hk h => run_of_eq (wakeStage_channels hk h), run_of_eq rfl, fun h => run_of_eq (wakeN_short h),
    fun h h' => run_of_eq (wakeN_free h h'), fun h hrel hoff => run_of_eq ?_, fun h hrel hon hpll => run_of_eq ?_⟩
  · exact (wakeN_sure h).trans (wakeRecognised_off hrel hoff)
  · exact (wakeN_sure h).trans (wakeRecognised_on hrel hon hpll)

end Sys2Proof.Machine

/-! # The pairs and their mailboxes: doorbells, claims, records, faults and restarts (R478–R487, R512) -/

namespace Sys2Proof.Machine

/-! ## Mailboxes (R48, R485, R487, R512) -/

section
variable {e : Engine} {m : Nat}

theorem doorbell_delivers (hreg : regAvail e = true) (huse : boxUsable e m = true) (h : boxState e m = 1) :
    doorbell e m = deliverBox e m 2 := by
  unfold doorbell
  simp only [hreg, huse, h, Bool.true_eq_false, if_false, if_true]

theorem doorbell_refused (hreg : regAvail e = true) (huse : boxUsable e m = true) (h : boxState e m ≠ 1) :
    doorbell e m = boxFlag e MBX_STATUS_DB_REFUSED m := by
  unfold doorbell
  simp only [hreg, huse, h, Bool.true_eq_false, if_false]

theorem doorbell_unbound (hreg : regAvail e = true) (huse : boxUsable e m = false) :
    doorbell e m = boxFlag e MBX_STATUS_UNBOUND m := by
  unfold doorbell
  simp only [hreg, huse, Bool.true_eq_false, if_false, if_true]

theorem claimExpiry_of_claimed (hclk : clocked e = true) (h : boxState e m = 1 ∨ boxState e m = 3) :
    claimExpiry e m = boxFlag (setBox
      (tickTo e (tget 0 e.mci.claims m + msUnits (rd e MBX_CTRL_CLAIM_TO))) m 0) MBX_STATUS_CLAIM_EXPIRED m :=
  if_pos ⟨hclk, h⟩

/-- A stored record of a mailbox, not of a ring source, is copied and rung. -/
theorem deliverRec_of_empty {r : Rec} (hm : m < 64) (hrec : nextRec e m = some r) (hstate : boxState e m = 0)
    (huse : boxUsable e m = true) : deliverRec e m =
      let d := { e with mci := { e.mci with records := e.mci.records.erase r } }
      let w := r.words.zipIdx.foldl (fun e q => setReg e (MBX_MB_D m q.2) q.1) d
      deliverBox { w with mci := { w.mci with inBox := tput none w.mci.inBox m (some r) } } m 4 := by
  unfold deliverRec
  simp only [hrec, if_neg (show ¬ m ≥ 64 by omega), if_pos (And.intro hstate huse)]

end

/-! ## Restarts (R480) -/

/-- The restarted pair runs, counted and flagged, with its watchdog from now on. -/
def pairBack (e : Engine) (p : Nat) : Engine :=
  mapCore (satF (coreFlag (wr e (pairField p) 0) MBX_STATUS_RESTART p) (restartField p) 1) p fun c => { c with
    restarted := some e.clk.nominal, kick := if nth e.dbg.halted p false then 0 else e.clk.nominal }

section
variable {e : Engine} {p : Nat} (hclk : clocked e = true) (hrest : rd e (pairField p) = 2)
include hclk hrest

theorem coreRestart_fails : coreRestart e p false = coreStopped e p 0xFF := by
  unfold coreRestart
  simp [hclk, hrest]

/-- The restart rebuilds the pair's tickets and cuts its work. -/
theorem coreRestart_succeeds : coreRestart e p true =
    let cut := (pairTickets (pairBack e p) p).foldl cutTicket (pairBack e p)
    if p = 0 then
      let done := cutCommit (endTickets cut stAborted)
      mapPwr (cutWork (finishOpt done done.pwr.pend stAborted 0 []) 0) fun q => { q with pend := none }
    else mapSec (cutWork cut 1) fun c => { c with waitKey := [] } := by
  have hclkEq : (satF (coreFlag (wr e (pairField p) 0) MBX_STATUS_RESTART p) (restartField p) 1).clk = e.clk :=
    (sqSet_clk ..)
  have hdbg : (satF (coreFlag (wr e (pairField p) 0) MBX_STATUS_RESTART p) (restartField p) 1).dbg = e.dbg :=
    (sqSet_dbg ..)
  unfold coreRestart pairBack
  simp only [hclk, hrest, and_self, if_true, hclkEq, hdbg]

end

/-! ## The work that a restart cuts (R480) -/

/-- The first step of cutting the work: what waits without a ticket is dropped. -/
def waitersLeft (e : Engine) : Engine :=
  mapSec e fun c => { c with waiting := c.waiting.filter fun w => (findTicket e w.1).isSome }

section
variable {x : Engine}

theorem cutWork_protFirst {t b n i g l} (h : x.sec.work = some (.protFirst t b n i g l)) :
    cutWork x 1 = mapSec (waitersLeft x) fun c => { c with work := some (.ending 0 g) } := by
  unfold cutWork
  simp only [mapSec_sec, h]
  rfl

theorem cutWork_protInit {t g k} (h : x.sec.work = some (.protInit t g k)) : cutWork x 1 = dropWork (waitersLeft x) := by
  unfold cutWork
  simp only [mapSec_sec, h]
  rfl

theorem cutWork_ending {t r} (h : x.sec.work = some (.ending t r)) : cutWork x 1 = waitersLeft x := by
  unfold cutWork
  simp only [mapSec_sec, h]
  rfl

theorem cutWork_destroy {t c r} (h : x.sec.work = some (.destroy t c r)) : cutWork x 1 = waitersLeft x := by
  unfold cutWork
  simp only [mapSec_sec, h]
  rfl

theorem cutWork_zeroize {w} (h : x.sec.work = some (.zeroize w)) : cutWork x 1 = waitersLeft x := by
  unfold cutWork
  simp only [mapSec_sec, h]
  rfl

theorem cutWork_zeroizing (h : x.sec.work = some .zeroizing) : cutWork x 1 = waitersLeft x := by
  unfold cutWork
  simp only [mapSec_sec, h]
  rfl

/-- A roll stops with its status, or with ABORTED where it had none. -/
theorem cutCommit_roll {c} (hc : x.mci.commit = some c) (hsafe : isSafe x = false) (hq : c.quiesce = false) :
    cutCommit x = putCommit x { c with stop := some (c.stop.getD stAborted) } := by
  unfold cutCommit
  simp only [hc, hsafe, hq, Bool.false_eq_true, if_false]

end

/-- Settles O40: mailboxes by their state, and a pair by its restart. -/
theorem coresAndMailboxesAct : Obligations.CoresAndMailboxesAct := by
  intro s m p hclk
  refine ⟨fun hreg huse h => run_of_eq (doorbell_delivers hreg huse h),
    fun hreg huse h => run_of_eq (doorbell_refused hreg huse h), fun hreg huse => run_of_eq (doorbell_unbound hreg huse),
    fun h => run_of_eq (claimExpiry_of_claimed hclk h), fun x r hx hserved hrec hstate huse => run_of_eq ?_,
    fun mem hlive => run_of_eq (if_pos hlive), fun hlive hruns => run_of_eq (if_pos ⟨hlive, hruns⟩),
    fun hrest => ⟨run_of_eq (coreRestart_fails hclk hrest), ?_, ?_⟩,
    fun x => ⟨fun t b n i g l => cutWork_protFirst, fun t g k => cutWork_protInit, ?_, ?_⟩,
    fun x c => cutCommit_roll⟩
  · have hstep : deliverStep s.fresh x = deliverRec s.fresh m := by rw [← hx]; exact if_pos hserved
    rw [hx] at hrec
    exact hstep.trans (deliverRec_of_empty m.isLt hrec hstate huse)
  · rintro rfl
    exact run_of_eq (coreRestart_succeeds hclk hrest)
  · rintro rfl
    exact run_of_eq (coreRestart_succeeds hclk hrest)
  · rintro t r (h | ⟨c, h⟩)
    · exact cutWork_ending h
    · exact cutWork_destroy h
  · rintro w (h | h)
    · exact cutWork_zeroize h
    · exact cutWork_zeroizing h

end Sys2Proof.Machine

/-! # Messages of the Mulum Command Interface: taking one, the checks, sessions and staged configuration (R505–R519) -/

namespace Sys2Proof.Machine

/-! ## Taking a message, and the checks of R505 -/

theorem HoldsCommand.op_eq {e : Engine} {m op : Nat} (h : HoldsCommand e m op) : (messageOf e m).op = op := by
  obtain ⟨-, -, -, hop, -⟩ := h
  exact hop

/-- Firmware does with a message that its mailbox holds what the command's function does. -/
theorem takeCmd_of_holds {e : Engine} {m op : Nat} (p : Nat → Bool) (h : Engine → Cmd → Engine)
    (hold : HoldsCommand e m op) (hp : p op = true) : takeCmd e m p h = h (tookMessage e m) (messageOf e m) := by
  obtain ⟨hbind, hstate, hruns, hop, hleaves⟩ := hold
  have hcond : (on e (MBX_BIND_VALID m) && boxState e m == 2 && pairRuns e (rd e (MBX_BIND_CORE m)) &&
      p (messageOf e m).op && !leavesWaiting e (rd e (MBX_BIND_CORE m)) (messageOf e m).op) = true := by
    simp [hbind, hstate, hruns, hop, hp, hleaves]
  exact if_pos hcond

theorem checked_of_none {e : Engine} {c : Cmd} {l : Layout} (h : mciCheck e c l = none) (f : Engine → Engine) :
    checked e c l f = f e := by
  unfold checked
  rw [h]

theorem checked_of_some {e : Engine} {c : Cmd} {l : Layout} {st : Nat} (h : mciCheck e c l = some st) (f : Engine → Engine) :
    checked e c l f = reply e c st 0 [] := by
  unfold checked
  rw [h]

/-- A ticketed command whose checks pass goes on with its ticket open. -/
theorem checked_ticketed {e : Engine} {c : Cmd} {l : Layout} (h : mciCheck e c l = none) (f : Engine → Nat → Engine) :
    checked e c l (fun e => ticketed e c f) = f (withTicket e c).1 (withTicket e c).2 := checked_of_none h _

/-- A layout that passes every check is valid. -/
theorem valid_of_check {e : Engine} {c : Cmd} {l : Layout} (h : mciCheck e c l = none) : l.valid = true := by
  unfold mciCheck at h
  split at h
  · simp at h
  split at h
  · simp at h
  split at h
  · simp at h
  split at h
  · simp at h
  next hv => simpa using hv

section
variable {e : Engine} {c : Cmd} {l : Layout}

theorem mciCheck_of_no_session (hs : getSession e c.box = none) (hop : c.op ≠ 0) : mciCheck e c l = some stDenied := by
  unfold mciCheck
  simp [hs, hop]

variable (hs : getSession e c.box ≠ none)
include hs

/-- With a session the checks begin with the opcode and its fields. -/
theorem mciCheck_of_session : mciCheck e c l =
    if !l.known then some stUnsupported
    else if !(permits e c.box l.perm && pairServes (boxPair e c.box) c.op) then some stDenied
    else if !l.valid then some stBadArg
    else if mciBusy e c l.ticketed then some stBusy
    else if l.ticketed && tagTaken e c.box c.tag then some stBadArg
    else none := by
  have hsome : (getSession e c.box).isNone = false := by
    cases h : getSession e c.box with
    | none => exact absurd h hs
    | some => rfl
  unfold mciCheck
  simp only [hsome, Bool.false_and, Bool.false_eq_true, if_false]

theorem mciCheck_unknown (h : l.known = false) : mciCheck e c l = some stUnsupported := by
  rw [mciCheck_of_session hs, h]
  rfl

variable (hk : l.known = true)
include hk

theorem mciCheck_denied (h : permits e c.box l.perm = false ∨ pairServes (boxPair e c.box) c.op = false) :
    mciCheck e c l = some stDenied := by
  have hno : (permits e c.box l.perm && pairServes (boxPair e c.box) c.op) = false := by rcases h with h | h <;> simp [h]
  rw [mciCheck_of_session hs, hk, hno]
  rfl

variable (hperm : permits e c.box l.perm = true) (hserve : pairServes (boxPair e c.box) c.op = true)
include hperm hserve

theorem mciCheck_invalid (h : l.valid = false) : mciCheck e c l = some stBadArg := by
  rw [mciCheck_of_session hs, hk, hperm, hserve, h]
  rfl

variable (hv : l.valid = true)
include hv

theorem mciCheck_busy (h : mciBusy e c l.ticketed = true) : mciCheck e c l = some stBusy := by
  rw [mciCheck_of_session hs, hk, hperm, hserve, hv, h]
  rfl

variable (hb : mciBusy e c l.ticketed = false)
include hb

theorem mciCheck_tag : mciCheck e c l = if l.ticketed && tagTaken e c.box c.tag then some stBadArg else none := by
  rw [mciCheck_of_session hs, hk, hperm, hserve, hv, hb]
  rfl

end

/-- R505: the checks one after the other. -/
theorem checked_answers (e : Engine) (c : Cmd) (l : Layout) (f : Engine → Engine) :
    (getSession e c.box = none → c.op ≠ 0 → checked e c l f = reply e c stDenied 0 []) ∧
    (getSession e c.box ≠ none → (l.known = false → checked e c l f = reply e c stUnsupported 0 []) ∧
      (l.known = true → permits e c.box l.perm = false ∨ pairServes (boxPair e c.box) c.op = false →
        checked e c l f = reply e c stDenied 0 []) ∧
      (l.known = true → permits e c.box l.perm = true → pairServes (boxPair e c.box) c.op = true →
        (l.valid = false → checked e c l f = reply e c stBadArg 0 []) ∧
        (l.valid = true → mciBusy e c l.ticketed = true → checked e c l f = reply e c stBusy 0 []) ∧
        (l.valid = true → mciBusy e c l.ticketed = false →
          (l.ticketed = true → tagTaken e c.box c.tag = true → checked e c l f = reply e c stBadArg 0 []) ∧
          (l.ticketed = false ∨ tagTaken e c.box c.tag = false → checked e c l f = f e)))) := by
  refine ⟨fun hs hop => checked_of_some (mciCheck_of_no_session hs hop) f, fun hs =>
    ⟨fun h => checked_of_some (mciCheck_unknown hs h) f, fun hk h => checked_of_some (mciCheck_denied hs hk h) f,
    fun hk hp hq => ⟨fun h => checked_of_some (mciCheck_invalid hs hk hp hq h) f,
      fun hv h => checked_of_some (mciCheck_busy hs hk hp hq hv h) f, fun hv hb => ⟨fun ht hg => ?_, fun h => ?_⟩⟩⟩⟩
  · exact checked_of_some ((mciCheck_tag hs hk hp hq hv hb).trans (by rw [ht, hg]; rfl)) f
  · exact checked_of_none ((mciCheck_tag hs hk hp hq hv hb).trans (by rcases h with h | h <;> simp [h])) f

/-! ## Sessions and ABORT (R507–R509, R513) -/

section
variable {e : Engine} {c : Cmd}

theorem mciHello_opens (hop : c.op = 0) (hchk : mciCheck e c ⟨.any, false, named c [0xFFFFFFFF], c.len == 2⟩ = none)
    (hle : c.f 1 15 0 ≤ c.f 1 31 16) (hver : max (c.f 1 15 0) 0x200 ≤ min (c.f 1 31 16) 0x203)
    (hidle : boxTickets e c.box = []) : mciHello e c =
      reply (putSession e c.box (some ⟨min (c.f 1 31 16) 0x203, [], []⟩)) c stOk (min (c.f 1 31 16) 0x203)
        [word (features e (min (c.f 1 31 16) 0x203)), word (ownSvn e (boxPair e c.box)), reg e GC_ID] := by
  unfold mciHello
  rw [if_neg (by simp [hop]), checked_of_none hchk]
  simp only [if_neg (Nat.not_lt.mpr hle), if_neg (Nat.not_lt.mpr hver), hidle, List.isEmpty_nil, Bool.not_true,
    Bool.false_eq_true, if_false]

theorem mciBye_ends (hchk : mciCheck e c ⟨.any, false, named c [], c.len == 1⟩ = none) (hidle : boxTickets e c.box = []) :
    mciBye e c = reply (putSession e c.box none) c stOk 0 [] := by
  unfold mciBye
  rw [checked_of_none hchk]
  simp only [hidle, List.isEmpty_nil, Bool.not_true, Bool.false_eq_true, if_false]

theorem mciAbort_one {t : Ticket}
    (hchk : mciCheck e c ⟨.any, false, named c [if sessionVer e c.box ≥ 0x203 then 0x1FF else 0xFF], c.len == 2⟩ = none)
    (hall : (c.w 1).getLsbD 8 = false) (ht : (boxTickets e c.box).find? (fun t => t.tag == c.f 1 7 0) = some t) :
    mciAbort e c = if (abortTicket e t).isSome then abortNow (reply e c stOk 1 []) t else reply e c stTooLate 0 [] := by
  unfold mciAbort
  simp only [checked_of_none hchk, hall, Bool.false_eq_true, if_false, ht]

end

/-! ## Staged configuration (R516, R517, R519) -/

section
variable {e : Engine} {c : Cmd}

/-- The layout of a CONFIG_STAGE in the session's version. -/
def stageLayout (e : Engine) (c : Cmd) : Layout :=
  ⟨.admin, false, c.w 1 &&& ~~~1 == 0 && (named c []) && (List.range ((c.len - 2) / 2)).all fun k =>
    itemKnown (sessionVer e c.box) (c.f (2 * k + 2) 15 0) && c.f (2 * k + 2) 31 24 == 0,
    decide (c.len ≥ 2) && decide (c.len ≤ 64) && c.len % 2 == 0 && (stageItems c).all itemOk⟩

/-- The buffer with the items of a CONFIG_STAGE. -/
def stagedBuffer (e : Engine) (c : Cmd) : List (Nat × Nat × Word) :=
  (stageItems c).foldl stagePut (if (c.w 1).getLsbD 0 then [] else getStage e c.box)

theorem mciStage_eq (h : mciCheck e c (stageLayout e c) = none) : mciStage e c =
    if (stagedBuffer e c).length > 128 then reply e c stBadArg 0 []
    else reply (putStage e c.box (stagedBuffer e c)) c stOk (stageItems c).length [] := by
  unfold mciStage
  exact checked_of_none h _

/-- The layout of a CONFIG_READ in the session's version. -/
def readLayout (e : Engine) (c : Cmd) : Layout :=
  ⟨.any, false, named c [0x01FFFFFF] && itemKnown (sessionVer e c.box) (c.f 1 15 0),
    c.len == 2 && (c.f 1 15 0 == 0xFFFF && c.f 1 23 16 == 0 ||
      ((itemRoute (c.f 1 15 0)).isSome && scopeOk (c.f 1 15 0) (c.f 1 23 16)))⟩

/-- The generation that CONFIG_READ answers for one channel, or for an item of the engine. -/
def oneGen (e : Engine) (i sc : Nat) : Nat :=
  if itemScope i = .chan then rd e (CH_CFG_GEN_GEN sc) else rd e GC_CFG_GEN_GEN

theorem readChan_one {sc : Nat} (h : sc ≠ 0xFF) : readChan e sc = some sc := if_pos h

theorem scopeGen_one (i : Nat) {sc : Nat} (h : sc ≠ 0xFF) : scopeGen e i sc = oneGen e i sc := by
  unfold scopeGen oneGen
  rw [readChan_one h]
  cases itemScope i <;> simp

variable (hchk : mciCheck e c (readLayout e c) = none)
include hchk

theorem mciRead_value (hsc : c.f 1 23 16 ≠ 0xFF) (hst : (c.w 1).getLsbD 24 = false) (hi : c.f 1 15 0 ≠ 0xFFFF) :
    mciRead e c = reply e c stOk (oneGen e (c.f 1 15 0) (c.f 1 23 16)) [itemValue e (c.f 1 15 0) (c.f 1 23 16)] := by
  unfold mciRead
  refine (checked_of_none hchk _).trans ?_
  simp only [if_neg hsc, hst, Bool.false_eq_true, if_false, if_neg hi, readChan_one hsc, scopeGen_one _ hsc]

theorem mciRead_staged {v : Word} (hsc : c.f 1 23 16 ≠ 0xFF) (hst : (c.w 1).getLsbD 24 = true)
    (hv : stagedValue e c.box (c.f 1 15 0) (c.f 1 23 16) = some v) :
    mciRead e c = reply e c stOk (oneGen e (c.f 1 15 0) (c.f 1 23 16)) [v] := by
  unfold mciRead
  refine (checked_of_none hchk _).trans ?_
  simp only [if_neg hsc, hst, if_true, hv, scopeGen_one _ hsc]

/-- ITEM 0xFFFF has the SCOPE 0. -/
theorem scope_of_all (hi : c.f 1 15 0 = 0xFFFF) : c.f 1 23 16 = 0 := by
  have hv := valid_of_check hchk
  have hroute : itemRoute 0xFFFF = none := by decide
  simpa [readLayout, hi, hroute] using And.right (by simpa [readLayout, hi, hroute] using hv)

theorem mciRead_generations (hi : c.f 1 15 0 = 0xFFFF) (hst : (c.w 1).getLsbD 24 = false) : mciRead e c =
    reply e c stOk (rd e GC_CFG_GEN_GEN) ((List.range 16).map fun n => word (rd e (CH_CFG_GEN_GEN n))) := by
  have hsc : c.f 1 23 16 ≠ 0xFF := by rw [scope_of_all hchk hi]; decide
  unfold mciRead
  refine (checked_of_none hchk _).trans ?_
  simp only [if_neg hsc, hst, Bool.false_eq_true, if_false, if_pos hi]

section
variable (hsc : c.f 1 23 16 = 0xFF) (hst : (c.w 1).getLsbD 24 = false) (hi : c.f 1 15 0 ≠ 0xFFFF)
include hsc hst hi

theorem mciRead_one_of_all {n : Nat} (h : readChan e 0xFF = some n) : mciRead e c =
    reply (drawFree e) c stOk (scopeGen e (c.f 1 15 0) 0xFF) [itemValue (drawFree e) (c.f 1 15 0) n] := by
  unfold mciRead
  refine (checked_of_none hchk _).trans ?_
  simp only [hsc, if_true, hst, Bool.false_eq_true, if_false, if_neg hi, h]

theorem mciRead_none_of_all (h : readChan e 0xFF = none) : mciRead e c = reply (drawFree e) c stBadArg 0 [] := by
  unfold mciRead
  refine (checked_of_none hchk _).trans ?_
  simp only [hsc, if_true, hst, Bool.false_eq_true, if_false, if_neg hi, h]

end

end

/-- A commit whose checks pass opens its ticket; it starts, or ends with what R519 or R101 refuses. -/
theorem mciCommit_eq {e : Engine} {c : Cmd}
    (hchk : mciCheck (putStage e c.box []) c ⟨.admin, true, named c [1], c.len == 2⟩ = none) :
    let items := getStage e c.box
    let o := withTicket (putStage e c.box []) c
    (commitCheck o.1 items ((c.w 1).getLsbD 0) = none → quiesceGeom o.1 items = none →
      mciCommit e c = startCommit o.1 o.2 items ((c.w 1).getLsbD 0)) ∧
    (∀ n, commitCheck o.1 items ((c.w 1).getLsbD 0) = none → quiesceGeom o.1 items = some n → mciCommit e c = finish
      (sqSet o.1 (CH_TRN_STATUS n) [(CH_TRN_STATUS_GEOM_MISMATCH n, 1)]) o.2 stBadArg 0
      [rejectWord (items.find? fun x => between x.1 0x80 0xAB)]) ∧
    (∀ st x, commitCheck o.1 items ((c.w 1).getLsbD 0) = some (st, x) →
      mciCommit e c = finish o.1 o.2 st 0 [rejectWord x]) := by
  have hrun := fun f => checked_of_none hchk f
  unfold mciCommit
  refine ⟨fun h hg => (hrun _).trans ?_, fun n h hg => (hrun _).trans ?_, fun st x h => (hrun _).trans ?_⟩
  all_goals
    unfold ticketed
    unfold withTicket at *
    simp only [h]
  · simp only [hg]
  · simp only [hg]

end Sys2Proof.Machine

/-! # Sessions and staged configuration of Mulum (R505–R519) -/

namespace Sys2Proof.Machine

/-- Settles O42: the checks of R505, and each command from the message that it takes. -/
theorem mulumSessionAndConfigCommands : Obligations.MulumSessionAndConfigCommands := by
  refine ⟨checked_answers, fun s m => ⟨?_, ?_, ?_, ?_, ?_, ?_⟩⟩
  · exact fun has hchk hle hver hidle => run_of_eq
      ((takeCmd_of_holds _ _ has rfl).trans (mciHello_opens has.op_eq hchk hle hver hidle))
  · exact fun has hchk hidle => run_of_eq ((takeCmd_of_holds _ _ has rfl).trans (mciBye_ends hchk hidle))
  · intro t has hchk hall ht
    have habort := (takeCmd_of_holds (· == 0x0002) mciAbort has rfl).trans (mciAbort_one hchk hall ht)
    exact ⟨fun h => run_of_eq (habort.trans (if_pos (Option.isSome_iff_ne_none.mpr h))),
      fun h => run_of_eq (habort.trans (if_neg (by simp [h])))⟩
  · intro has b hchk
    have hstage := (takeCmd_of_holds (· == 0x0100) mciStage has rfl).trans (mciStage_eq hchk)
    exact ⟨fun h => run_of_eq (hstage.trans (if_neg (Nat.not_lt.mpr h))), fun h => run_of_eq (hstage.trans (if_pos h))⟩
  · intro has i sc hchk gen
    have hread := takeCmd_of_holds (· == 0x0102) mciRead has rfl
    refine ⟨fun hsc hst hi => run_of_eq (hread.trans (mciRead_value hchk hsc hst hi)),
      fun v hsc hst hv => run_of_eq (hread.trans (mciRead_staged hchk hsc hst hv)),
      fun hi hst => run_of_eq (hread.trans (mciRead_generations hchk hi hst)), fun hsc hst hi => run_of_eq (hread.trans ?_)⟩
    cases h : readChan (tookMessage s.fresh m) 0xFF with
    | some n => exact mciRead_one_of_all hchk hsc hst hi h
    | none => exact mciRead_none_of_all hchk hsc hst hi h
  · intro has items q p hchk o
    have htake := takeCmd_of_holds (· == 0x0101) mciCommit has rfl
    obtain ⟨hstart, hgeom, hfail⟩ := mciCommit_eq hchk
    exact ⟨fun h hg => run_of_eq (htake.trans (hstart h hg)), fun n h hg => run_of_eq (htake.trans (hgeom n h hg)),
      fun st x h => run_of_eq (htake.trans (hfail st x h))⟩

end Sys2Proof.Machine

/-! # The maintenance, power, fault and firmware commands of Mulum (R455, R462, R516, R524, R525, R554) -/

namespace Sys2Proof.Machine

/-! ## What a ticket's opening leaves -/

theorem withTicket_frame (e : Engine) (c : Cmd) : (withTicket e c).1.regs = e.regs ∧ (withTicket e c).1.flt = e.flt ∧
    (withTicket e c).1.boot = e.boot ∧ (withTicket e c).1.mci.verify = e.mci.verify := by
  unfold withTicket openTicket
  dsimp only
  split <;> exact ⟨rfl, rfl, rfl, rfl⟩

theorem isSafe_reply (e : Engine) (c : Cmd) (st res : Nat) (body : List Word) : isSafe (reply e c st res body) = isSafe e := by
  unfold reply answer storeRec isSafe
  exact on_congr (traceRec_regs ..) _

/-- A field of two bits is 0 where both of its bits are. -/
theorem wordField_bits_of_zero {w : Word} {lo : Nat} (h : wordField w (lo + 1) lo = 0) :
    wordField w lo lo = 0 ∧ wordField w (lo + 1) (lo + 1) = 0 := by
  have hbit : ∀ j, (wordField w (lo + 1) lo).testBit j = false := fun j => by rw [h, Nat.zero_testBit]
  constructor <;> refine Nat.eq_of_testBit_eq fun j => ?_
  · have := hbit j
    rw [testBit_wordField] at this
    rw [testBit_wordField, Nat.zero_testBit]
    rcases j with _ | j
    · simpa using this
    · simp
  · have := hbit (j + 1)
    rw [testBit_wordField] at this
    rw [testBit_wordField, Nat.zero_testBit]
    rcases j with _ | j
    · have hlt : 0 + 1 < lo + 1 + 1 - lo := by omega
      simpa [hlt, Nat.add_comm 1 lo] using this
    · simp

section
variable {e : Engine} {c : Cmd}

/-! ## RETRAIN -/

/-- The layout of a RETRAIN. -/
def retrainLayout (c : Cmd) : Layout :=
  ⟨.admin, true, named c [0x07FF0F3F] && c.f 1 5 4 != 3, c.len == 2 && c.f 1 5 4 != 0⟩

section
variable (hchk : mciCheck e c (retrainLayout c) = none) (hserv : inService (withTicket e c).1 (c.f 1 3 0) = true)
  (hbusy : on (withTicket e c).1 (CH_TRN_STATE_BUSY (c.f 1 3 0)) = false)
  (hno : ∀ r ∈ (withTicket e c).1.mci.offRuns, r.ch ≠ c.f 1 3 0)
include hchk hserv hbusy hno

theorem mciRetrain_online (hmode : c.f 1 5 4 = 1) (hsteps : c.f 1 26 16 &&& onlineSteps = c.f 1 26 16) :
    mciRetrain e c = beginRun (withTicket e c).1 (c.f 1 3 0) 1 (c.f 1 11 8) (c.f 1 26 16) (some (withTicket e c).2) := by
  have hany : ((withTicket e c).1.mci.offRuns.any fun r => r.ch == c.f 1 3 0) = false := by simpa using hno
  unfold mciRetrain
  refine (checked_ticketed hchk _).trans ?_
  simp [hserv, hbusy, hany, hmode, hsteps]

/-- The run of an offline RETRAIN, before its first look. -/
def offRunOf (e : Engine) (c : Cmd) : OffRun := ⟨c.f 1 3 0, c.f 1 11 8, c.f 1 26 16, (withTicket e c).2, false, 0⟩

theorem mciRetrain_offline (hmode : c.f 1 5 4 = 2) (hok : offlineOk (withTicket e c).1 (c.f 1 3 0) = true)
    (hcommit : (withTicket e c).1.mci.commit = none) : mciRetrain e c =
      if (withTicket e c).1.mci.offRuns.isEmpty then
        offlineDrain (mapMci (withTicket e c).1 fun m => { m with offRuns := m.offRuns ++ [offRunOf e c] })
      else mapMci (withTicket e c).1 fun m => { m with offRuns := m.offRuns ++ [offRunOf e c] } := by
  have hany : ((withTicket e c).1.mci.offRuns.any fun r => r.ch == c.f 1 3 0) = false := by simpa using hno
  unfold mciRetrain
  refine (checked_ticketed hchk _).trans ?_
  simp [hserv, hbusy, hany, hmode, hok, hcommit, offRunOf]

end

/-! R516, R520: a look at the channel `r.ch` of the first offline RETRAIN, in the engine `x` whose ports are throttled. -/
section
variable {r : OffRun} {rest : List OffRun} {x : Engine} (hr : e.mci.offRuns = r :: rest) (hruns : pairRuns e 0 = true)
  (hsafe : isSafe e = false) (hx : (if r.throttled then e else throttleAll e true) = x)
include hr hruns hsafe hx

theorem offlineDrain_drained (hd : rollDrained x r.ch = true) : offlineDrain e =
    let d := mapMci (throttleAll x false) fun m => { m with offRuns := rest }
    if offlineOk d r.ch then startOffline d r.ch r.pranks r.steps r.ticket else finish d r.ticket stBusy 0 [] := by
  unfold offlineDrain
  simp only [hr, hruns, hsafe, Bool.not_true, Bool.or_self, Bool.false_eq_true, if_false, hx, hd, if_true]

theorem offlineDrain_first (ht : r.throttled = false) (hd : rollDrained x r.ch = false) : offlineDrain e =
    mapMci x fun m => { m with offRuns := { r with throttled := true } :: rest } := by
  unfold offlineDrain
  simp only [hr, hruns, hsafe, Bool.not_true, Bool.or_self, Bool.false_eq_true, if_false, hx, hd]
  simp only [ht, Bool.not_false, if_true]

theorem offlineDrain_again (ht : r.throttled = true) (hd : rollDrained x r.ch = false) : offlineDrain e =
    let y := throttleAll (waitUs x 20) false
    if r.tries ≥ 2 then finish (mapMci y fun m => { m with offRuns := rest }) r.ticket stBusy 0 []
    else waitUs (mapMci y fun m => { m with
      offRuns := { r with throttled := false, tries := r.tries + 1 } :: rest }) 100 := by
  unfold offlineDrain
  simp only [hr, hruns, hsafe, Bool.not_true, Bool.or_self, Bool.false_eq_true, if_false, hx, hd]
  simp only [ht, Bool.not_true, Bool.false_eq_true, if_false]

end

/-! ## SPARE, PPR, SCRUB, PWR_REQ -/

theorem mciSpare_starts (hchk : mciCheck e c ⟨.admin, true, named c [0xF1F], c.len == 2⟩ = none)
    (hch : c.f 1 3 0 < 2 ^ (gcfg e).c) (hrank : c.f 1 4 4 = 1 → c.f 1 11 8 < 2 ^ (gcfg e).k)
    (hcan : canSpare (withTicket e c).1 (c.f 1 4 4) = true) (hcommit : (withTicket e c).1.mci.commit = none) :
    mciSpare e c = declare (startSpare (withTicket e c).1 (c.f 1 3 0) (c.f 1 11 8) (c.f 1 4 4)) (withTicket e c).2 := by
  have hbad : ¬ (c.f 1 3 0 ≥ 2 ^ (gcfg e).c ∨ (c.f 1 4 4 = 1 ∧ c.f 1 11 8 ≥ 2 ^ (gcfg e).k) ∨
      (!canSpare (withTicket e c).1 (c.f 1 4 4)) = true) := by
    rintro (h | ⟨h, h'⟩ | h)
    · omega
    · exact absurd (hrank h) (by omega)
    · simp [hcan] at h
  unfold mciSpare
  refine (checked_ticketed hchk _).trans ((if_neg hbad).trans ?_)
  simp [hcommit]

theorem mciPpr_starts (hchk : mciCheck e c ⟨.admin, true, named c [0x1FFF7F, 0x3FFFF], c.len == 3⟩ = none)
    (hch : c.f 1 3 0 < 2 ^ (gcfg e).c) (hrank : c.f 1 15 12 < 2 ^ (gcfg e).k) (hrow : c.f 2 17 0 < 2 ^ (gcfg e).r)
    (hall : c.f 1 6 6 = 1) (hsoft : c.f 1 5 5 = 0) (hfree : (getChan (withTicket e c).1 (c.f 1 3 0)).repair = none) :
    mciPpr e c true true = syncLines (startRepair (withTicket e c).1 (c.f 1 3 0)
      ⟨c.f 1 3 0, c.f 1 4 4, c.f 1 15 12, c.f 1 18 16, c.f 1 20 19, c.f 2 17 0, 0⟩ none false (some (withTicket e c).2))
      (c.f 1 3 0) := by
  unfold mciPpr
  refine (checked_ticketed hchk _).trans ?_
  simp [Nat.not_le.mpr hch, Nat.not_le.mpr hrank, Nat.not_le.mpr hrow, hall, hsoft, hfree]

theorem mciScrub_starts {a b : Nat} (hchk : mciCheck e c ⟨.admin, true,
      named c [0xFFFFFFFF, 0xFFFFFFFF, 0xFFFFFFFF, 0xFFFFFFFF], c.len == 5⟩ = none)
    (hrange : rangeOf c.words 1 (dumpBase (gcfg (withTicket e c).1) * sliceLines (gcfg (withTicket e c).1)) = some (a, b))
    (hgrist : on (withTicket e c).1 GC_GRIST_CTRL_GRIST_EN = true) : mciScrub e c =
      (List.range (2 ^ (gcfg (withTicket e c).1).c)).foldl (fun e' n =>
        if (passNext e' n ⟨a, a, b, 0, (withTicket e c).2⟩).isSome then
          syncLines (putChan e' n { getChan e' n with
            pass := (getChan e' n).pass ++ [⟨a, a, b, 0, (withTicket e c).2⟩] }) n
        else e') (withTicket e c).1 := by
  unfold mciScrub
  refine (checked_ticketed hchk _).trans ?_
  simp only [hrange, hgrist, Bool.not_true, Bool.false_eq_true, if_false]

theorem mciPower_requests (hchk : mciCheck e c ⟨.power, true, named c [0x1F] && decide (c.f 1 2 0 ≤ 4), c.len == 2⟩ = none)
    (hplain : c.f 1 4 3 = 0) (hserv : on (withTicket e c).1 PWR_CTRL_IN_SERVICE = true)
    (hsafe : isSafe (withTicket e c).1 = false) (ht : 0 < c.f 1 2 0) : mciPower e c =
      powerRequest (fwWrite (withTicket e c).1 PWR_CMD (word (0 * 2 ^ 30 + c.f 1 2 0))) (c.f 1 2 0)
        (some (withTicket e c).2) := by
  have hbits : c.f 1 3 3 = 0 ∧ c.f 1 4 4 = 0 := wordField_bits_of_zero (lo := 3) hplain
  have ht0 : c.f 1 2 0 ≠ 0 := by omega
  unfold mciPower
  refine (checked_ticketed hchk _).trans ?_
  simp [hbits, hserv, hsafe, ht0]

/-! ## HOTLIST_READ, DUMP_READ, FAULT_CLEAR -/

theorem mciHotlist_reads (hchk : mciCheck e c ⟨.reader, false, named c [0xFFFFFFFF, 0x1FFF, 0xFFFFFF], c.len == 4⟩ = none)
    (hsort : on e TEL_HOT_STATE_SORTED = true) (hep : (c.w 1).toNat = e.tel.snapEpoch) (hlt : e.tel.snapEpoch < 2 ^ 32)
    (hstart : c.f 2 12 0 ≤ e.tel.snap.length) :
    let f := fun (x : Fld) => wordField e.tel.snapCtrl x.hi x.lo
    mciHotlist e c = reply e c stOk (e.tel.snap.length + rd e TEL_HOT_STATE_PARTIAL * 2 ^ 13 +
        f TEL_CTRL_PAGE_SZ * 2 ^ 14 + f TEL_CTRL_COUNT_MODE * 2 ^ 15 + f TEL_CTRL_SHIFT * 2 ^ 17)
      ([word e.tel.snapEpoch, word (min e.tel.snapSamples (2 ^ 32 - 1))] ++
        (((e.tel.snap.drop (c.f 2 12 0)).filter fun h => decide (h.count ≥ c.f 3 23 0)).take 20).flatMap hotWords) := by
  intro f
  have hnow : ¬ ((c.w 1).toNat ≠ 2 ^ 32 - 1 ∧ (c.w 1).toNat ≠ e.tel.snapEpoch % 2 ^ 32) := by
    rw [hep, Nat.mod_eq_of_lt hlt]
    simp
  unfold mciHotlist
  refine (checked_of_none hchk _).trans ?_
  simp only [hsort, Bool.not_true, Bool.false_eq_true, if_false, if_neg hnow, if_neg (Nat.not_lt.mpr hstart)]
  rfl

theorem mciDumpRead_reads {x : Dump} (hchk : mciCheck e c ⟨.admin, false, named c [0xFFFF, 0xFFFFFFFF],
      c.len == 3 && (c.w 2).toNat % 4 == 0⟩ = none) (hid : 0 < c.f 1 15 0) (h1 : rd e FLT_SAFE_PHASE ≠ 1)
    (h2 : rd e FLT_SAFE_PHASE ≠ 2) (hx : findDump e (c.f 1 15 0) = some x) (hoff : (c.w 2).toNat < x.bytes.length) :
    mciDumpRead e c = reply e c stOk x.id
      ([word x.bytes.length, word (c.w 2).toNat] ++ bytesWords 60 ((x.bytes.drop (c.w 2).toNat).take 240)) := by
  unfold mciDumpRead
  refine (checked_of_none hchk _).trans ?_
  simp only [if_neg (Nat.ne_of_gt hid), h1, h2, or_self, if_false, hx, if_neg (Nat.not_le.mpr hoff)]

/-- FAULT_CLEAR, where the safe state's cause lets it end and its history stays. -/
theorem mciFaultClear_eq {d : Dram} (hchk : mciCheck e c ⟨.admin, false, named c [3], c.len == 2⟩ = none)
    (h2 : rd e FLT_SAFE_NO_AUTO ≠ 2) (h4 : rd e FLT_SAFE_NO_AUTO ≠ 4) (hkeep : c.f 1 1 1 = 0)
    (hdump : isSafe e = false ∨ on e FLT_SAFE_DUMP_DONE = true) :
    let r := reply { e with flt := { e.flt with tunHeld := false } } c stOk 0 []
    mciFaultClear d e c = if isSafe r ∧ c.f 1 0 0 = 1 then recover d r false else r := by
  intro r
  have hready : ¬ (isSafe e = true ∧ (!on e FLT_SAFE_DUMP_DONE) = true) := by rcases hdump with h | h <;> simp [h]
  have hk : ¬ c.f 1 1 1 = 1 := by omega
  unfold mciFaultClear
  refine (checked_of_none hchk _).trans ?_
  simp only [h2, h4, or_self, if_false, if_neg hready, if_neg hk]
  rfl

/-! ## FW_STAGE and FW_ACTIVATE -/

/-- The layout of a FW_STAGE. -/
def fwStageLayout (c : Cmd) : Layout :=
  ⟨if c.f 1 1 0 = 1 then .priv else .admin, (c.w 1).getLsbD 31, !(c.w 0).getLsbD 31 && c.w 1 &&& 0x7FFFFFFC == 0,
    decide (3 ≤ c.len) && decide (c.len ≤ 64) && c.f 1 1 0 != 0 && c.f 1 1 0 != 3⟩

section
variable {st : FwStage} (hchk : mciCheck e c (fwStageLayout c) = none) (htun : e.flt.tunHeld = false)
  (hver : e.mci.verify = none) (hst : stageChunk e.boot.stageBuf (c.f 1 1 0) (c.w 2).toNat
    (260 + payloadMax (c.f 1 1 0) + 3) (wordBytes ((c.words.take c.len).drop 3)) = some st)
include hchk htun hver hst

theorem mciFwStage_chunk (hfin : (c.w 1).getLsbD 31 = false) : mciFwStage e c =
    reply (putFwStage { e with flt := { e.flt with tun := none } } (some st)) c stOk 0 [] := by
  unfold mciFwStage
  refine (checked_of_none hchk _).trans ?_
  simp only [hfin, Bool.false_eq_true, if_false, htun, hver, Option.isSome_none, Bool.or_self, hst]

theorem mciFwStage_last (hfin : (c.w 1).getLsbD 31 = true) : mciFwStage e c =
    mapMci (putFwStage { (withTicket e c).1 with flt := { (withTicket e c).1.flt with tun := none } } (some st))
      fun x => { x with verify := some (withTicket e c).2 } := by
  obtain ⟨-, hflt, hboot, hv⟩ := withTicket_frame e c
  have htun' : (withTicket e c).1.flt.tunHeld = false := by rw [hflt, htun]
  have hver' : (withTicket e c).1.mci.verify = none := by rw [hv, hver]
  rw [← hboot] at hst
  unfold mciFwStage
  refine (checked_of_none hchk _).trans ?_
  unfold withTicket at *
  simp only [hfin, if_true, htun', hver', Option.isSome_none, Bool.or_self, Bool.false_eq_true, if_false, hst]

end

section
variable {id : Nat} {t : Ticket} {st : FwStage} (hver : e.mci.verify = some id) (ht : findTicket e id = some t)
  (hst : e.boot.stageBuf = some st) (hruns : pairRuns e 0 = true)
include hver ht hst hruns

theorem stageVerify_goes_on (h : t.progress < (stageImage st).length) :
    stageVerify e = setProgress e id (min (stageImage st).length (t.progress + 2 ^ 16)) := by
  unfold stageVerify
  simp only [hver, ht, hst, hruns, Bool.not_true, Bool.false_eq_true, if_false, if_pos h]

theorem stageVerify_ends (h : (stageImage st).length ≤ t.progress) :
    stageVerify e = stageEnd (mapMci e fun y => { y with verify := none }) id st := by
  unfold stageVerify
  simp only [hver, ht, hst, hruns, Bool.not_true, Bool.false_eq_true, if_false, if_neg (Nat.not_lt.mpr h)]

end

theorem mciFwActivate_runs {b : List Byte} {v : Nat} (hchk : mciCheck e c
      ⟨if c.f 1 1 0 = 1 then .priv else .admin, true, named c [3], c.len == 2 && c.f 1 1 0 != 0⟩ = none)
    (hcommit : (withTicket e c).1.mci.commit = none)
    (hbuf : (withTicket e c).1.boot.stageBuf = some ⟨c.f 1 1 0, b, some v⟩)
    (hserved : sessionsServed (withTicket e c).1 (kindPair (c.f 1 1 0))
      ((stageImage ⟨c.f 1 1 0, b, some v⟩).drop 260) = true) :
    let a := activateImage (declare (withTicket e c).1 (withTicket e c).2) (c.f 1 1 0) v
      ((stageImage ⟨c.f 1 1 0, b, some v⟩).drop 260)
    mciFwActivate e c = finish a (withTicket e c).2 stOk 0 [word (ownSvn a (kindPair (c.f 1 1 0)))] := by
  intro a
  unfold mciFwActivate
  refine (checked_ticketed hchk _).trans ?_
  simp only [hcommit, Option.isSome_none, Bool.false_eq_true, if_false, hbuf, ne_eq, not_true_eq_false, hserved,
    Bool.not_true]
  rfl

end

/-- Settles O43: each command from the message that it takes. -/
theorem mulumMaintenanceCommands : Obligations.MulumMaintenanceCommands := by
  intro s m e c has' o n
  refine ⟨fun has hchk hserv hbusy hno => ⟨fun hmode hsteps => ?_, fun hmode hok hcommit => ?_⟩, ?_, ?_, ?_, ?_, ?_, ?_, ?_,
    ?_, ?_, ?_⟩
  · exact run_of_eq ((takeCmd_of_holds _ _ has rfl).trans (mciRetrain_online hchk hserv hbusy hno hmode hsteps))
  · have hrun := (takeCmd_of_holds (· == 0x0200) mciRetrain has rfl).trans
      (mciRetrain_offline hchk hserv hbusy hno hmode hok hcommit)
    intro r put w t d
    refine ⟨fun hne => run_of_eq (hrun.trans (if_neg (by simpa using hne))), fun hnil hruns hsafe => ?_⟩
    have hw : (mapMci o.1 fun m => { m with offRuns := m.offRuns ++ [r] }) = w := by
      show _ = put [r] o.1
      simp only [put, mapMci, hnil, List.nil_append]
    have hdrain := hrun.trans ((if_pos (by rw [hnil]; rfl)).trans (congrArg offlineDrain hw))
    have hruns' : w.mci.offRuns = [r] := rfl
    have ht : (if r.throttled then w else throttleAll w true) = t := if_neg Bool.false_ne_true
    exact ⟨fun hd hok' => run_of_eq (hdrain.trans ((offlineDrain_drained hruns' hruns hsafe ht hd).trans (if_pos hok'))),
      fun hd => run_of_eq (hdrain.trans (offlineDrain_first hruns' hruns hsafe ht rfl hd))⟩
  · exact fun has hchk hch hrank hcan hcommit => run_of_eq
      ((takeCmd_of_holds _ _ has rfl).trans (mciSpare_starts hchk hch hrank hcan hcommit))
  · exact fun has hchk hch hrank hrow hall hsoft hfree => run_of_eq
      ((takeCmd_of_holds _ _ has rfl).trans (mciPpr_starts hchk hch hrank hrow hall hsoft hfree))
  · exact fun a b has hchk hrange hgrist => run_of_eq
      ((takeCmd_of_holds _ _ has rfl).trans (mciScrub_starts hchk hrange hgrist))
  · exact fun has hchk hplain hserv hsafe ht => run_of_eq
      ((takeCmd_of_holds _ _ has rfl).trans (mciPower_requests hchk hplain hserv hsafe ht))
  · exact fun has hchk hsort hep hlt hstart => run_of_eq
      ((takeCmd_of_holds _ _ has rfl).trans (mciHotlist_reads hchk hsort hep hlt hstart))
  · exact fun x has hchk hid h1 h2 hx hoff => run_of_eq
      ((takeCmd_of_holds _ _ has rfl).trans (mciDumpRead_reads hchk hid h1 h2 hx hoff))
  · intro has hchk h2 h4 hkeep r
    have hclear := fun hdump => (takeCmd_of_holds (· == 0x0601) (mciFaultClear s.dram) has rfl).trans
      (mciFaultClear_eq hchk h2 h4 hkeep hdump)
    refine ⟨fun hsafe => run_of_eq ((hclear (.inl hsafe)).trans (if_neg ?_)),
      fun hsafe hr hdump hclr => run_of_eq ((hclear (.inr hdump)).trans (if_pos ⟨hr, hclr⟩))⟩
    rw [isSafe_reply]
    exact fun h => absurd h.1 (ne_true_of_eq_false hsafe)
  · intro st has b fin hchk htun hver hst put
    have htake := takeCmd_of_holds (· == 0x0800) mciFwStage has rfl
    exact ⟨fun hfin => run_of_eq (htake.trans (mciFwStage_chunk hchk htun hver hst hfin)),
      fun hfin => run_of_eq (htake.trans (mciFwStage_last hchk htun hver hst hfin))⟩
  · exact fun x id t st hver ht hst hruns => ⟨stageVerify_goes_on hver ht hst hruns, stageVerify_ends hver ht hst hruns⟩
  · exact fun b v has hchk hcommit hbuf hserved => run_of_eq
      ((takeCmd_of_holds _ _ has rfl).trans (mciFwActivate_runs hchk hcommit hbuf hserved))

end Sys2Proof.Machine

/-! # The security commands of Mulum (R315–R318, R320–R323, R350–R353, R510) -/

namespace Sys2Proof.Machine

/-! ## Commands in turn (R317) -/

/-- Where nothing is in hand and none waits, a command on the table starts at once. -/
theorem secCommand_of_turn {e : Engine} {id : Nat} (ws : List Word) (hfree : secFree e = true)
    (hwait : e.sec.waiting = []) : secCommand e id ws = startWork e id ws := by
  have hdrain : on e CRY_PT_VER_DRAINING = false := by
    unfold secFree at hfree
    simp only [Bool.and_eq_true, Bool.not_eq_true'] at hfree
    exact hfree.2
  have hback : (mapSec (mapSec e fun s => { s with waiting := s.waiting ++ [(id, ws)] })
      fun s => { s with waiting := [] }) = e := by
    simp only [mapSec, ← hwait]
  unfold secCommand startNext
  rw [if_neg (by simp [hdrain])]
  simp only [mapSec_sec, hwait, List.nil_append]
  exact (if_pos (show secFree _ = true from hfree)).trans (congrArg (startWork · id ws) hback)

theorem secCommand_draining {e : Engine} (id : Nat) (ws : List Word) (h : on e CRY_PT_VER_DRAINING = true) :
    secCommand e id ws = finish e id stBusy 0 [] := if_pos h

/-- Behind other work a command waits. -/
theorem secCommand_waits {e : Engine} (id : Nat) (ws : List Word) (hdrain : on e CRY_PT_VER_DRAINING = false)
    (hbusy : secFree e = false) :
    secCommand e id ws = mapSec e fun x => { x with waiting := x.waiting ++ [(id, ws)] } := by
  have hbusy' : secFree (mapSec e fun x => { x with waiting := x.waiting ++ [(id, ws)] }) = false := hbusy
  unfold secCommand startNext
  rw [if_neg (by simp [hdrain])]
  cases hw : (mapSec e fun x => { x with waiting := x.waiting ++ [(id, ws)] }).sec.waiting with
  | nil => rfl
  | cons w rest => exact if_neg (by simp [hbusy'])

/-- A command that has its turn starts as its opcode says. -/
theorem secCommand_of_hasTurn {o : Engine × Nat} {c : Cmd} (h : HasTurn o c) :
    secCommand o.1 o.2 c.words = startWork o.1 o.2 c.words ∧ (findTicket o.1 o.2).map (·.op) = some c.op := by
  obtain ⟨hfree, hwait, hop⟩ := h
  exact ⟨secCommand_of_turn c.words hfree hwait, hop⟩

section
variable {o : Engine × Nat} {c : Cmd} (h : HasTurn o c)
include h

theorem startWork_destroy (hop : c.op = 0x0301) :
    secCommand o.1 o.2 c.words = destroyStart o.1 o.2 (c.f 1 11 0) := by
  obtain ⟨hstart, hfind⟩ := secCommand_of_hasTurn h
  rw [hstart]
  unfold startWork
  rw [hfind, hop]
  rfl

theorem startWork_prot (hop : c.op = 0x0302) : secCommand o.1 o.2 c.words = protStart o.1 o.2 c.words := by
  obtain ⟨hstart, hfind⟩ := secCommand_of_hasTurn h
  rw [hstart]
  unfold startWork
  rw [hfind, hop]
  rfl

theorem startWork_sanitize (hop : c.op = 0x0701) : secCommand o.1 o.2 c.words = sanitizeStart o.1 o.2 c.words := by
  obtain ⟨hstart, hfind⟩ := secCommand_of_hasTurn h
  rw [hstart]
  unfold startWork
  rw [hfind, hop]
  rfl

end

/-! ## The commands -/

section
variable {e : Engine} {c : Cmd}

theorem mciCtxCreate_generates (hchk : mciCheck e c ⟨.priv, true, named c [0xFFF], c.len == 2⟩ = none)
    (hctx : 0 < c.f 1 11 0) (hnew : c.f 1 11 0 ∉ (withTicket e c).1.sec.active)
    (hkey : ∀ w ∈ (withTicket e c).1.sec.waitKey, w.2.1 ≠ c.f 1 11 0) :
    mciCtxCreate e c = ctxGenerate (withTicket e c).1 (withTicket e c).2 (c.f 1 11 0) := by
  have hany : ((withTicket e c).1.sec.waitKey.any fun w => w.2.1 == c.f 1 11 0) = false := by simpa using hkey
  unfold mciCtxCreate
  refine (checked_ticketed hchk _).trans ?_
  simp [Nat.ne_of_gt hctx, hnew, hany]

theorem mciCtxDestroy_starts (hchk : mciCheck e c ⟨.priv, true, named c [0xFFF], c.len == 2⟩ = none)
    (hctx : 0 < c.f 1 11 0) (hin : c.f 1 11 0 ∈ (withTicket e c).1.sec.active) (hop : c.op = 0x0301)
    (hturn : HasTurn (withTicket e c) c) :
    let o := withTicket e c
    let b := bankOf o.1 (curVer o.1)
    let t := commitTable o.1 { b with regions := b.regions.filter fun (p : Nat × Region) => p.2.ctx != c.f 1 11 0 }
    mciCtxDestroy e c = mapSec (declare t o.2) fun x => { x with work := some (.destroy o.2 (c.f 1 11 0)
      ((b.regions.filter fun (p : Nat × Region) => p.2.ctx == c.f 1 11 0).map (·.2))) } := by
  have hno : ¬ (!(withTicket e c).1.sec.active.contains (c.f 1 11 0)) = true := by simp [hin]
  have hrun := (startWork_destroy hturn hop).trans (if_neg hno)
  unfold mciCtxDestroy
  exact (checked_ticketed hchk _).trans ((if_neg (Nat.ne_of_gt hctx)).trans ((if_neg hno).trans hrun))

/-- The layout of a PROT_SET. -/
def protLayout (e : Engine) (c : Cmd) : Layout :=
  ⟨.priv, true, named c (protMasks c) && (decide (c.f 1 3 1 ≤ 1) ||
    (decide (c.f 1 3 1 ≤ 4) && decide (sessionVer e c.box ≥ 0x202))), protValid c⟩

theorem mciProtSet_command (hchk : mciCheck e c (protLayout e c) = none) :
    mciProtSet e c = secCommand (withTicket e c).1 (withTicket e c).2 c.words := by
  unfold mciProtSet
  exact checked_ticketed hchk _

/-- A PROT_SET that has its turn commits the table that its records make. -/
theorem protStart_commits {e : Engine} {id : Nat} {ws : List Word} {t : NewTable}
    (hgood : (protRecs ws).any (badRec e) = false)
    (hover : noOverlap ((((bankOf e (curVer e)).regions.filter fun p => (protRecs ws).all fun r => r.idx != p.1).map (·.2)) ++
      ((protRecs ws).filter (·.valid)).map (·.reg)) = true)
    (happly : applyRecs e (bankOf e (curVer e)).regions (protRecs ws)
      ⟨(bankOf e (curVer e)).regions.filter (keepsEntry (protRecs ws)), []⟩ = some t)
    (hmode : (nth ws 1 0).getLsbD 0 = true ∨ ∀ r ∈ t.created.filterMap (tlookup t.regions), r.mode < 2) :
    protStart e id ws = protCommit
      (mapTicket { e with free := e.free + 2048 } id fun k => { k with body := baseWords t.regions (protRecs ws) }) id
      (bankOf e (curVer e)) t (protRights ws (bankOf e (curVer e)).rights) ((protRecs ws).map (·.idx))
      ((nth ws 1 0).getLsbD 0) := by
  have hok : ¬ ((!(nth ws 1 0).getLsbD 0) = true ∧
      ((t.created.filterMap (tlookup t.regions)).any fun r => decide (r.mode ≥ 2)) = true) := by
    rintro ⟨hinit, hany⟩
    obtain ⟨r, hr, h2⟩ := List.any_eq_true.mp hany
    rcases hmode with h | h
    · rw [h] at hinit
      exact absurd hinit (by decide)
    · exact absurd (h r hr) (Nat.not_lt.mpr (by simpa using h2))
  unfold protStart
  simp only [hgood, hover, Bool.not_true, Bool.false_eq_true, or_self, if_false, happly, if_neg hok]

theorem mciEnroll_eq (hchk : mciCheck e c ⟨.priv, true, named c [0x01FF0FFF], c.len == 2⟩ = none) :
    let o := withTicket e c
    let w := mapTicket o.1 o.2 fun k => { k with body := [word (c.f 1 11 0)] }
    let r := getEnroll w (c.f 1 11 0)
    (c.f 1 16 16 = 0 → r.enrolled = false → mciEnroll e c = finish w o.2 stOk 0 []) ∧
    ((∀ x ∈ w.dir.walks, x.agent ≠ c.f 1 11 0) →
      (∀ v, c.f 1 16 16 = 1 → r.enrolled = false → shadow w = false → freeVidx w = some v →
        mciEnroll e c = finish (putEnroll w (c.f 1 11 0) { r with
          enrolled := true, place := c.f 1 17 17 == 1, port := c.f 1 24 18, vidx := v }) o.2 stOk v []) ∧
      (c.f 1 16 16 = 0 → r.enrolled = true → mciEnroll e c =
        { w with dir := { w.dir with walks := w.dir.walks ++ [⟨true, c.f 1 11 0, 0, 0, false, []⟩] } })) := by
  intro o w r
  have hrun := fun f => checked_ticketed hchk f
  have hr : getEnroll o.1 (c.f 1 11 0) = r := rfl
  unfold mciEnroll
  have hany : (∀ x ∈ w.dir.walks, x.agent ≠ c.f 1 11 0) → ¬ (w.dir.walks.any fun x => x.agent == c.f 1 11 0) = true :=
    fun hwalks => by simpa using hwalks
  refine ⟨fun h0 hen => (hrun _).trans ?_, fun hwalks => ⟨fun v h1 hen hsh hv => (hrun _).trans ?_,
    fun h0 hen => (hrun _).trans ?_⟩⟩
  · have hgone : (!r.enrolled) = true := by simp [hen]
    exact if_pos ⟨h0, hgone⟩
  · have hne : ¬ c.f 1 16 16 = 0 := by omega
    have hnew : ¬ r.enrolled = true := by simp [hen]
    have hfull : ¬ shadow w = true := by simp [hsh]
    refine (if_neg fun h => hne h.1).trans ((if_neg (hany hwalks)).trans ((if_neg hne).trans ((if_neg hnew).trans
      ((if_neg hfull).trans ?_))))
    show (match freeVidx w with | none => _ | some v => _) = _
    rw [hv]
    rfl
  · have hin : ¬ (c.f 1 16 16 = 0 ∧ (!r.enrolled) = true) := by simp [hen]
    exact (if_neg hin).trans ((if_neg (hany hwalks)).trans (if_pos h0))

/-- The layout of a SANITIZE. -/
def sanitizeLayout (c : Cmd) : Layout :=
  ⟨.priv, true, named c [0x10FFF, 0xFFFFFFFF, 0xFFFFFFFF, 0xFFFFFFFF, 0xFFFFFFFF],
    c.len == if c.f 1 16 16 = 1 then 6 else 2⟩

theorem mciSanitize_command (hchk : mciCheck e c (sanitizeLayout c) = none) :
    mciSanitize e c = secCommand (withTicket e c).1 (withTicket e c).2 c.words := by
  unfold mciSanitize
  exact checked_ticketed hchk _

theorem sanitizeStart_context {e : Engine} {id : Nat} (h : c.f 1 16 16 ≠ 1) (hin : c.f 1 11 0 ∈ e.sec.active) :
    sanitizeStart e id c.words = mapSec e fun x => { x with work := some (.sanitize id (c.f 1 11 0) false) } := by
  unfold sanitizeStart
  refine (if_neg h).trans (if_neg ?_)
  show ¬ (!e.sec.active.contains (c.f 1 11 0)) = true
  simp [hin]

theorem sanitizeStart_range {e : Engine} {id a b : Nat} (h : c.f 1 16 16 = 1)
    (hrange : rangeOf c.words 2 (dataTop (gcfg e)) = some (a, b)) (hfree : rangeAssigned e a b = false) :
    sanitizeStart e id c.words = putRuns (mapSec e fun x => { x with work := some (.sanitizing id) })
      [bitsRun e a (b + 1), .lines false a (b + 1 - a)] := by
  unfold sanitizeStart
  refine (if_pos h).trans ?_
  simp only [hrange, hfree, Bool.false_eq_true, if_false]

end

theorem ringMci_takes {d : Dram} {e : Engine} {src : Nat} {x : Nat × List Word}
    (hx : e.ring.inbox.find? (fun y => y.1 == src) = some x) (hruns : pairRuns e 0 = true) : ringMci d e src =
      mciAny d (mapRing e fun r => { r with inbox := r.inbox.erase x }) (cmdOf (64 + src) x.2) := by
  unfold ringMci
  simp only [hx, hruns, if_true]

/-- Settles O44: each command from the message that it takes. -/
theorem mulumSecurityCommands : Obligations.MulumSecurityCommands := by
  intro s m e c has' o ctx
  refine ⟨?_, ?_, ?_, ?_, ?_, ?_, ?_⟩
  · exact fun has hchk hctx hnew hkey => run_of_eq
      ((takeCmd_of_holds _ _ has rfl).trans (mciCtxCreate_generates hchk hctx hnew hkey))
  · exact fun has hchk hctx hin hturn => run_of_eq
      ((takeCmd_of_holds _ _ has rfl).trans (mciCtxDestroy_starts hchk hctx hin has.op_eq hturn))
  · exact fun t has hchk hgood hover hturn happly hmode => run_of_eq ((takeCmd_of_holds _ _ has rfl).trans
      ((mciProtSet_command hchk).trans ((startWork_prot hturn has.op_eq).trans
        (protStart_commits hgood hover happly hmode))))
  · intro has hchk
    have hrun := (takeCmd_of_holds (· == 0x0302) mciProtSet has rfl).trans (mciProtSet_command hchk)
    exact ⟨fun h => run_of_eq (hrun.trans (secCommand_draining _ _ h)),
      fun h hbusy => run_of_eq (hrun.trans (secCommand_waits _ _ h hbusy))⟩
  · intro has hchk
    have htake := takeCmd_of_holds (· == 0x0303) mciEnroll has rfl
    obtain ⟨hgone, hrest⟩ := mciEnroll_eq hchk
    exact ⟨fun h0 hen => run_of_eq (htake.trans (hgone h0 hen)), fun hwalks =>
      ⟨fun v h1 hen hsh hv => run_of_eq (htake.trans ((hrest hwalks).1 v h1 hen hsh hv)),
      fun h0 hen => run_of_eq (htake.trans ((hrest hwalks).2 h0 hen))⟩⟩
  · intro has all hchk hturn
    have hrun := (takeCmd_of_holds (· == 0x0701) mciSanitize has rfl).trans
      ((mciSanitize_command hchk).trans (startWork_sanitize hturn has.op_eq))
    exact ⟨fun h hin => run_of_eq (hrun.trans (sanitizeStart_context h hin)),
      fun a b h hrange hfree => run_of_eq (hrun.trans (sanitizeStart_range h hrange hfree))⟩
  · exact fun src x hx hruns => run_of_eq (ringMci_takes hx hruns)

end Sys2Proof.Machine

/-! # The roll over the channels, its rollback, and the quiesced commit (R516, R520–R523) -/

namespace Sys2Proof.Machine

section
variable {e : Engine} {c : Commit} (hc : e.mci.commit = some c) (hruns : pairRuns e 0 = true) (hsafe : isSafe e = false)
include hc hruns hsafe

/-! ## The roll -/

section
variable {n : Nat} {rest : List Nat} (hroll : e.pwr.rollAt = none) (htodo : c.todo = n :: rest)
  (hq : c.quiesce = false) (hstop : c.stop = none)
include hroll htodo hq hstop

/-- The ports are throttled from the first look at a channel on. -/
def looked (e : Engine) (c : Commit) (n : Nat) : Engine :=
  if c.step = 0 then throttleAll (wr e GC_CFG_GEN_NEXT_CH n) true else e

theorem rollChannel_eq : rollChannel e =
    let x := looked e c n
    if rollDrained x n then
      let ws := rollWords x c.items n
      let y := throttleAll (swapChan x n (nextGen x) ws) false
      let d := { c with todo := rest, rolled := c.rolled ++ [n], tries := 0, step := 0,
                        saved := c.saved ++ ws.map fun p => (p.1, reg x p.1) }
      let z := setProgress (putCommit y d) c.ticket d.rolled.length
      if rest.isEmpty then endCommit z d else waitUs z 20
    else if c.step = 0 then putCommit x { c with step := 1 }
    else
      let y := throttleAll (waitUs x 20) false
      if c.tries ≥ 2 then putCommit y { c with tries := c.tries + 1, step := 0, stop := some stBusy }
      else waitUs (putCommit y { c with tries := c.tries + 1, step := 0 }) 100 := by
  have hno : stopRoll e = e := by
    unfold stopRoll
    rw [hroll]
  have hgo : ¬ (c.quiesce || c.stop.isSome || !pairRuns e 0 || isSafe e) = true := by simp [hq, hstop, hruns, hsafe]
  unfold rollChannel
  simp only [hno, hc, htodo, if_neg hgo]
  rfl

end

/-- A stopped roll goes back channel by channel. -/
theorem rollRollback_eq {st : Nat} (hstop : c.stop = some st) (hq : c.quiesce = false) : rollRollback e =
    closeCommit (throttleAll (c.rolled.reverse.foldl (fun e n =>
      waitUs (throttleAll (unrollChan (throttleAll e true) c n) false) 20) e) false) c st 0 := by
  have hgo : ¬ (c.quiesce || !pairRuns e 0 || isSafe e) = true := by simp [hq, hruns, hsafe]
  unfold rollRollback
  simp only [hc, hstop, if_neg hgo]

/-! ## The quiesced commit -/

/-- The commit goes on to a step. -/
def goStep (c : Commit) (e : Engine) (k : Nat) : Engine := putCommit (setProgress e c.ticket k) { c with step := k }

section
variable (hq : c.quiesce = true)
include hq

omit hc in
theorem quiesce_goes : ¬ (!c.quiesce || !pairRuns e 0 || isSafe e) = true := by simp [hq, hruns, hsafe]

theorem quiesceStep_class3 (hstep : c.step = 2) (hdone : class3Done e = true) : quiesceStep e =
    if c.items.any fun x => x.1 == 0xB0 then goStep c (snoopAll e) 3 else goStep c (recallAll e) 4 := by
  have hgo := quiesce_goes hruns hsafe hq
  unfold quiesceStep
  simp only [hc, if_neg hgo, hstep, hdone, Bool.not_true, Bool.false_eq_true, if_false]
  rfl

theorem quiesceStep_held (hstep : c.step = 3) : quiesceStep e =
    if nothingHeld e then goStep c (recallAll e) 4 else snoopAll e := by
  have hgo := quiesce_goes hruns hsafe hq
  unfold quiesceStep
  simp only [hc, if_neg hgo, hstep]
  rfl

theorem quiesceStep_drains (hstep : c.step = 4) (h : allYielded e = false ∨ writesDone e = false) :
    quiesceStep e = drainWrites e := by
  have hgo := quiesce_goes hruns hsafe hq
  have hwait : ¬ (allYielded e && writesDone e) = true := by rcases h with h | h <;> simp [h]
  unfold quiesceStep
  simp only [hc, if_neg hgo, hstep]
  exact if_neg hwait

theorem quiesceStep_declares (hstep : c.step = 4) (hy : allYielded e = true) (hw : writesDone e = true) :
    let d := declare (fwClear e GC_ING_CTRL) c.ticket
    quiesceStep e = goStep c { d with flt := { d.flt with planAt := some d.clk.nominal } } 5 := by
  have hgo := quiesce_goes hruns hsafe hq
  unfold quiesceStep
  simp only [hc, if_neg hgo, hstep]
  exact if_pos (by simp [hy, hw])

theorem quiesceStep_applies (hstep : c.step = 5) :
    let p := setProgress e c.ticket (rollChans e c.items).length
    let a := fwSet (applyQuiesce p c.items) GC_ING_CTRL
    let b := addDown { a with flt := { a.flt with planAt := none } } FLT_DOWN_PLAN
      (a.clk.nominal - e.flt.planAt.getD e.clk.nominal)
    quiesceStep e = closeCommit (throttleAll b false) c stOk (rd b GC_CFG_GEN_GEN) := by
  have hgo := quiesce_goes hruns hsafe hq
  unfold quiesceStep
  simp only [hc, if_neg hgo, hstep]

end

end

theorem rollStep_roll {e : Engine} (h : e.mci.offRuns = []) : rollStep e = rollChannel e := by
  unfold rollStep
  rw [h]
  rfl

theorem rollStep_offline {e : Engine} {r : OffRun} {rest : List OffRun} (h : e.mci.offRuns = r :: rest) :
    rollStep e = offlineDrain e := by
  unfold rollStep
  rw [h]
  rfl

/-- Settles O45: the roll, its rollback, the quiesce and the offline drain, each by its equation. -/
theorem rollAndQuiesceAct : Obligations.RollAndQuiesceAct := by
  refine ⟨fun s c hc hruns hsafe => ⟨?_, ?_, ?_⟩, fun s r rest hr hruns hsafe => ?_⟩
  · intro n rest hoff hroll htodo hq hstop
    have hrun := (rollStep_roll hoff).trans (rollChannel_eq hc hruns hsafe hroll htodo hq hstop)
    refine ⟨fun hd => run_of_eq (hrun.trans (if_pos hd)),
      fun hd h0 => run_of_eq (hrun.trans ((if_neg (ne_true_of_eq_false hd)).trans (if_pos h0))), fun hd h0 => ?_⟩
    have hlate := hrun.trans ((if_neg (ne_true_of_eq_false hd)).trans (if_neg h0))
    exact ⟨fun ht => run_of_eq (hlate.trans (if_neg (Nat.not_le.mpr ht))), fun ht => run_of_eq (hlate.trans (if_pos ht))⟩
  · exact fun st hstop hq => run_of_eq (rollRollback_eq hc hruns hsafe hstop hq)
  · exact fun hq => ⟨fun hstep hdone => runWrite_of_eq (quiesceStep_class3 hc hruns hsafe hq hstep hdone),
      fun hstep => runWrite_of_eq (quiesceStep_held hc hruns hsafe hq hstep),
      fun hstep h => runWrite_of_eq (quiesceStep_drains hc hruns hsafe hq hstep h),
      fun hstep hy hw => runWrite_of_eq (quiesceStep_declares hc hruns hsafe hq hstep hy hw),
      fun hstep => runWrite_of_eq (quiesceStep_applies hc hruns hsafe hq hstep)⟩
  · have hrun := rollStep_offline hr
    intro put x d
    refine ⟨fun hd => run_of_eq (hrun.trans (offlineDrain_drained hr hruns hsafe rfl hd)),
      fun hd ht => run_of_eq (hrun.trans (offlineDrain_first hr hruns hsafe rfl ht hd)), fun hd ht => ?_⟩
    have hlate := hrun.trans (offlineDrain_again hr hruns hsafe rfl ht hd)
    exact ⟨fun h => run_of_eq (hlate.trans (if_neg (Nat.not_le.mpr h))), fun h => run_of_eq (hlate.trans (if_pos h))⟩

end Sys2Proof.Machine

/-! # Where a dump goes, the quiet period and the recovery window (R545, R548, R551, R553) -/

namespace Sys2Proof.Machine

/-- The completed dump starts the quiet period, or the hold (R551). -/
def dumpDone (x : Engine) : Engine :=
  let y := wr x FLT_SAFE_DUMP_DONE 1
  let z := wr y FLT_SAFE_PHASE (if rd y FLT_SAFE_NO_AUTO = 0 then 3 else 4)
  { z with flt := { z.flt with quietAt := z.clk.nominal } }

/-- MEn gives up the channel that it holds for a DRAM dump. -/
def dumpFree (x : Engine) (n : Nat) : Engine := mapArb x n fun a => { a with dump := false }

/-- The engine in which the dump is taken: `us` µs after SAFE, with the dump's number. -/
def dumpMoment (e : Engine) (us : Nat) : Engine :=
  let t := tickTo e (e.flt.safeAt + usUnits us)
  wr t FLT_SAFE_DUMP_ID (nextDumpId t)

section
variable {d : Dram} {e : Engine} {us k : Nat} (hclk : clocked e = true) (hsafe : isSafe e = true)
  (hphase : rd e FLT_SAFE_PHASE = 2) (hruns : pairRuns e 0 = true) (hus : us ≤ 20000)
include hclk hsafe hphase hruns hus

theorem dumpComplete_tun (hch : dumpChan (dumpMoment e us) = none) : dumpComplete d e us k =
    dumpDone (dumpToTun (dumpMoment e us) (nextDumpId (tickTo e (e.flt.safeAt + usUnits us))) k) := by
  unfold dumpMoment at *
  unfold dumpComplete
  simp only [hclk, hsafe, hphase, hruns, beq_self_eq_true, Bool.and_self, if_true, Nat.min_eq_left hus, hch]
  rfl

theorem dumpComplete_band {n : Nat} (hch : dumpChan (dumpMoment e us) = some n) :
    let id := nextDumpId (tickTo e (e.flt.safeAt + usUnits us))
    let w := dumpMoment e us
    let x := if dramDump w n then dumpToDram d w n id k else { w with flt := { w.flt with moved := true } }
    dumpComplete d e us k = dumpDone (if x.flt.moved then dumpToTun (dumpFree x n) id k else dumpFree x n) := by
  unfold dumpMoment at *
  unfold dumpComplete
  simp only [hclk, hsafe, hphase, hruns, beq_self_eq_true, Bool.and_self, if_true, Nat.min_eq_left hus, hch]
  rfl

end

theorem quietExpiry_recovers {d : Dram} {e : Engine} (hclk : clocked e = true) (hsafe : isSafe e = true)
    (hphase : rd e FLT_SAFE_PHASE = 3) (hexit : on e FLT_CTRL_AUTO_EXIT = true) (hdump : on e FLT_SAFE_DUMP_DONE = true)
    (hauto : rd e FLT_SAFE_NO_AUTO = 0) (htrans : inTrans e = false) (hruns : pairRuns e 0 = true) : quietExpiry d e =
      recover d (tickTo e (e.flt.quietAt + msUnits (rd e FLT_CTRL_QUIET_MS))) true :=
  if_pos (by simp [hclk, hsafe, hphase, hexit, hdump, hauto, htrans, hruns])

theorem recoveryWindow_drops {e : Engine} {t : Nat} {rest : List Nat} (hclk : clocked e = true)
    (h : recentNow e = t :: rest) :
    let w := tickTo e (t + 86400 * 10 ^ 9 * nsUnit)
    recoveryWindow e = { w with flt := { w.flt with recent := w.flt.recent.filter fun u => u != t } } := by
  have hday : dayUnits = 86400 * 10 ^ 9 * nsUnit := by decide
  unfold recoveryWindow
  rw [h]
  simp only [hclk, if_true, hday]

/-- Settles O47: the dump by the channel that holds it, and the two timers. -/
theorem dumpAndRecoveryAct : Obligations.DumpAndRecoveryAct := by
  intro s hclk
  refine ⟨fun us k hsafe hphase hruns => ?_, fun hsafe hphase hexit hdump hauto htrans hruns =>
    run_of_eq (quietExpiry_recovers hclk hsafe hphase hexit hdump hauto htrans hruns),
    fun t rest h => run_of_eq (recoveryWindow_drops hclk h)⟩
  have hus : us.val ≤ 20000 := Nat.lt_succ_iff.mp us.isLt
  have hband := fun {n} hch => dumpComplete_band (d := s.dram) (k := k) (n := n) hclk hsafe hphase hruns hus hch
  refine ⟨fun hch => run_of_eq (dumpComplete_tun hclk hsafe hphase hruns hus hch), fun n hch hd => run_of_eq ?_,
    fun n hch hd => run_of_eq ?_⟩
  · have hdram : dramDump (dumpMoment s.fresh us) n = true := hd
    refine (hband hch).trans ?_
    rw [if_pos hdram]
    rfl
  · have hdram : dramDump (dumpMoment s.fresh us) n = false := hd
    refine (hband hch).trans ?_
    rw [if_neg (ne_true_of_eq_false hdram)]
    exact congrArg dumpDone (if_pos rfl)

end Sys2Proof.Machine

/-! # Entropy, reseeding, waiting keys and the recovery from a zeroization (R53, R312, R320) -/

namespace Sys2Proof.Machine

/-! ## The health tests (R53) -/

/-- How often the sample has come in a row (repetition-count test). -/
def repeats (e : Engine) (x : BitVec 16) : Nat :=
  match e.sec.rct with
  | some (v, n) => if v = x then n + 1 else 1
  | none => 1

/-- The window of the adaptive-proportion test with the sample: its value, its samples, and how many are the value. -/
def proportion (e : Engine) (x : BitVec 16) : BitVec 16 × Nat × Nat :=
  match e.sec.apt with
  | some (v, n, h) => (v, n + 1, if v = x then h + 1 else h)
  | none => (x, 1, 1)

section
variable {e : Engine} (x : BitVec 16) (hready : entReady e = true)
include hready

theorem entropySample_repeats (h : 4 ≤ repeats e x) : entropySample e x = healthFail e 0 (repeats e x) := by
  unfold entropySample
  exact (if_pos hready).trans (if_pos h)

theorem entropySample_unbalanced (h : repeats e x < 4) (h' : 13 ≤ (proportion e x).2.2) :
    entropySample e x = healthFail e 1 (proportion e x).2.1 := by
  unfold entropySample
  exact (if_pos hready).trans ((if_neg (Nat.not_le.mpr h)).trans (if_pos h'))

/-- A sample that passes joins the block, which 32 samples condition. -/
theorem entropySample_passes (h : repeats e x < 4) (h' : (proportion e x).2.2 < 13) :
    entropySample e x = mapSec e fun s => { s with
      rct := some (x, repeats e x)
      apt := if (proportion e x).2.1 ≥ aptWindow then none else some (proportion e x)
      raw := if decide ((e.sec.raw ++ [x]).length ≥ 32) then [] else e.sec.raw ++ [x]
      cond := if decide ((e.sec.raw ++ [x]).length ≥ 32) then s.cond ++ [conditionBlock (e.sec.raw ++ [x])] else s.cond
      healthy := s.healthy || decide ((e.sec.raw ++ [x]).length ≥ 32) } := by
  unfold entropySample
  exact (if_pos hready).trans ((if_neg (Nat.not_le.mpr h)).trans (if_neg (Nat.not_le.mpr h')))

end

/-! ## Reseeding and waiting keys (R320) -/

section
variable {e : Engine} (hclk : clocked e = true)
include hclk

section
variable (hseed : seedReady e = true)
include hseed

theorem drbgReseedCmd_work (h : keyWork e = true) : drbgReseedCmd e = secContinue e := by
  unfold drbgReseedCmd
  simp only [hclk, hseed, Bool.and_self, if_true, h]

theorem drbgReseedCmd_key {tk ctx t : Nat} {rest} (h : keyWork e = false) (hw : e.sec.waitKey = (tk, ctx, t) :: rest)
    (hruns : pairRuns e 1 = true) : drbgReseedCmd e =
      finish (activate (genKeys (mapSec e fun s => { s with waitKey := rest }) ctx) ctx) tk stOk 0 [] := by
  unfold drbgReseedCmd waitingKey
  simp only [hclk, hseed, Bool.and_self, if_true, h, Bool.false_eq_true, if_false, hw, List.isEmpty_cons, Bool.not_false,
    hruns]

theorem drbgReseedCmd_seed (h : keyWork e = false) (hw : e.sec.waitKey = [])
    (hdue : e.sec.drbg.seeded = false ∨ 65536 ≤ e.sec.drbg.count) : drbgReseedCmd e = drbgReseed e := by
  have hdue' : (!e.sec.drbg.seeded || decide (e.sec.drbg.count ≥ 65536)) = true := by rcases hdue with h | h <;> simp [h]
  unfold drbgReseedCmd
  simp only [hclk, hseed, Bool.and_self, if_true, h, Bool.false_eq_true, if_false, hw, List.isEmpty_nil, Bool.not_true,
    hdue']

end

theorem entropyExpiry_busy {tk ctx t : Nat} {rest} (hw : e.sec.waitKey = (tk, ctx, t) :: rest) (hctx : ctx ≠ 0) :
    entropyExpiry e = finish (mapSec (tickTo e (t + msUnits 10)) fun s => { s with waitKey := rest }) tk stBusy 0 [] := by
  unfold entropyExpiry
  simp only [hclk, Bool.not_true, Bool.false_eq_true, if_false, hw, if_neg hctx]

end

/-! ## Zeroization (R312) -/

/-- The recovery from a zeroization commits an empty table, in the engine `r` in which the work in hand has ended. -/
theorem zeroizeRecovery_commits {e c r : Engine} (hcont : secContinue e = c)
    (hr : (∃ t, workTicket c = some t ∧ r = finish c t stAborted 0 []) ∨ workTicket c = none ∧ r = c)
    (hruns : pairRuns c 1 = true) (hsafe : isSafe c = false) (hzero : c.sec.zeroized = true)
    (hdrain : on c CRY_PT_VER_DRAINING = false) (hwork : ∀ w, c.sec.work ≠ some (.zeroize w))
    (hwork' : c.sec.work ≠ some .zeroizing) : zeroizeRecovery e =
      mapSec (commitTable r { bankOf r (curVer r) with regions := [] }) fun s => { s with
        work := some (.zeroize false), memRuns := [], line := none } := by
  have hgo : (pairRuns c 1 && c.sec.zeroized && !on c CRY_PT_VER_DRAINING && !isSafe c && c.sec.work != some (.zeroize false) &&
      c.sec.work != some (.zeroize true) && c.sec.work != some .zeroizing) = true := by
    simp [hruns, hzero, hdrain, hsafe, hwork, hwork']
  unfold zeroizeRecovery
  simp only [hcont]
  refine (if_pos hgo).trans ?_
  rcases hr with ⟨t, ht, rfl⟩ | ⟨ht, rfl⟩ <;> simp only [ht]

/-- Settles O27: samples by the two tests, seeds by who waits for them, and the recovery from a zeroization. -/
theorem securityHardwareActs : Obligations.SecurityHardwareActs := by
  intro s hclk
  refine ⟨fun x hready => ?_, fun hseed => ⟨fun h => run_of_eq (drbgReseedCmd_work hclk hseed h),
    fun tk ctx t rest h hw hruns => run_of_eq (drbgReseedCmd_key hclk hseed h hw hruns),
    fun h hw hdue => run_of_eq (drbgReseedCmd_seed hclk hseed h hw hdue)⟩,
    fun tk ctx t rest hw hctx => run_of_eq (entropyExpiry_busy hclk hw hctx),
    fun hruns hsafe hzero hdrain hwork hwork' => run_of_eq ?_⟩
  · intro rep h w blocks bad
    have hrep : rep = repeats s.fresh x := rfl
    have hh : h = (proportion s.fresh x).2.2 := by
      simp only [h, proportion]
      cases s.fresh.sec.apt <;> rfl
    have hw : w = (proportion s.fresh x).2.1 := by
      simp only [w, proportion]
      cases s.fresh.sec.apt <;> rfl
    have hfull : (s.fresh.sec.raw ++ [x]).length ≥ 32 ↔ 31 ≤ s.fresh.sec.raw.length := by
      rw [List.length_append, List.length_singleton]
      omega
    rw [hh, hrep]
    refine ⟨fun h4 => run_of_eq (entropySample_repeats x hready h4), fun h4 h13 => ?_, fun h4 h13 => ?_⟩
    · rw [hw]
      exact run_of_eq (entropySample_unbalanced x hready h4 h13)
    · refine ⟨_, run_of_eq (entropySample_passes x hready h4 h13), ?_, ?_, rfl⟩
      · simp only [mapSec_sec, hfull, decide_eq_true_eq]
      · simp only [mapSec_sec, hfull, decide_eq_true_eq]
  · refine zeroizeRecovery_commits rfl ?_ hruns hsafe hzero hdrain hwork hwork'
    cases ht : workTicket (secContinue s.fresh) with
    | some t => exact .inl ⟨t, rfl, rfl⟩
    | none => exact .inr ⟨rfl, rfl⟩

end Sys2Proof.Machine

/-! # CA slots, idle closes, drains and captured bursts (R143, R144, R147, R150, R224) -/

namespace Sys2Proof.Machine

section
variable {d : Dram} {e : Engine} {n sc : Nat}

/-- A CA slot in which the scheduler holds the channel issues the chosen command. -/
theorem schedCmd_issues {wait pos : Nat} {k : Cand} (hclk : clocked e = true)
    (hen : on (slotEngine e n wait pos) (CH_SCHED_CTRL_SCHED_EN n) = true)
    (hold : schedHolds (slotEngine e n wait pos) n (4 * (tick e wait).clk.cyc + pos) = true)
    (hk : chooseCmd (spargeLook (slotEngine e n wait pos) n) n sc (4 * (tick e wait).clk.cyc + pos) = some k) :
    schedCmd d e n sc wait pos = syncLines (spargeLook (issueCand d (spargeLook (slotEngine e n wait pos) n) n sc
      (4 * (tick e wait).clk.cyc + pos) k) n) n := by
  unfold slotEngine at *
  unfold schedCmd schedCommand
  simp only [hclk, if_true, hen, Bool.true_or, hold, Bool.and_self, hk]

/-- Under the adaptive policy an idle row is closed with PRE. -/
theorem pageCmd_closes {wait pos : Nat} {l : Loc} (hclk : clocked e = true)
    (hen : on (schedYield (placeDeferred (tick e wait) n (4 * (tick e wait).clk.cyc + pos)) n) (CH_SCHED_CTRL_SCHED_EN n) = true)
    (hpol : rd (schedYield (placeDeferred (tick e wait) n (4 * (tick e wait).clk.cyc + pos)) n) (CH_SCHED_CTRL_PAGE_POL n) = 2)
    (hold : schedHolds (schedYield (placeDeferred (tick e wait) n (4 * (tick e wait).clk.cyc + pos)) n) n
      (4 * (tick e wait).clk.cyc + pos) = true)
    (hl : idleRow (schedYield (placeDeferred (tick e wait) n (4 * (tick e wait).clk.cyc + pos)) n) n sc
      (4 * (tick e wait).clk.cyc + pos) = some l) :
    pageCmd e n sc wait pos =
      issueCmd (schedYield (placeDeferred (tick e wait) n (4 * (tick e wait).clk.cyc + pos)) n) n sc
        (mkCmd (schedYield (placeDeferred (tick e wait) n (4 * (tick e wait).clk.cyc + pos)) n) n .pre l
          (4 * (tick e wait).clk.cyc + pos)) := by
  unfold pageCmd pageIdle
  simp only [hclk, if_true, hen, hpol, hold, beq_self_eq_true, Bool.and_self, hl]

/-- The moment at which a subchannel has had no queued read for IDLE_DRAIN. -/
def drainMoment (e : Engine) (n sc : Nat) : Engine :=
  tick e ((getSub (getChan e n) sc).idleSince + rd e (CH_SPARGE_IDLE_DRAIN n) - e.clk.cyc)

theorem oppDrain_starts (hen : on (drainMoment e n sc) (CH_SCHED_CTRL_SCHED_EN n) = true)
    (hw : rd e (CH_SPARGE_IDLE_DRAIN n) ≠ 0) (hr : queuedReads (getChan e n) sc = [])
    (hq : queuedWrites (getChan e n) sc ≠ []) (hno : drainKind (getChan e n) sc = none) : oppDrain e n sc =
      syncLines (putChan (inc (drainMoment e n sc) (CH_CNT_DRAIN n)) n
        (mapDrain (getChan (drainMoment e n sc) n) sc fun d => { d with
          kind := some .opportunistic, tail := none, tailLeft := 0, casSince := 0 })) n := by
  have hq' : (queuedWrites (getChan e n) sc).isEmpty = false := by simpa [List.isEmpty_eq_false_iff] using hq
  have hstart : startDrain (drainMoment e n sc) n sc .opportunistic =
      putChan (inc (drainMoment e n sc) (CH_CNT_DRAIN n)) n
        (mapDrain (getChan (drainMoment e n sc) n) sc fun d => { d with
          kind := some .opportunistic, tail := none, tailLeft := 0, casSince := 0 }) := by
    have hnone : (drainKind (getChan (drainMoment e n sc) n) sc).isNone = true := by
      show (drainKind (getChan e n) sc).isNone = true
      rw [hno]
      rfl
    unfold startDrain
    simp only [hnone, if_true]
  have hw' : (rd e (CH_SPARGE_IDLE_DRAIN n) != 0) = true := by simpa using hw
  rw [← hstart]
  unfold drainMoment at *
  unfold oppDrain
  simp only [hen, hw', hr, hq', hno, List.isEmpty_nil, Bool.not_false, Option.isNone_none, Bool.and_self, if_true]

theorem burstCapture_eq {r : RqEntry} {at_ : Nat} (preamble : Bool) (err : Slot) (hr : nextBurst (getChan e n) sc = some r)
    (hi : r.issued = some at_) :
    let x := toPhy e (at_ + rd e (CH_TIM5_RL n) + 8)
    burstCapture e n sc preamble err = if preamble then captured x n r (r.data ^^^ err)
      else putChan x n { getChan x n with
        rq := (getChan x n).rq.map fun (q : RqEntry) => if q.seq = r.seq then { q with miss := true } else q } := by
  unfold burstCapture
  simp only [hr, hi, Option.getD_some]

end

/-- Settles O10: each command of the scheduler under what starts it. -/
theorem schedulerCommandsAct : Obligations.SchedulerCommandsAct := by
  intro s n sc hclk
  exact ⟨fun wait pos k hen hold hk => run_of_eq (schedCmd_issues hclk hen hold hk),
    fun wait pos l hen hpol hold hl => run_of_eq (pageCmd_closes hclk hen hpol hold hl),
    fun hen hw hr hq hno => run_of_eq (oppDrain_starts hen hw hr hq hno),
    fun r at_ err hr hi => ⟨run_of_eq ((burstCapture_eq true err hr hi).trans (if_pos rfl)),
      run_of_eq ((burstCapture_eq false err hr hi).trans (if_neg Bool.false_ne_true))⟩⟩

end Sys2Proof.Machine

/-! # Arriving packets, snoop answers, timeouts and the walks of the directory (R87, R349–R365, R384, R385) -/

namespace Sys2Proof.Machine

/-! ## A packet that arrives (R87) -/

/-- A packet whose sender holds a credit uses it. -/
theorem arrive_of_canArrive {s : State} {p c : Nat} (h : CanArrive s p c) (f : Engine → Engine) :
    arrive s.fresh p c f = f (useCredit s.fresh p c) := by
  obtain ⟨htakes, hheld⟩ := h
  exact (if_pos htakes).trans (if_neg hheld)

/-- A class 1 packet that the directory takes has its credit due again at once. -/
theorem takeClass1_of_takes {s : State} {p a : Nat} (h : TakesBi s p a) (op : BiOp) (g : Nat) :
    takeClass1 s.fresh op p a g = takeBi (creditDue (useCredit s.fresh p 1) p 1) op p a g := by
  obtain ⟨harrive, hsafe, hdead⟩ := h
  have hno : ¬ (isSafe (creditDue (useCredit s.fresh p 1) p 1) ||
      (getEnroll (creditDue (useCredit s.fresh p 1) p 1) a).dead) = true := by
    rw [show isSafe (creditDue (useCredit s.fresh p 1) p 1) = isSafe s.fresh from rfl, hsafe,
      show getEnroll (creditDue (useCredit s.fresh p 1) p 1) a = getEnroll s.fresh a from rfl, hdead]
    decide
  exact (arrive_of_canArrive harrive _).trans (if_neg hno)

/-! ## Snoop answers (R384, R385) -/

section
variable {e : Engine} {p a g : Nat}

section
variable {sn : Snoop} (h : matchSnoop e p a g = some sn)
include h

theorem takeBi_rspI : takeBi e .rspI p a g = endSnoop e sn false := by
  unfold takeBi
  simp only [h]

theorem takeBi_rspS (hinv : sn.inv = false) : takeBi e .rspS p a g = endSnoop e sn true := by
  unfold takeBi
  simp only [h, hinv, Bool.false_eq_true, if_false]

theorem takeBi_rspS_wrong (hinv : sn.inv = true) :
    takeBi e .rspS p a g = protoFault (endSnoop e sn false) DIR_PROTO_STATUS_WRONG_RSP a := by
  unfold takeBi
  simp only [h, hinv, if_true]

theorem takeBi_conflict : takeBi e .conflict p a g = conflictAck e p a g := by
  unfold takeBi
  simp only [h]

end

theorem takeBi_unmatched (h : matchSnoop e p a g = none) {op : BiOp} (hop : op ∈ [BiOp.rspI, .rspS, .conflict]) :
    takeBi e op p a g = protoFault e DIR_PROTO_STATUS_BAD_BITAG a := by
  simp only [List.mem_cons, List.not_mem_nil, or_false] at hop
  unfold takeBi
  rcases hop with rfl | rfl | rfl <;> simp only [h]

end

/-! ## Timeouts, walks and the initialisation (R349, R353, R361, R365) -/

section
variable {e : Engine} (hclk : clocked e = true)
include hclk

theorem biTimeout_declares {g : Nat} {sn : Snoop} (hsafe : isSafe e = false)
    (h : e.dir.snoops.find? (fun x => x.tag == some g) = some sn) : biTimeout e g =
      semAbandonAll (declareDead (tickTo e (sn.since + sn.limit)) sn.agent) 0 sn.agent 3 := by
  unfold biTimeout
  simp only [hclk, hsafe, Bool.not_false, Bool.and_self, if_true, h]

/-- The reclaim walk goes on to the next set, or ends behind the last. -/
def reclaimNext (r : Engine) (x : Walk) : Engine :=
  let y := { x with set := x.set + 1 }
  if 2 ^ 18 ≤ y.set then reclaimEnd (putWalk r x y) y else putWalk r x y

theorem reclaimStep_eq {w : Walk} (hsafe : isSafe e = false) (hw : walkNow e false = some w) :
    let m := wayMet (tick e 1) (lineOf w.set 0)
    let r := reclaimSet m.1 w
    reclaimStep e = if m.2 then m.1 else (walkNow r false).elim r (reclaimNext r) := by
  have hgo : (clocked e && !isSafe e) = true := by simp [hclk, hsafe]
  unfold reclaimStep
  rcases hm : wayMet (tick e 1) (lineOf w.set 0) with ⟨x, ue⟩
  simp only [hw, if_pos hgo, hm]
  cases ue with
  | true => rfl
  | false => cases walkNow (reclaimSet x w) false <;> rfl

/-- The unenroll walk goes on behind a set that is wholly snooped; behind the last one an abort comes too late. -/
def unenrollNext (on : Engine) (w : Walk) (t : Ticket) : Engine :=
  let p := setProgress on t.id (w.set + 1)
  if w.set + 1 = 2 ^ 18 then declare p t.id else p

theorem unenrollStep_eq {w : Walk} (hsafe : isSafe e = false) (hw : walkNow e true = some w) (hset : w.set < 2 ^ 18) :
    let m := wayMet (tick e 1) (lineOf w.set 0)
    let r := unenrollSet m.1 w
    let on := putWalk r.1 w { w with set := w.set + 1 }
    unenrollStep e = if m.2 then m.1 else if r.2 then (unenrollTicket on w.agent).elim on (unenrollNext on w) else r.1 := by
  have hgo : (clocked e && !isSafe e && decide (w.set < 2 ^ 18)) = true := by
    rw [hclk, hsafe, decide_eq_true hset]
    rfl
  unfold unenrollStep
  rcases hm : wayMet (tick e 1) (lineOf w.set 0) with ⟨x, ue⟩
  rcases hr : unenrollSet x w with ⟨y, all⟩
  simp only [hw, if_pos hgo, hm, hr]
  cases ue with
  | true => rfl
  | false => cases all with
    | false => rfl
    | true =>
      cases unenrollTicket (putWalk y w { w with set := w.set + 1 }) w.agent <;> rfl

theorem dirInitDone_ends {t : Nat} (h : e.dir.initEnd = some t) :
    let d := tick e (t - e.clk.cyc)
    dirInitDone e = wr { d with dir := { d.dir with sets := [], initEnd := none } } DIR_CTRL_DIR_EN 1 := by
  unfold dirInitDone
  simp only [h, hclk, Bool.true_eq_false, if_false]

end

/-- Settles O30: each class 1 packet by its match, and each walk by its set. -/
theorem directoryAnswersAndWalks : Obligations.DirectoryAnswersAndWalks := by
  refine ⟨fun s p a g h => ?_, fun s hclk => ⟨fun g sn hsafe hsn => run_of_eq (biTimeout_declares hclk hsafe hsn),
    fun w hsafe hw => run_of_eq (reclaimStep_eq hclk hsafe hw),
    fun w hsafe hw hset => run_of_eq (unenrollStep_eq hclk hsafe hw hset), fun t ht => run_of_eq (dirInitDone_ends hclk ht)⟩⟩
  have hrun := fun op => takeClass1_of_takes h op g.toNat
  refine ⟨fun sn hsn => ⟨?_, fun hinv => ?_, fun hinv => ?_, ?_⟩, fun hno => ⟨?_, ?_, ?_⟩, ?_, ?_, ?_, ?_⟩
  · exact run_of_eq ((hrun .rspI).trans (takeBi_rspI hsn))
  · exact run_of_eq ((hrun .rspS).trans (takeBi_rspS hsn hinv))
  · exact run_of_eq ((hrun .rspS).trans (takeBi_rspS_wrong hsn hinv))
  · exact run_of_eq ((hrun .conflict).trans (takeBi_conflict hsn))
  · exact run_of_eq ((hrun .rspI).trans (takeBi_unmatched hno (by decide)))
  · exact run_of_eq ((hrun .rspS).trans (takeBi_unmatched hno (by decide)))
  · exact run_of_eq ((hrun .conflict).trans (takeBi_unmatched hno (by decide)))
  · exact run_of_eq (hrun .rspE)
  · exact run_of_eq (hrun .rspIBlk)
  · exact run_of_eq (hrun .rspSBlk)
  · exact run_of_eq (hrun .rspEBlk)

end Sys2Proof.Machine

/-! # Requests and other packets at a port (R20, R46, R67–R92, R314–R316) -/

namespace Sys2Proof.Machine

/-! ## What the sampler leaves as it was (R417) -/

/-- Two engines agree in the registers of the protection table's version, its banks and the directory. -/
structure SameChecks (e e' : Engine) : Prop where
  ver : reg e' CRY_PT_VER = reg e CRY_PT_VER
  sec : e'.sec = e.sec
  dir : e'.dir = e.dir

theorem SameChecks.trans {e e' e'' : Engine} (h : SameChecks e e') (h' : SameChecks e' e'') : SameChecks e e'' :=
  ⟨h'.ver.trans h.ver, h'.sec.trans h.sec, h'.dir.trans h.dir⟩

theorem sameChecks_inc (e : Engine) (a : Nat) (ha : CRY_PT_VER ≠ a) : SameChecks e (inc e a) :=
  ⟨reg_setReg_ne e _ ha, rfl, rfl⟩

theorem sameChecks_telSample (e : Engine) (op : ReqOp) (la : Nat) : SameChecks e (telSample e op la) := by
  unfold telSample
  split
  · dsimp only
    split
    · have hdraw : SameChecks e { e with tel := { e.tel with drawn := e.tel.drawn + 1 } } := ⟨rfl, rfl, rfl⟩
      have hcount := hdraw.trans (sameChecks_inc _ TEL_CNT_SAMPLE (by decide))
      split
      · exact hcount.trans ⟨rfl, rfl, rfl⟩
      · have hdrop := hcount.trans (sameChecks_inc _ TEL_CNT_SDROP (by decide))
        exact hdrop.trans ⟨rfl, rfl, rfl⟩
    · exact ⟨rfl, rfl, rfl⟩
  · exact ⟨rfl, rfl, rfl⟩

section
variable {e e' : Engine} (h : SameChecks e e')
include h

theorem SameChecks.isHdmDb (la : Nat) : isHdmDb e' la = isHdmDb e la := by
  have hver : curVer e' = curVer e := congrArg (wordField · _ _) h.ver
  unfold Machine.isHdmDb Machine.regionOf Machine.regionAt Machine.bankOf
  rw [hver, h.sec]

theorem SameChecks.getEnroll (a : Nat) : getEnroll e' a = getEnroll e a := by
  unfold Machine.getEnroll
  rw [h.dir]

theorem SameChecks.malformed (r : Req) : malformed e' r = malformed e r := by
  unfold Machine.malformed
  rw [h.isHdmDb, h.getEnroll]

end

/-! ## A committed request (R67, R72–R77, R314–R316) -/

/-- A request that passes the check goes on to the directory, or past it. -/
theorem passReq_of_passes {e : Engine} {r : Req} (h : Passes (newTxn e r e.clk.tb).1 r) (w : WayErr) :
    passReq e r e.clk.tb w = toDirectory (committed e r) (asTxn e r) w := by
  obtain ⟨hsafe, hdenied, hform, halive, hmask⟩ := h
  have hsame := sameChecks_telSample (newTxn e r e.clk.tb).1 r.op r.la
  rw [← hsame.malformed] at hform
  rw [← hsame.getEnroll, ← hsame.isHdmDb] at halive
  refine (if_neg (ne_true_of_eq_false hsafe)).trans <| (if_neg (ne_true_of_eq_false hdenied)).trans <|
    (if_neg (ne_true_of_eq_false hform)).trans <| (if_neg (ne_true_of_eq_false halive)).trans (if_neg hmask)

section
variable {e : Engine} {t : Txn} {w : WayErr}

theorem toDirectory_hdmH (h : isHdmDb e t.req.la = false) : toDirectory e t w = toQos e { t with cacheless := true } :=
  if_neg (ne_true_of_eq_false h)

theorem toDirectory_ue (h : isHdmDb e t.req.la = true) (hw : w = .ue) : toDirectory e t w = wayError e t.req.la w :=
  (if_pos h).trans (if_pos hw)

section
variable (h : isHdmDb e t.req.la = true) (hw : w ≠ .ue)
include h hw

theorem toDirectory_lookup0 (hop : isClass3 t.req.op = false) :
    toDirectory e t w = lookup0 (wayError e t.req.la w) t :=
  (if_pos h).trans <| (if_neg hw).trans (if_neg (ne_true_of_eq_false hop))

theorem toDirectory_lookup3 (hop : isClass3 t.req.op = true) :
    toDirectory e t w = lookup3 (wayError e t.req.la w) t :=
  (if_pos h).trans <| (if_neg hw).trans (if_pos hop)

end

end

/-- A command that is the arrival of a request of class `c` does with it what `Commits` says. -/
theorem commits_of_takes {i : WayErr → Instr} {s : State} {c : Nat} {r : Req}
    (hexec : ∀ w, exec (i w) s = .next (s.run fun _ e => arrive e r.port c fun e => takeReq e r w)) :
    Commits i s c r := by
  intro harrive w
  have hanswers {e' : Engine} (h : takeReq (useCredit s.fresh r.port c) r w = e') : Answers (i w) s e' :=
    (hexec w).trans (run_of_eq ((arrive_of_canArrive harrive _).trans h))
  refine ⟨fun hfifo => hanswers (if_pos hfifo), fun hfifo hpass => ?_⟩
  have hgo : takeReq (useCredit s.fresh r.port c) r w = _ :=
    (if_neg hfifo).trans (passReq_of_passes hpass w)
  exact ⟨fun h => hanswers (hgo.trans (toDirectory_hdmH h)), fun h hw => hanswers (hgo.trans (toDirectory_ue h hw)),
    fun h hw => ⟨fun hop => hanswers (hgo.trans (toDirectory_lookup0 h hw hop)),
      fun hop => hanswers (hgo.trans (toDirectory_lookup3 h hw hop))⟩⟩

/-- Settles O1: each of the eight requests is the arrival of its class (`commits_of_takes`). -/
theorem requestsPassIngress : Obligations.RequestsPassIngress := by
  intro s h st po m tg d
  exact ⟨commits_of_takes fun _ => rfl, commits_of_takes fun _ => rfl, commits_of_takes fun _ => rfl,
    commits_of_takes fun _ => rfl, commits_of_takes fun _ => rfl, commits_of_takes fun _ => rfl,
    commits_of_takes fun _ => rfl, commits_of_takes fun _ => rfl⟩

/-! ## Discarded packets (R70, R79, R87) -/

section
variable {s : State} {p : Nat} {h : Flit} {fs : List Flit}

/-- A discarded packet that uses a credit has it due again at once. -/
theorem discard_of_usesCredit (huse : usesCredit h = true) (harrive : CanArrive s p h.cls) (f : Engine → Engine) :
    discard s.fresh p h f = f (creditDue (useCredit s.fresh p h.cls) p h.cls) :=
  (if_pos huse).trans (arrive_of_canArrive harrive _)

theorem discard_of_not_usesCredit (huse : usesCredit h = false) (htakes : portTakes s.fresh p = true)
    (f : Engine → Engine) : discard s.fresh p h f = f s.fresh :=
  (if_neg (ne_true_of_eq_false huse)).trans (if_pos htakes)

theorem packetRewind_of_lastBad {e : Engine} (hbad : lastBad (h :: fs) = true) :
    packetRewind e p (h :: fs) = discard e p h fun e => inc e GC_ING_REWIND_CNT :=
  if_pos hbad

theorem framingError_of_unframed {e : Engine} (hgood : lastBad (h :: fs) = false) (hframe : framed (h :: fs) = none) :
    framingError e p (h :: fs) = discard e p h fun e => ingressFault e p GC_ING_STATUS_FRAMING :=
  if_neg (by rw [hgood, hframe]; simp)

end

/-! ## Credits and yields (R87, R88, R90, R92) -/

section
variable {e : Engine} {p c : Nat}

theorem creditReturn_of_due (hclk : clocked e = true) (hdue : nth (getPort e p).due c 0 ≠ 0)
    (hheld : withheld e p c = false) :
    creditReturn e p c = putPort e p { getPort e p with
      due := setNth (getPort e p).due c (nth (getPort e p).due c 0 - 1)
      held := setNth (getPort e p).held c (nth (getPort e p).held c 0 + 1)
      lastCred := setNth [0, 0, 0, 0] c 1 } :=
  if_pos (by simp [hclk, hheld, Nat.pos_of_ne_zero hdue])

theorem outboundCredit_of_room (htakes : portTakes e p = true) (hroom : nth (getPort e p).out c 0 < 63) :
    outboundCredit e p c = putPort e p { getPort e p with
      out := setNth (getPort e p).out c (nth (getPort e p).out c 0 + 1) } :=
  (if_pos htakes).trans (if_neg (Nat.not_le.2 hroom))

theorem outboundCredit_of_full (htakes : portTakes e p = true) (hfull : nth (getPort e p).out c 0 ≥ 63) :
    outboundCredit e p c = ingressFault e p GC_ING_STATUS_CRED_OVERFLOW :=
  (if_pos htakes).trans (if_pos hfull)

/-- A CreditYield that names what the sender holds takes every credit. -/
theorem creditYield_of_match {t y0 y1 y3 : Nat} (htakes : portTakes e p = true)
    (hrecall : (getPort e p).recallAt = some t) (h0 : nth (getPort e p).held 0 0 = y0)
    (h1 : nth (getPort e p).held 1 0 = y1) (h3 : nth (getPort e p).held 3 0 = y3) :
    creditYield e p y0 y1 y3 = putPort e p { getPort e p with held := [0, 0, 0, 0], recallAt := none } :=
  (if_pos htakes).trans <| (if_neg (by simp [hrecall])).trans (if_neg (by simp [h0, h1, h3]))

end

/-! ## The outbound arbiter (R91) -/

section
variable {e : Engine} {v : Port} {k : OutPkt}

/-- The first choice, or the second one where there is no first or `n` has reached 16. -/
def firstOr {α : Type} (c0 c2 : Option α) (n : Nat) : Option α :=
  match c2 with
  | some k => if n ≥ 16 then some k else c0.orElse fun _ => some k
  | none => c0

theorem nextOut_eq : nextOut e v =
    firstOr (if nth v.out 0 0 > 0 then v.outq.find? fun k => k.cls == 0 else none)
      (if nth v.out 2 0 > 0 ∧ isSafe e = false then v.outq.find? fun k => k.cls == 2 else none) v.run0 := by
  unfold nextOut firstOr
  cases (if nth v.out 2 0 > 0 ∧ isSafe e = false then v.outq.find? fun k => k.cls == 2 else none) <;> rfl

theorem firstOr_cases {α : Type} {c0 c2 : Option α} {a : α} {n : Nat} (h : firstOr c0 c2 n = some a) :
    c0 = some a ∨ (c2 = some a ∧ (n ≥ 16 ∨ c0 = none)) := by
  rcases c2 with _ | k
  · exact .inl h
  · by_cases hn : n ≥ 16
    · exact .inr ⟨(if_pos hn).symm.trans h, .inl hn⟩
    · have horElse : (c0.orElse fun _ => some k) = some a := (if_neg hn).symm.trans h
      rcases c0 with _ | k'
      · exact .inr ⟨horElse, .inr rfl⟩
      · exact .inl horElse

/-- What can be chosen: the oldest packet of class 0 with a credit, or of class 2 where none goes before it. -/
theorem nextOut_cases (h : nextOut e v = some k) :
    (nth v.out 0 0 > 0 ∧ v.outq.find? (fun q => q.cls == 0) = some k) ∨
    (nth v.out 2 0 > 0 ∧ v.outq.find? (fun q => q.cls == 2) = some k ∧
      (v.run0 ≥ 16 ∨ nth v.out 0 0 = 0 ∨ v.outq.find? (fun q => q.cls == 0) = none)) := by
  rcases firstOr_cases (nextOut_eq.symm.trans h) with h0 | ⟨h2, hturn⟩
  · exact .inl (Option.ite_none_right_eq_some.1 h0)
  · obtain ⟨⟨hcred, -⟩, hfind⟩ := Option.ite_none_right_eq_some.1 h2
    refine .inr ⟨hcred, hfind, hturn.imp_right fun h0 => ?_⟩
    by_cases hc : nth v.out 0 0 > 0
    · exact .inr ((if_pos hc).symm.trans h0)
    · exact .inl (Nat.eq_zero_of_not_pos hc)

theorem nextOut_class0 (h : nextOut e v = some k) (hcls : k.cls = 0) :
    nth v.out 0 0 > 0 ∧ v.outq.find? (fun q => q.cls == 0) = some k := by
  rcases nextOut_cases h with h0 | ⟨-, h2, -⟩
  · exact h0
  · have := List.find?_some h2
    simp [hcls] at this

theorem nextOut_class2 (h : nextOut e v = some k) (hcls : k.cls = 2) :
    nth v.out 2 0 > 0 ∧ (v.run0 ≥ 16 ∨ nth v.out 0 0 = 0 ∨ v.outq.find? (fun q => q.cls == 0) = none) := by
  rcases nextOut_cases h with ⟨-, h0⟩ | ⟨hcred, -, hturn⟩
  · have := List.find?_some h0
    simp [hcls] at this
  · exact ⟨hcred, hturn⟩

section
variable {p : Nat} (hclk : clocked e = true) (hnext : nextOut e (getPort e p) = some k)
include hclk hnext

theorem outboundSend_of_no_txn (h : k.txn.bind (getTxn e) = none) :
    outboundSend e p = telSent (putPort e p (portSent (getPort e p) k)) k false none := by
  have htxn : k.txn.bind (getTxn (putPort e p (portSent (getPort e p) k))) = none := h
  unfold outboundSend
  simp only [hclk, if_true, hnext]
  unfold portSent at htxn ⊢
  simp only [htxn]

theorem outboundSend_of_txn {t : Txn} (h : k.txn.bind (getTxn e) = some t) :
    outboundSend e p = packetLeft (putPort e p (portSent (getPort e p) k)) p k t := by
  have htxn : k.txn.bind (getTxn (putPort e p (portSent (getPort e p) k))) = some t := h
  unfold outboundSend
  simp only [hclk, if_true, hnext]
  unfold portSent at htxn ⊢
  simp only [htxn]

end

end

/-- Settles O3: each port command by its own equation. -/
theorem portCommandsAct : Obligations.PortCommandsAct := by
  refine ⟨fun s p h fs => ⟨fun hbad => ?_, fun hgood hframe => ?_⟩, fun s p c => ?_, fun s p k hclk hnext => ?_,
    fun s p a harrive => run_of_eq (arrive_of_canArrive harrive _)⟩
  · exact ⟨fun huse harrive => run_of_eq ((packetRewind_of_lastBad hbad).trans (discard_of_usesCredit huse harrive _)),
      fun huse htakes => run_of_eq ((packetRewind_of_lastBad hbad).trans (discard_of_not_usesCredit huse htakes _))⟩
  · exact ⟨fun huse harrive =>
        run_of_eq ((framingError_of_unframed hgood hframe).trans (discard_of_usesCredit huse harrive _)),
      fun huse htakes =>
        run_of_eq ((framingError_of_unframed hgood hframe).trans (discard_of_not_usesCredit huse htakes _))⟩
  · exact ⟨fun hclk hdue hheld => run_of_eq (creditReturn_of_due hclk hdue hheld),
      fun htakes hroom => run_of_eq (outboundCredit_of_room htakes hroom),
      fun htakes hfull => run_of_eq (outboundCredit_of_full htakes hfull),
      fun t y0 y1 y3 htakes hrecall h0 h1 h3 => run_of_eq (creditYield_of_match htakes hrecall h0 h1 h3)⟩
  · exact ⟨fun htxn => run_of_eq (outboundSend_of_no_txn hclk hnext htxn),
      fun t htxn => run_of_eq (outboundSend_of_txn hclk hnext htxn),
      nextOut_class0 hnext, nextOut_class2 hnext⟩

end Sys2Proof.Machine

/-! # Contests, watchdogs and the bound on a wait (R172–R180, R188) -/

namespace Sys2Proof.Machine

/-! ## A contest (R172, R173, R176) -/

section
variable {e : Engine} {n : Nat}

/-- The contest's engine before the grant or the preemption: the highest score stands in its register. -/
theorem holder_wr_topScore (v : Nat) : holder (wr e (CH_ARB_STATE_TOP_SCORE n) v) n = holder e n :=
  rd_wr_apart e v rfl ⟨Nat.zero_le 12, (by decide : 12 < 32), .inr (by decide : 12 < 30)⟩

section
variable {b : Bids}

theorem winner_me (h : b.me = some (topScore b)) : winner b = 2 := if_pos h

theorem winner_ts (hme : b.me ≠ some (topScore b)) (h : b.ts = some (topScore b)) : winner b = 3 :=
  (if_neg hme).trans (if_pos h)

theorem winner_sched (hme : b.me ≠ some (topScore b)) (hts : b.ts ≠ some (topScore b))
    (h : b.sched = some (topScore b)) : winner b = 1 :=
  (if_neg hme).trans <| (if_neg hts).trans (if_pos h)

theorem winner_none (hme : b.me = none) (hts : b.ts = none) (hsched : b.sched = none) : winner b = 0 := by
  unfold winner
  simp [hme, hts, hsched]

end

/-- The engine after a contest whose highest score has been stored: the winner's grant, or the holder's preemption. -/
def contested (t : Engine) (n w top : Nat) : Engine :=
  if holder t n = 0 then if w = 0 then t else syncLines (grantTo t n w) n else evalPreempt t n top

theorem arbContest_eq (e : Engine) (n : Nat) :
    let x := syncLines (blockYield (schedYieldAt e n (e.clk.cyc + 1)) n) n
    let r := contested (wr x (CH_ARB_STATE_TOP_SCORE n) (topScore (bids x n))) n (winner (bids x n)) (topScore (bids x n))
    arbContest e n = wr r (CH_ARB_STATE_HOLD_PRIO n) (holdPrio r n) :=
  rfl

section
variable {t : Engine} {w top : Nat}

theorem contested_free (h : holder t n = 0) (hw : w ≠ 0) : contested t n w top = syncLines (grantTo t n w) n :=
  (if_pos h).trans (if_neg hw)

theorem contested_idle (h : holder t n = 0) (hw : w = 0) : contested t n w top = t :=
  (if_pos h).trans (if_pos hw)

theorem contested_held (h : holder t n ≠ 0) : contested t n w top = evalPreempt t n top := if_neg h

end

end

/-- A contest whose stored scores leave the engine `r` answers `r` with the holder's PRIO. -/
theorem arbContest_answers {s : State} {n : Fin 16} {wait : Nat} {r : Engine} (hclk : clocked s.fresh = true)
    (h : let w := tick s.fresh wait
      let x := syncLines (blockYield (schedYieldAt w n (w.clk.cyc + 1)) n) n
      contested (wr x (CH_ARB_STATE_TOP_SCORE n) (topScore (bids x n))) n (winner (bids x n)) (topScore (bids x n)) = r) :
    Answers (.arbContest n wait) s (wr r (CH_ARB_STATE_HOLD_PRIO n) (holdPrio r n)) := by
  refine run_of_eq ((if_pos hclk).trans ?_)
  rw [← h]
  exact arbContest_eq _ _

/-! ## A watchdog's bite (R178, R188) -/

theorem watchdogBite_holder {e : Engine} {n h : Nat} (hclk : clocked e = true) (hh : holder e n = h) (h0 : h ≠ 0) :
    watchdogBite e n = syncLines (biteBlock (tickTo e (wdSince e n + wdLimit e n)) n h) n := by
  subst hh
  exact if_pos (by simp [hclk, h0])

section
variable (e : Engine) (n : Nat)

theorem biteBlock_scheduler : biteBlock e n 1 =
    raise (sqSet (dropGrant e n) (CH_ARB_STATUS n) [(CH_ARB_STATUS_WD_DATA n, 1)]) (0x20 + n) .fatal (synOf 0 0) :=
  if_pos rfl

theorem biteBlock_maintenance :
    let x := sqSet (dropGrant e n) (CH_ARB_STATUS n) [(CH_ARB_STATUS_WD_MAINT n, 1)]
    biteBlock e n 2 = judgeAll (raise x (0x30 + n) .contained (meBiteSyn x n)) n :=
  (if_neg (by decide)).trans (if_pos rfl)

theorem biteBlock_training :
    let x := sqSet (dropGrant e n) (CH_ARB_STATUS n) [(CH_ARB_STATUS_WD_TRAIN n, 1)]
    biteBlock e n 3 =
      resetTrain (raise x (0x40 + n) .contained (synOf 2 (rd x (CH_TRN_STATE_STEP n) * 2 ^ 7))) n :=
  (if_neg (by decide)).trans (if_neg (by decide))

end

/-! ## The bound on a wait (R180) -/

section
variable {e : Engine} {n : Nat}

/-- A field of three bits is at most 7. -/
theorem rd_le_seven (e : Engine) {f : Fld} (h : f.hi + 1 - f.lo = 3) : rd e f ≤ 7 := by
  have hlt := wordField_lt (reg e f.addr) f.hi f.lo
  rw [h] at hlt
  exact Nat.le_of_lt_succ hlt

theorem mePrio_le (k : Nat) : mePrio e n k ≤ 7 := by
  unfold mePrio
  split
  case h_6 => exact Nat.zero_le 7
  all_goals exact rd_le_seven e rfl

theorem foldl_max_le {l : List Nat} {a m : Nat} (ha : a ≤ m) (hl : ∀ x ∈ l, x ≤ m) : l.foldl max a ≤ m := by
  induction l generalizing a with
  | nil => exact ha
  | cons x xs ih =>
    exact ih (max_le ha (hl x List.mem_cons_self)) fun y hy => hl y (List.mem_cons_of_mem x hy)

theorem schedPrio_le (hpri : ∀ r ∈ (getChan e n).rq, r.pri ≤ 7) (scs : List Nat) : schedPrio e n scs ≤ 7 := by
  unfold schedPrio
  dsimp only
  split
  · exact le_rfl
  · refine max_le (by split <;> decide) (foldl_max_le (rd_le_seven e rfl) fun x hx => ?_)
    obtain ⟨r, hr, rfl⟩ := List.mem_map.1 hx
    exact hpri r (List.mem_of_mem_filter hr)

theorem holdPrio_le (hpri : ∀ r ∈ (getChan e n).rq, r.pri ≤ 7) : holdPrio e n ≤ 7 := by
  unfold holdPrio
  split
  · exact schedPrio_le hpri _
  · exact mePrio_le _
  · exact rd_le_seven e rfl
  · exact Nat.zero_le 7

theorem posted_of_le {b : Option Nat} {t : Nat} (hb : b = some t) (ht : t ≤ e.clk.cyc) : posted e b = some t := by
  subst hb
  simp [posted, ht]

/-- A bid that was posted 1,793 CTL cycles ago scores more than 7 × 256. -/
theorem lt_scoreOf {t : Nat} (ht : t + 1793 ≤ e.clk.cyc) (prio : Nat) : 1792 < scoreOf e t prio := by
  unfold scoreOf
  omega

/-- The highest score is above what one of the bids is above. -/
theorem lt_topScore {b : Bids} {m v : Nat} (hv : m < v) (h : b.me = some v ∨ b.ts = some v ∨ b.sched = some v) :
    m < topScore b := by
  unfold topScore
  rcases h with h | h | h <;> simp [h, hv]

/-- The scheduler's bid is the higher of those of its subchannels. -/
theorem bids_sched {sc t : Nat} (hsc : sc = 0 ∨ sc = 1) (h : nth (getChan e n).arb.park sc none = some t)
    (ht : t ≤ e.clk.cyc) : ∃ v, (bids e n).sched = some v ∧ scoreOf e t (schedPrio e n [sc]) ≤ v := by
  have hp := posted_of_le h ht
  unfold bids
  rcases hsc with rfl | rfl
  · cases h1 : posted e (nth (getChan e n).arb.park 1 none) <;> simp [hp, h1]
  · cases h0 : posted e (nth (getChan e n).arb.park 0 none) <;> simp [hp, h0]

theorem lt_topScore_of_waits {t : Nat} (ht : t + 1793 ≤ e.clk.cyc)
    (h : (getChan e n).arb.me = some t ∨ (getChan e n).arb.ts = some t ∨
      nth (getChan e n).arb.park 0 none = some t ∨ nth (getChan e n).arb.park 1 none = some t) :
    1792 < topScore (bids e n) := by
  have hle : t ≤ e.clk.cyc := by omega
  have hsched {sc : Nat} (hsc : sc = 0 ∨ sc = 1) (hp : nth (getChan e n).arb.park sc none = some t) :
      1792 < topScore (bids e n) := by
    obtain ⟨v, hv, hge⟩ := bids_sched hsc hp hle
    exact lt_topScore ((lt_scoreOf ht _).trans_le hge) (.inr (.inr hv))
  rcases h with h | h | h | h
  · exact lt_topScore (lt_scoreOf ht _) (.inl (congrArg (Option.map _) (posted_of_le h hle)))
  · exact lt_topScore (lt_scoreOf ht _) (.inr (.inl (congrArg (Option.map _) (posted_of_le h hle))))
  · exact hsched (.inl rfl) h
  · exact hsched (.inr rfl) h

end

/-- Settles O11: a contest by its winner, a bite by its holder, and the bound because every PRIO is at most 7. -/
theorem contestGrantsAndWatchdogBites : Obligations.ContestGrantsAndWatchdogBites := by
  refine ⟨fun s n wait hclk => ?_, fun s n hclk => ?_, fun e n hn hpri => ?_⟩
  · intro w e b t out
    have hhold : holder t n = holder e n := holder_wr_topScore _
    refine ⟨fun hfree => ?_, fun hheld => arbContest_answers hclk (contested_held (by rwa [hhold]))⟩
    have hfree' : holder t n = 0 := hhold.trans hfree
    have hgrant {k : Nat} (hk : winner b = k) (h0 : k ≠ 0) : out (syncLines (grantTo t n k) n) :=
      arbContest_answers hclk (by subst hk; exact contested_free hfree' h0)
    exact ⟨fun hme => hgrant (winner_me hme) (by decide), fun hme hts => hgrant (winner_ts hme hts) (by decide),
      fun hme hts hs => hgrant (winner_sched hme hts hs) (by decide),
      fun hme hts hs => arbContest_answers hclk (contested_idle hfree' (winner_none hme hts hs))⟩
  · intro e flag
    have hbite {h : Nat} {r : Engine} (hh : holder s.fresh n = h) (h0 : h ≠ 0) (hr : biteBlock e n h = r) :
        Answers (.watchdogBite n) s (syncLines r n) :=
      run_of_eq (hr ▸ watchdogBite_holder hclk hh h0)
    exact ⟨fun h => hbite h (by decide) (biteBlock_scheduler e n), fun h => hbite h (by decide) (biteBlock_maintenance e n),
      fun h => hbite h (by decide) (biteBlock_training e n)⟩
  · intro a t ht hwait
    have htop := lt_topScore_of_waits ht hwait
    exact ⟨htop, lt_of_le_of_lt (Nat.mul_le_mul_right 256 (holdPrio_le hpri)) htop⟩

end Sys2Proof.Machine

/-! # Refresh, mitigation, temperature, alerts and parity recovery (R194–R216, R240–R245, R464) -/

namespace Sys2Proof.Machine

/-! ## Registers across MEn's and TSn's commands (R200, R464) -/

/-- What a channel's queues show of themselves changes no global register, those below the channels', and no clock. -/
theorem reg_putChan (e : Engine) (n : Nat) (c : Chan) {a : Nat} (h : a < 0x100000) : reg (putChan e n c) a = reg e a := by
  have hocc : a ≠ CH_SCHED_OCC n := by unfold CH_SCHED_OCC; omega
  have hstatus : a ≠ CH_SCHED_STATUS n := by unfold CH_SCHED_STATUS; omega
  have hput (w : Word) (fs : List (Fld × Nat)) :
      reg (sqSet (setReg { e with chans := tput chanReset e.chans n c } (CH_SCHED_OCC n) w) (CH_SCHED_STATUS n) fs) a =
        reg e a :=
    (reg_sqSet_ne _ fs hstatus).trans (reg_setReg_ne _ w hocc)
  unfold putChan
  dsimp only
  split
  · rfl
  · split <;> split
    · rw [reg_sqSet_ne _ _ hstatus, reg_sqSet_ne _ _ hstatus, hput]
    · rw [reg_sqSet_ne _ _ hstatus, hput]
    · rw [reg_sqSet_ne _ _ hstatus, hput]
    · exact hput _ _

theorem putChan_clk (e : Engine) (n : Nat) (c : Chan) : (putChan e n c).clk = e.clk := by
  have hput (w : Word) (fs : List (Fld × Nat)) :
      (sqSet (setReg { e with chans := tput chanReset e.chans n c } (CH_SCHED_OCC n) w) (CH_SCHED_STATUS n) fs).clk =
        e.clk :=
    sqSet_clk _ _ fs
  unfold putChan
  dsimp only
  split
  · rfl
  · split <;> split
    · rw [sqSet_clk, sqSet_clk, hput]
    · rw [sqSet_clk, hput]
    · rw [sqSet_clk, hput]
    · exact hput _ _

section
variable {a : Nat} (ha : a < 0x100000)
include ha

/-- A command other than ACT changes no global register. -/
theorem reg_issueCmd (e : Engine) (n sc : Nat) {d : DCmd} (h : d.kind ≠ .act) :
    reg (issueCmd e n sc d) a = reg e a := by
  cases d with
  | mk kind rank bg bank row t fgr tim col brc data =>
    cases kind
    case act => exact absurd rfl h
    all_goals exact reg_putChan e n _ ha

theorem reg_insertAt (e : Engine) (n sc : Nat) {k : DKind} (l : Loc) (h : k ≠ .act) :
    reg (insertAt e n sc k l) a = reg e a := by
  have hissue (t : Nat) : reg (issueCmd (toPhy e t) n sc (mkCmd e n k { l with sc := sc } t)) a = reg e a :=
    reg_issueCmd ha (toPhy e t) n sc h
  unfold insertAt
  dsimp only
  split
  · exact hissue _
  · rw [reg_putChan _ _ _ ha, hissue]

theorem reg_placeOne (e : Engine) (n t i : Nat) : reg (placeOne e n t i) a = reg e a := by
  have hcnt : a ≠ CH_CNT_MIT n := by unfold CH_CNT_MIT; omega
  have hinsert (l : Loc) : reg (insertAt e n l.sc .drfm l) a = reg e a := reg_insertAt ha e n _ l (by decide)
  unfold placeOne
  split
  · split
    · rw [reg_inc, if_neg hcnt, mapPRank, reg_putChan _ _ _ ha, hinsert]
    · rfl
  · rfl

theorem reg_placeEach (n t k : Nat) (e : Engine) : reg (placeEach n t k e) a = reg e a := by
  induction k generalizing e with
  | zero => rfl
  | succ k ih =>
    unfold placeEach
    split
    · rw [ih, reg_placeOne ha]
    · rfl

theorem reg_placeDeferred (e : Engine) (n t : Nat) : reg (placeDeferred e n t) a = reg e a := by
  unfold placeDeferred
  split
  · exact reg_placeEach ha n t 4 e
  · rfl

theorem reg_issueAt (e : Engine) (n sc : Nat) {k : DKind} (l : Loc) (hk : k ≠ .act) :
    reg (issueAt e n sc k l) a = reg e a := by
  have hissue (x : Engine) (t : Nat) :
      reg (issueCmd (toPhy x t) n sc (mkCmd x n k { l with sc := sc } t)) a = reg x a :=
    reg_issueCmd ha (toPhy x t) n sc hk
  unfold issueAt
  exact (hissue _ _).trans (reg_placeDeferred ha e n _)

/-- PDX changes no global register. -/
theorem reg_wakeRank (e : Engine) (n i : Nat) : reg (wakeRank e n i) a = reg e a := by
  have hpdx (x : Engine) (sc : Nat) : reg (issueAt x n sc .pdx (rankLoc e n i 0)) a = reg x a :=
    reg_issueAt ha x n sc _ (by decide)
  unfold wakeRank
  split
  · rw [mapPRank, reg_putChan _ _ _ ha, issueBoth, hpdx, hpdx]
  · rfl

end

theorem prankIx_wakeRank (e : Engine) (n i rank : Nat) : prankIx (wakeRank e n i) rank = prankIx e rank := by
  have hcid : cidBits (wakeRank e n i) = cidBits e :=
    congrArg (fun w => wordField w _ _) (reg_wakeRank (a := GC_GRIST_CTRL) (by decide) e n i)
  unfold prankIx
  rw [hcid]

/-! ## MEn's operations under its grant (R178) -/

/-- Under MEn's grant for one of the operation's kinds, what the operation does is MEn's, and ends in a release. -/
theorem meOp_of_granted {e : Engine} {n : Nat} (ks : List Nat) {ok : Engine → Bool} (hh : holder e n = 2)
    (hk : rd e (CH_ARB_STATE_ME_KIND n) ∈ ks) (hok : ok (toGrant e n) = true) (f : Engine → Engine) :
    meOp e n ks ok f = meDone (f (toGrant e n)) n :=
  (if_pos ⟨hh, List.contains_iff_mem.2 hk⟩).trans (if_pos hok)

/-! ## The refresh schedule (R194–R200, R208) -/

section
variable {e : Engine} {n i : Nat}

theorem refTick_of_serves (hlive : chanLive e n = true) (hserves : rankServes e n i = true) :
    let m := mapPRank (tick e ((getPRank (getChan e n) i).tickAt - e.clk.cyc)) n i fun p =>
      { p with tickAt := nextTick (tick e ((getPRank (getChan e n) i).tickAt - e.clk.cyc)) n i p.tickAt }
    refTick e n i = syncLines (judge (setDebt m n i (min 15 (debt m n i + 1))) n i) n :=
  if_pos (by rw [hlive, hserves]; rfl)

theorem oppRefresh_of_idle (hlive : chanLive e n = true) (hserves : rankServes e n i = true)
    (hen : on e (CH_REF_CTRL_REF_EN n) = true) (hidle : rankQueued e (getChan e n) i = false)
    (hdebt : -(rd e (CH_REF_CTRL_PULL_MAX n) : Int) < debt e n i) :
    oppRefresh e n i = syncLines (mapPRank (tick e
      ((getPRank (getChan e n) i).lastUse + rd e (CH_REF_CTRL_IDLE_REF n) - e.clk.cyc)) n i fun p =>
        { p with opp := true }) n :=
  if_pos (by simp [hlive, hserves, hen, hidle, hdebt])

section
variable {w : Engine} (hw : wakeRank e n i = w)
include hw

theorem refreshWork_mode (hmode : modeDiffers w n i = true) : refreshWork e n i = writeMode w n i := by
  subst hw
  exact if_pos hmode

theorem refreshWork_plain (hmode : modeDiffers w n i = false) (hurgent : on w (urgentF n i) = false) :
    refreshWork e n i = refreshCmd w n i := by
  subst hw
  exact (if_neg (ne_true_of_eq_false hmode)).trans (if_neg (ne_true_of_eq_false hurgent))

theorem refreshWork_urgent (hmode : modeDiffers w n i = false) (hurgent : on w (urgentF n i) = true) :
    refreshWork e n i = deferDrfm (refreshCmd w n i) n i
      (if gran (refreshCmd w n i) n = 2 then some (getPRank (getChan w n) i).unit else none) := by
  subst hw
  exact (if_neg (ne_true_of_eq_false hmode)).trans (if_pos hurgent)

end

/-- A deferred DRFM that no alert holds issues in its first legal slot. -/
theorem deferredCmd_of_free {l : Loc} (hlive : chanLive e n = true)
    (hdef : (getPRank (getChan e n) i).deferred = some l)
    (hfree : heldAt e (getChan e n) l.rank
      (earliest (cidBits e) (getSub (getChan e n) l.sc).log (mkCmd e n .drfm l 0) (nowPhy e)) = false) :
    deferredCmd e n i = syncLines (inc (mapPRank (insertAt e n l.sc .drfm l) n i fun p =>
      { p with deferred := none }) (CH_CNT_MIT n)) n := by
  have hslot : deferredSlot e n i =
      some (earliest (cidBits e) (getSub (getChan e n) l.sc).log (mkCmd e n .drfm l 0) (nowPhy e)) := by
    unfold deferredSlot
    simp only [hdef, Option.bind_some, hfree, Bool.false_eq_true, if_false]
  unfold deferredCmd placeOne
  simp only [hdef, hslot, hlive, if_true, le_refl]

theorem rgEpochEnd_of_credits (h : (getPRank (getChan e n) i).credits ≥ 16384) :
    rgEpochEnd e n i = syncLines (putChan e n (mapBanks
      (putPRank (getChan e n) i { getPRank (getChan e n) i with credits := (getPRank (getChan e n) i).credits - 16384 })
      ([0, 1].flatMap fun sc => rankBanks e n sc i) fun b => { b with rg := [], n := 0, capped := false })) n :=
  if_pos h

/-! ## Mitigation and power-down (R207, R213, R464) -/

section
variable (hh : holder e n = 2) (hk : rd e (CH_ARB_STATE_ME_KIND n) = 2 ∨ rd e (CH_ARB_STATE_ME_KIND n) = 5)
include hh hk

theorem mitigationOp_of_granted {l : Loc} (hmay : canMitigate (toGrant e n) n { l with ch := n } = true) :
    mitigationOp e n l =
      meDone (mitigate (wakeRank (toGrant e n) n (prankIx e l.rank)) n { l with ch := n }) n := by
  have hop := meOp_of_granted [2, 5] (ok := fun e => canMitigate e n { l with ch := n }) hh (by simpa using hk) hmay
    fun t => mitigate (wakeRank t n (prankIx e l.rank)) n { l with ch := n }
  exact hop

/-- An RFMsb goes to a bank index of which one bank's count has reached RAAIMT. -/
theorem rfmOp_of_granted {sc rank bank g : Nat} (hg : g < 8)
    (hmay : meMay (toGrant e n) n (prankIx e rank) = true) (hen : on (toGrant e n) (CH_RG_CTRL_RG_EN n) = true)
    (hreq : on (toGrant e n) (CH_RG_RFM_RFM_REQ n) = true)
    (hraa : (bankAt (getChan (toGrant e n) n) ⟨n, sc, rank, g, bank, 0, 0⟩).raa ≥
      rd (toGrant e n) (CH_RG_RFM_RAAIMT n)) :
    rfmOp e n sc rank bank = meDone (rfmIssue (toGrant e n) n ⟨n, sc, rank, 0, bank, 0, 0⟩) n := by
  have hany : ((List.range 8).any fun g => decide ((bankAt (getChan (toGrant e n) n) ⟨n, sc, rank, g, bank, 0, 0⟩).raa ≥
      rd (toGrant e n) (CH_RG_RFM_RAAIMT n))) = true :=
    List.any_eq_true.2 ⟨g, List.mem_range.2 hg, decide_eq_true hraa⟩
  have hready : (meMay (toGrant e n) n (prankIx e rank) && on (toGrant e n) (CH_RG_CTRL_RG_EN n) &&
      on (toGrant e n) (CH_RG_RFM_RFM_REQ n) && (List.range 8).any fun g =>
        decide ((bankAt (getChan (toGrant e n) n) ⟨n, sc, rank, g, bank, 0, 0⟩).raa ≥
          rd (toGrant e n) (CH_RG_RFM_RAAIMT n))) = true := by
    rw [hmay, hen, hreq, hany]
    rfl
  have hop := meOp_of_granted [2, 5] (ok := fun e' => meMay e' n (prankIx e rank) && on e' (CH_RG_CTRL_RG_EN n) &&
      on e' (CH_RG_RFM_RFM_REQ n) && (List.range 8).any fun g =>
        decide ((bankAt (getChan e' n) ⟨n, sc, rank, g, bank, 0, 0⟩).raa ≥ rd e' (CH_RG_RFM_RAAIMT n)))
    hh (by simpa using hk) hready fun t => rfmIssue t n ⟨n, sc, rank, 0, bank, 0, 0⟩
  exact hop

end

theorem rfmIssue_eq (e : Engine) (n : Nat) (l : Loc) :
    let w := wakeRank e n (prankIx e l.rank)
    let isOpen := (rankBanks w n l.sc (prankIx e l.rank)).any fun b =>
      b.bank == l.bank && (bankAt (getChan w n) b).row.isSome
    rfmIssue e n l = inc (issueAt (if isOpen then issueAt w n l.sc .presb l else w) n l.sc .rfmsb l) (CH_CNT_RFM n) := by
  intro w isOpen
  have hopen : rfmOpen w n l = isOpen := by
    unfold rfmOpen
    rw [prankIx_wakeRank]
  unfold rfmIssue
  dsimp only
  rw [hopen]

theorem powerDown_of_idle (hlive : chanLive e n = true) (hserves : rankServes e n i = true)
    (hstate : rd e PWR_STATE_STATE = 1) (hpde : rd e PWR_CTRL_PDE_IDLE ≠ 0) (hopen : rankOpen e n i none = false)
    (hidle : rankQueued e (getChan e n) i = false) (hpd : (getPRank (getChan e n) i).pd = false)
    (hfree : rankFree e n i = true) :
    let t := tick e (lastUsed e n i + rd e PWR_CTRL_PDE_IDLE - e.clk.cyc)
    powerDown e n i = mapPRank (issueBoth t n .pde (rankLoc t n i 0)) n i fun p => { p with pd := true } :=
  if_pos (by simp [hlive, hserves, hstate, hpde, hopen, hidle, hpd, hfree])

/-! ## Temperature and channel time (R201–R203, R216, R219, R245) -/

theorem tempPoll_starts (hlive : chanLive e n = true) (hwant : (getChan e n).mrrWant = false) (temps mr4 : Nat) :
    tempPoll e n temps mr4 = startPoll e n temps :=
  (if_pos hlive).trans (if_neg (ne_true_of_eq_false hwant))

theorem tempPoll_reads (hlive : chanLive e n = true) (hwant : (getChan e n).mrrWant = true) (temps mr4 : Nat) :
    tempPoll e n temps mr4 = readMr4 e n mr4 :=
  (if_pos hlive).trans (if_pos hwant)

/-- MEn's reads of MR4 from every physical rank that is awake, and what the channel does with them. -/
def mr4Taken (t : Engine) (n mr4 : Nat) : Engine :=
  let is := awakeRanks t n
  let r := is.foldl (fun e i => issueBoth (wakeRank e n i) n .mrr (rankLoc e n i 0)) t
  let v := putChan r n { getChan r n with mrrWant := false, mr4 := is.map fun i => (i, mr4 / 2 ^ (2 * i) % 4) }
  is.foldl (fun e i => if mr4 / 2 ^ (2 * i) % 4 ≥ 2 then thermCrit e n else e) (tempUpdate v n)

theorem readMr4_of_granted {mr4 : Nat} (hh : holder e n = 2) (hk : rd e (CH_ARB_STATE_ME_KIND n) = 1)
    (hwant : (getChan e n).mrrWant = true)
    (hfree : ∀ i ∈ awakeRanks (toGrant e n) n, rankFree (toGrant e n) n i = true) :
    readMr4 e n mr4 = meDone (mr4Taken (toGrant e n) n mr4) n := by
  have hready : ((getChan (toGrant e n) n).mrrWant &&
      (awakeRanks (toGrant e n) n).all fun i => rankFree (toGrant e n) n i) = true :=
    Bool.and_eq_true_iff.2 ⟨hwant, List.all_eq_true.2 hfree⟩
  have hop := meOp_of_granted [1]
    (ok := fun e => (getChan e n).mrrWant && (awakeRanks e n).all fun i => rankFree e n i) hh (by simp [hk]) hready
    fun t => mr4Taken t n mr4
  exact hop

theorem tempIbiBus_delivers {k h temp : Nat} (hn : n = 2 * k + h / 2) (hlive : chanLive e n = true)
    (hbus : (getChan e (2 * k)).i3c.queue = []) :
    tempIbiBus e k h temp = tempTrigger (tempIbi e n (h % 2) temp) n := by
  subst hn
  exact (if_pos (by rw [hbus]; rfl)).trans (if_pos hlive)

theorem tempIbiBus_waits {k h temp : Nat} (hbus : (getChan e (2 * k)).i3c.queue ≠ []) :
    let c := getChan e (2 * k)
    tempIbiBus e k h temp = putChan e (2 * k) { c with i3c := { c.i3c with ibis := c.i3c.ibis ++ [(h, temp)] } } :=
  if_neg (by simpa using hbus)

/-- The engine at the end of a millisecond, whose busy time stands in its register (R216). -/
def mntReported (e : Engine) (n : Nat) : Engine :=
  let t := tickTo e ((getChan e n).busyAt + msUnits 1)
  let c := getChan t n
  let late := ((c.pranks.flatMap (·.busyTo)).map fun b => b - t.clk.cyc).sum
  setReg (putChan t n { c with busy := late, busyAt := t.clk.nominal }) (CH_MNT_TIME n)
    (BitVec.ofNat 32 (c.busy - late))

theorem mntReported_clk (e : Engine) (n : Nat) :
    (mntReported e n).clk = (tickTo e ((getChan e n).busyAt + msUnits 1)).clk := by
  unfold mntReported
  simp only [setReg_clk, putChan_clk]

/-- The busy time that the end of a millisecond reports. -/
def mntBusy (e : Engine) (n : Nat) : Nat :=
  let t := tickTo e ((getChan e n).busyAt + msUnits 1)
  let c := getChan t n
  c.busy - ((c.pranks.flatMap (·.busyTo)).map fun b => b - t.clk.cyc).sum

/-- What a busy time takes from the channel's bandwidth above the charge (R219). -/
def mntExcess (w : Engine) (n busy : Nat) : Nat :=
  let cycles := binRate w.clk.bin * 125
  let frac : Rat := (busy : Rat) / (cycles * 2 * pranks w)
  let charge : Rat := (mntCharge w n (on w (CH_TEMP_STATE_HOT n)) : Rat) / 10000
  ratNat ((frac - charge) * peakBw w)

theorem mntExcess_eq {w : Engine} {busy bin : Nat} (h : w.clk.bin = bin) : mntExcess w n busy =
    ratNat (((busy : Rat) / ((binRate bin * 125 : Nat) * 2 * pranks w) -
      (mntCharge w n (on w (CH_TEMP_STATE_HOT n)) : Rat) / 10000) * peakBw w) := by
  subst h
  rfl

theorem mntInterval_eq (hclk : clocked e = true) :
    let w := mntReported e n
    let x := mntExcess w n (mntBusy e n)
    mntInterval e n = if x = rd w (QOS_DROP_EXCESS n) then w else shedAsk (wr w (QOS_DROP_EXCESS n) x) := by
  unfold mntInterval
  rw [if_pos hclk]
  rfl

theorem mntInterval_keeps {x : Nat} (hclk : clocked e = true)
    (hx : mntExcess (mntReported e n) n (mntBusy e n) = x) (h : x = rd (mntReported e n) (QOS_DROP_EXCESS n)) :
    mntInterval e n = mntReported e n :=
  (mntInterval_eq hclk).trans (if_pos (hx.trans h))

theorem mntInterval_asks {x : Nat} (hclk : clocked e = true)
    (hx : mntExcess (mntReported e n) n (mntBusy e n) = x) (h : x ≠ rd (mntReported e n) (QOS_DROP_EXCESS n)) :
    mntInterval e n = shedAsk (wr (mntReported e n) (QOS_DROP_EXCESS n) x) := by
  subst hx
  exact (mntInterval_eq hclk).trans (if_neg h)

end

/-! ## Alerts, back-offs and the parity recovery (R214, R240–R242) -/

section
variable {e : Engine} {n s : Nat}

theorem alertAssert_starts (hlive : chanLive e n = true) (hslot : s = 0 ∨ twoSlots e = true)
    (hnone : tlookup (getChan e n).alerts s = none) : alertAssert e n s = putAlert e n s
      (some ⟨e.clk.cyc, false, false, e.clk.cyc - rd e (CH_TRN_CFG_PAR_WIN n), none, 0, none⟩) := by
  have hgo : (chanLive e n && (s == 0 || twoSlots e)) = true := by simpa [hlive] using hslot
  unfold alertAssert
  simp only [hgo, if_true, hnone]

/-- The engine in which an alert of slot `s` has lasted `w` cycles, or as long as it can. -/
def alertTime (e : Engine) (n : Nat) (a : Alert) (w : Nat) : Engine :=
  tick e (a.at_ + min w (rd e (CH_RG_ABO_PW_MAX n) * 64) - e.clk.cyc)

section
variable {a : Alert} {w : Nat} (ha : tlookup (getChan e n).alerts s = some a) (hpar : a.parity = false)
include ha hpar

theorem alertClassify_parity (hlo : w < rd e (CH_RG_ABO_PW_MIN n) * 4) : alertClassify e n s w =
    putAlert (alertTime e n a w) n s (some { a with
      parity := true, prior := none, winFrom := a.prior.elim a.winFrom fun p => min p.1 a.winFrom }) := by
  unfold alertClassify
  simp only [ha, hpar, Bool.false_eq_true, if_false, hlo, if_true]
  rfl

section
variable (hlo : rd e (CH_RG_ABO_PW_MIN n) * 4 ≤ w)
include hlo

theorem alertClassify_backoff (hhi : w ≤ rd e (CH_RG_ABO_PW_MAX n) * 64) :
    let t := alertTime e n a w
    alertClassify e n s w = syncLines (inc (sqSet
      (putAlert (putAlert t n s (restarted a)) n (s + 2) (some { a with backoff := true, prior := none }))
      (CH_MNT_STATUS n) [(CH_MNT_STATUS_ABO n, 1), (CH_MNT_STATUS_PRANK n, (slotRanks t s).headD 0)]) (CH_CNT_ABO n)) n := by
  unfold alertClassify
  simp only [ha, hpar, Bool.false_eq_true, if_false, Nat.not_lt.2 hlo, hhi, if_true]
  rfl

theorem alertClassify_unidentified (hhi : rd e (CH_RG_ABO_PW_MAX n) * 64 < w) :
    let t := alertTime e n a w
    let i := (slotRanks t s).headD 0
    alertClassify e n s w = askLog (meFault (sqSet (putAlert t n s (restarted a)) (CH_MNT_STATUS n)
      [(CH_MNT_STATUS_ALERT_UNID n, 1), (CH_MNT_STATUS_PRANK n, i)]) n i (CH_MNT_STATUS_ALERT_UNID n)) n s := by
  unfold alertClassify
  simp only [ha, hpar, Bool.false_eq_true, if_false, Nat.not_lt.2 hlo, Nat.not_le.2 hhi]
  rfl

end

end

/-- The engine in which the ranks of the back-off have taken RFMab once more. -/
def backoffSent (t : Engine) (n s : Nat) : Engine :=
  (backoffRanks t n s).foldl (fun e i => inc (issueBoth e n .rfmab (rankLoc e n i 0)) (CH_CNT_RFM n))
    ((backoffRanks t n s).foldl (fun e i => closeRank (wakeRank e n i) n i) t)

section
variable {a : Alert}

theorem alertBackoff_of_granted (ha : tlookup (getChan e n).alerts (s + 2) = some a) (hupto : a.upto = none)
    (hh : holder e n = 2) (hkind : rd e (CH_ARB_STATE_ME_KIND n) = 5)
    (hmay : ∀ i ∈ backoffRanks (toGrant e n) n s, meMay (toGrant e n) n i = true) :
    alertBackoff e n s = meDone (backoffRound (toGrant e n) n s a) n := by
  have hop := meOp_of_granted [5] (ok := fun e => (backoffRanks e n s).all fun i => meMay e n i) hh
    (by simp [hkind]) (List.all_eq_true.2 hmay) fun e => backoffRound e n s a
  unfold alertBackoff
  simpa only [ha, hupto, Option.isSome_none, Bool.false_eq_true, if_false] using hop

theorem backoffRound_goes_on (t : Engine) (h : a.rounds + 1 < rd (backoffSent t n s) (CH_RG_ABO_RFM_CNT n)) :
    backoffRound t n s a = putAlert (backoffSent t n s) n (s + 2) (some { a with rounds := a.rounds + 1 }) :=
  if_neg (Nat.not_le.2 h)

theorem backoffRound_ends (t : Engine) (h : rd (backoffSent t n s) (CH_RG_ABO_RFM_CNT n) ≤ a.rounds + 1) :
    let f := backoffSent t n s
    backoffRound t n s a = askLog (putAlert f n (s + 2) (some { a with
      rounds := a.rounds + 1, upto := some (lastRfmab f n + 4 * rd f (CH_TIM7_TRFMAB n)) })) n s :=
  if_pos h

theorem parityRecovery_of_parity (ha : tlookup (getChan e n).alerts s = some a) (hpar : a.parity = true) :
    let t := tick (putAlert (parityReplay e n s a) n s none) 1
    parityRecovery e n s = syncLines (askLog (parityStorm (inc (sqSet t (CH_TRN_STATUS n)
      [(CH_TRN_STATUS_PAR_REPLAY n, 1)]) (CH_CNT_PAR n)) n s) n s) n := by
  unfold parityRecovery
  simp only [ha, hpar, if_true]

end

end

/-! ## The obligation -/

section
variable {s : State} {n : Fin 16}

theorem refresh_answers (i : Fin 4) (hh : holder s.fresh n = 2)
    (hkind : rd s.fresh (CH_ARB_STATE_ME_KIND n) = 1 ∨ rd s.fresh (CH_ARB_STATE_ME_KIND n) = 5)
    (hwant : refreshWanted (toGrant s.fresh n) n i = true) {r : Engine}
    (hr : refreshWork (toGrant s.fresh n) n i = r) : Answers (.refreshOperation n i) s (meDone r n) :=
  run_of_eq (hr ▸ meOp_of_granted [1, 5] hh (by simpa using hkind) hwant _)

end

/-- Settles O14: each maintenance command by its own equation, and MEn's operations under its grant by
`meOp_of_granted`. -/
theorem maintenanceActs : Obligations.MaintenanceActs := by
  refine ⟨⟨fun s n i hlive => ?_, fun s n hlive => ?_⟩, fun s n hclk => ?_, fun s n slot hlive hslot => ?_⟩
  · intro p
    refine ⟨fun hserves => run_of_eq (refTick_of_serves hlive hserves),
      fun hserves hen hidle hdebt => run_of_eq (oppRefresh_of_idle hlive hserves hen hidle hdebt), ?_,
      fun l hdef => ?_, fun hcred => run_of_eq (rgEpochEnd_of_credits hcred)⟩
    · intro t hh hkind hwant w
      exact ⟨fun hmode => refresh_answers i hh hkind hwant (refreshWork_mode rfl hmode),
        fun hmode hurgent => refresh_answers i hh hkind hwant (refreshWork_plain rfl hmode hurgent),
        fun hmode hurgent => refresh_answers i hh hkind hwant (refreshWork_urgent rfl hmode hurgent)⟩
    · intro c u hfree
      exact run_of_eq (deferredCmd_of_free hlive hdef hfree)
  · intro t granted
    refine ⟨fun sc rank bg bank hg => ?_, fun sc rank bank g hg => ?_,
      fun i hserves hstate hopen hidle hpd hfree hpde =>
        run_of_eq (powerDown_of_idle hlive hserves hstate hpde hopen hidle hpd hfree)⟩
    · intro l hmay
      exact run_of_eq (mitigationOp_of_granted hg.1 hg.2 hmay)
    · intro l hmay hen hreq hraa w isOpen
      exact run_of_eq ((rfmOp_of_granted hg.1 hg.2 g.isLt hmay hen hreq hraa).trans
        (congrArg (meDone · n) (rfmIssue_eq t n l)))
  · refine ⟨fun temps mr4 hlive => ⟨fun hwant => run_of_eq (tempPoll_starts hlive hwant _ _), fun hwant hh hkind => ?_⟩,
      fun bus hub x hn hlive => ⟨fun hbus => run_of_eq (tempIbiBus_delivers hn hlive hbus),
        fun hbus => run_of_eq (tempIbiBus_waits hbus)⟩, ?_⟩
    · intro t is hfree r v
      exact run_of_eq ((tempPoll_reads hlive hwant _ _).trans (readMr4_of_granted hh hkind hwant hfree))
    · intro e c late busy w frac x
      have hx : mntExcess w n busy = x := mntExcess_eq (congrArg Clk.bin (mntReported_clk s.fresh n))
      exact ⟨fun h => run_of_eq (mntInterval_keeps hclk hx h), fun h => run_of_eq (mntInterval_asks hclk hx h)⟩
  · intro c now
    refine ⟨fun hnone => run_of_eq (alertAssert_starts hlive ?_ hnone), fun a w ha hpar => ?_,
      fun a ha hupto hh hkind => ?_, fun a ha hpar => run_of_eq (parityRecovery_of_parity ha hpar)⟩
    · by_cases h : slot = 1
      · exact .inr (hslot h)
      · exact .inl (by omega)
    · intro lo hi e i
      exact ⟨fun hlo => run_of_eq (alertClassify_parity ha hpar hlo),
        fun hlo hhi => run_of_eq (alertClassify_backoff ha hpar hlo hhi),
        fun hlo hhi => run_of_eq (alertClassify_unidentified ha hpar hlo hhi)⟩
    · intro t hmay b f
      have hround {r : Engine} (hr : backoffRound t n slot a = r) : Answers (.alertBackoffRfm n slot) s (meDone r n) :=
        run_of_eq (hr ▸ alertBackoff_of_granted ha hupto hh hkind hmay)
      exact ⟨fun h => hround (backoffRound_goes_on t h), fun h => hround (backoffRound_ends t h)⟩

end Sys2Proof.Machine

/-! # Training units, Steep, drift, rereads and the sideband (R224–R236, R245, R251) -/

namespace Sys2Proof.Machine

/-! ## Training units (R231) -/

section
variable {d : Dram} {e : Engine} {n : Nat} {sweeps : List Sweep} {vals : List LaneVal} {fail : Option LaneFail}
  {counts : BitVec 800}

/-- What TSn does under its grant, in the engine `g`, with the unit `k` of a step on the physical rank `p`. -/
def unitUnder (d : Dram) (g : Engine) (n mode step p k : Nat) (sweeps : List Sweep) (vals : List LaneVal)
    (fail : Option LaneFail) (counts : BitVec 800) : Engine :=
  match unitPrep g n step p k with
  | some x =>
    let t := toPhy g (firstSlot g n (some (prepFirst g n x)))
    if unitFits t n && !unitRefused t n step p k then
      let r := prepRun d t n x
      let q := tick r (t.clk.cyc + 32 - r.clk.cyc)
      afterPrep (mapArb q n fun a => { a with wd := q.clk.nominal }) n
    else endSlice t n
  | none =>
    let t := toUnit g n mode step p k
    if unitFits t n && !unitRefused t n step p k then
      let u := runUnit d t n sweeps vals fail counts
      if u.2 then afterUnit u.1 n else endStop u.1 n .completed
    else endSlice t n

theorem trainingUnit_of_granted (hlive : chanLive e n = true) (hsafe : isSafe e = false)
    (hbusy : on e (CH_TRN_STATE_BUSY n) = true) (hmode : rd e (CH_TRN_STATE_RUN_MODE n) ≠ 0) (hh : holder e n = 3)
    (hfree : rankFree e n (rd e (CH_TRN_STATE_PRANK n)) = true) :
    trainingUnit d e n sweeps vals fail counts = unitUnder d (toGrant e n) n (rd e (CH_TRN_STATE_RUN_MODE n))
      (rd e (CH_TRN_STATE_STEP n)) (rd e (CH_TRN_STATE_PRANK n)) (getChan e n).train.units sweeps vals fail counts := by
  have hgo : (chanLive e n && on e (CH_TRN_STATE_BUSY n) && rd e (CH_TRN_STATE_RUN_MODE n) != 0 &&
      holder e n == 3 && !isSafe e && rankFree e n (rd e (CH_TRN_STATE_PRANK n))) = true := by
    simp [hlive, hsafe, hbusy, hmode, hh, hfree]
  exact if_pos hgo

section
variable {g : Engine} {mode step p k : Nat}

section
variable {x : Prep} (hx : unitPrep g n step p k = some x)
include hx

/-- A unit that has to go first runs while it fits. -/
theorem unitUnder_prep :
    let t := toPhy g (firstSlot g n (some (prepFirst g n x)))
    let r := prepRun d t n x
    let q := tick r (t.clk.cyc + 32 - r.clk.cyc)
    (unitFits t n && !unitRefused t n step p k) = true → unitUnder d g n mode step p k sweeps vals fail counts =
      afterPrep (mapArb q n fun a => { a with wd := q.clk.nominal }) n := by
  intro t r q hruns
  unfold unitUnder
  simp only [hx]
  exact if_pos hruns

theorem unitUnder_prep_ends :
    let t := toPhy g (firstSlot g n (some (prepFirst g n x)))
    ¬ (unitFits t n && !unitRefused t n step p k) = true →
      unitUnder d g n mode step p k sweeps vals fail counts = endSlice t n := by
  intro t hruns
  unfold unitUnder
  simp only [hx]
  exact if_neg hruns

end

section
variable (hx : unitPrep g n step p k = none)
include hx

theorem unitUnder_ends (hruns : ¬ (unitFits (toUnit g n mode step p k) n &&
      !unitRefused (toUnit g n mode step p k) n step p k) = true) :
    unitUnder d g n mode step p k sweeps vals fail counts = endSlice (toUnit g n mode step p k) n := by
  unfold unitUnder
  simp only [hx]
  exact if_neg hruns

section
variable (hruns : (unitFits (toUnit g n mode step p k) n && !unitRefused (toUnit g n mode step p k) n step p k) = true)
include hruns

theorem unitUnder_goes_on (hmore : (runUnit d (toUnit g n mode step p k) n sweeps vals fail counts).2 = true) :
    unitUnder d g n mode step p k sweeps vals fail counts =
      afterUnit (runUnit d (toUnit g n mode step p k) n sweeps vals fail counts).1 n := by
  unfold unitUnder
  simp only [hx]
  exact (if_pos hruns).trans (if_pos hmore)

theorem unitUnder_completes (hmore : (runUnit d (toUnit g n mode step p k) n sweeps vals fail counts).2 = false) :
    unitUnder d g n mode step p k sweeps vals fail counts =
      endStop (runUnit d (toUnit g n mode step p k) n sweeps vals fail counts).1 n .completed := by
  unfold unitUnder
  simp only [hx]
  exact (if_pos hruns).trans (if_neg (ne_true_of_eq_false hmore))

end

end

end

/-! ## The gap, Steep and the limits of a run (R227, R231, R233, R236) -/

theorem sliceGap_of_busy (hclk : clocked e = true) (hsafe : isSafe e = false)
    (hbusy : on e (CH_TRN_STATE_BUSY n) = true) :
    sliceGap e n = syncLines (tickTo e (getChan e n).train.gapUntil) n :=
  if_pos (by simp [hclk, hsafe, hbusy])

theorem steepRuns_of (hbusy : on e (CH_TRN_STATE_BUSY n) = true) (hmode : rd e (CH_TRN_STATE_RUN_MODE n) = 0) :
    steepRuns e n = true := by
  unfold steepRuns
  simp [hbusy, hmode]

/-- An attempt of a Steep step fails or passes by what it has measured. -/
theorem steepStep_eq {spd : Word} {l : Nat} (hclk : clocked e = true) (hsteep : steepRuns e n = true)
    (hh : holder e n = 3) (hspd : rd e (CH_TRN_STATE_STEP n) = 0 → spdWaits e n = false) :
    let step := rd e (CH_TRN_STATE_STEP n)
    let ps := runRanks (getChan e n).train.pranks
    let m := steepMeasured (ps.foldl (steepCmds d n step) (toGrant e n)) n step ps sweeps vals fail
    steepStep d e n sweeps vals fail counts spd l = match m.2 with
      | some g => steepFailed m.1 n step g
      | none => steepPassed m.1 n step ps counts spd l := by
  have hgo : (clocked e && steepRuns e n && holder e n == 3 &&
      !(rd e (CH_TRN_STATE_STEP n) == 0 && spdWaits e n)) = true := by
    by_cases h0 : rd e (CH_TRN_STATE_STEP n) = 0
    · simp [hclk, hsteep, hh, h0, hspd h0]
    · simp [hclk, hsteep, hh, h0]
  exact if_pos hgo

theorem steepTimeout_of_steep (hclk : clocked e = true) (hbusy : on e (CH_TRN_STATE_BUSY n) = true)
    (hmode : rd e (CH_TRN_STATE_RUN_MODE n) = 0) :
    let t := tickTo e ((getChan e n).train.began + msUnits 1000)
    steepTimeout e n = startPending (closeRun t n
      ((CH_TRN_STATUS_TIMEOUT n, 1) :: failFlags t n (rd t (CH_TRN_STATE_STEP n)) none)) n :=
  if_pos (by simp [hclk, hbusy, hmode])

theorem retrainPeriod_of_enabled (hlive : chanLive e n = true) (hsafe : isSafe e = false)
    (hen : on e (CH_TRN_CTRL_TRN_EN n) = true) : retrainPeriod e n =
      trigger (tickTo e ((getChan e n).train.ended + msUnits (10 * rd e (CH_TRN_CTRL_PERIOD n)))) n onlineSteps :=
  if_pos (by simp [hlive, hsafe, hen])

theorem offlineTimeout_of_offline (hclk : clocked e = true) (hsafe : isSafe e = false)
    (hbusy : on e (CH_TRN_STATE_BUSY n) = true) (hmode : rd e (CH_TRN_STATE_RUN_MODE n) = 2)
    (hstop : (getChan e n).train.stop = none) : offlineTimeout e n =
      endStop (mapTrain (tickTo e ((getChan e n).train.began + msUnits 10)) n fun t => { t with probe := [] }) n .timeout :=
  if_pos (by simp [hclk, hsafe, hbusy, hmode, hstop])

end

/-! ## Write drift tracking (R234) -/

section
variable {e : Engine} {n : Nat} {counts : BitVec 800} (hlive : chanLive e n = true) (hsafe : isSafe e = false)
  (hen : on e (CH_TRN_CTRL_TRN_EN n) = true)
include hlive hsafe hen

theorem driftMeasure_due (htrack : (getChan e n).train.track = none) :
    let t := tickTo e ((getChan e n).train.drift + msUnits (rd e (CH_TRN_CTRL_TRK_MS n)))
    driftMeasure e n counts =
      syncLines (mapTrain t n fun x => { x with drift := t.clk.nominal, track := some (0, none) }) n := by
  unfold driftMeasure
  simp only [hlive, hsafe, hen, Bool.not_false, Bool.and_self, if_true, htrack]

/-- Under TSn's grant a measurement ends a slice that its unit does not fit, or does the unit. -/
theorem driftMeasure_of_granted {p : Nat} {started : Option Nat}
    (htrack : (getChan e n).train.track = some (p, started)) (hh : holder e n = 3) (hsteep : steepRuns e n = false)
    (hfree : rankFree e n p = true)
    (hrepair : ∀ x, (getChan e n).repair = some x → x.phase = 2 → prankIx e x.loc.rank ≠ p)
    (hosc : ∀ t, started = some t → t + 2048 ≤ nowPhy (toGrant e n)) :
    driftMeasure e n counts = if on e (CH_TRN_STATE_BUSY n) && !unitFits (toGrant e n) n then endSlice (toGrant e n) n
      else driftUnit e n p started counts := by
  have hready : holder e n = 3 ∧ steepRuns e n = false ∧ rankFree e n p ∧
      (getChan e n).repair.all (fun x => x.phase != 2 || prankIx e x.loc.rank != p) ∧
      started.all (fun t => decide (t + 2048 ≤ nowPhy (toGrant e n))) := by
    refine ⟨hh, hsteep, hfree, ?_, ?_⟩
    · cases hr : (getChan e n).repair with
      | none => rfl
      | some x =>
        by_cases hphase : x.phase = 2
        · simp [hphase, hrepair x hr hphase]
        · simp [hphase]
    · cases started with
      | none => rfl
      | some t => exact decide_eq_true (hosc t rfl)
  unfold driftMeasure
  simp only [hlive, hsafe, hen, Bool.not_false, Bool.and_self, if_true, htrack]
  exact if_pos hready

end

section
variable (e : Engine) (n p : Nat) (counts : BitVec 800)

theorem driftUnit_starts :
    let w := wakeRank (toGrant e n) n p
    let t := issueBoth w n .mpc (rankLoc w n p 0)
    driftUnit e n p none counts = driftDone t n (some (p, some (oscStart t n p))) :=
  rfl

theorem driftUnit_reads (at_ : Nat) :
    let w := wakeRank (toGrant e n) n p
    let r := issueBoth w n .mrr (rankLoc w n p 0)
    let t := commitShift (dqIdle (driftRank r n p (p == 0) counts) n) n p
    driftUnit e n p (some at_) counts = driftDone t n (if p + 1 < pranks t then some (p + 1, none) else none) :=
  rfl

end

/-- The drift is the change of the tree delay, rounded to the nearest step. -/
theorem driftOf_near {b c : Nat} (hb : b ≠ 0) (hc : c ≠ 0) :
    (driftOf b c : Rat) - 1 / 2 ≤ (65536 : Rat) / c - 65536 / b ∧ (65536 : Rat) / c - 65536 / b < driftOf b c + 1 / 2 := by
  have hdrift : driftOf b c = ⌊(65536 : Rat) / c - 65536 / b + 1 / 2⌋ :=
    if_neg (by simp [hb, hc])
  rw [hdrift]
  have hle := Int.floor_le ((65536 : Rat) / c - 65536 / b + 1 / 2)
  have hlt := Int.lt_floor_add_one ((65536 : Rat) / c - 65536 / b + 1 / 2)
  constructor <;> linarith

/-! ## Bursts without a preamble (R224) -/

section
variable {e : Engine} {n sc : Nat} {r : RqEntry}

/-- The oldest burst without a preamble is settled when its window has passed without an alert. -/
theorem parWinExpiry_of_quiet (hr : oldestMiss (getChan e n) sc = some r)
    (halert : alertOf (toPhy e (r.issued.getD 0 + 4 * rd e (CH_TRN_CFG_PAR_WIN n)))
      (getChan (toPhy e (r.issued.getD 0 + 4 * rd e (CH_TRN_CFG_PAR_WIN n))) n) r.loc.rank = none) :
    let t := toPhy e (r.issued.getD 0 + 4 * rd e (CH_TRN_CFG_PAR_WIN n))
    parWinExpiry e n sc = syncLines (if r.again then secondMiss t n r else gateMiss t n r) n := by
  unfold parWinExpiry
  simp only [hr, halert, Option.isSome_none, Bool.false_eq_true, if_false]

end

/-! ## The sideband (R245, R246, R251) -/

section
variable {e : Engine} {b : Nat} {q : I3cReq} {ack bad : Bool} {data : Word}

/-- The engine whose bus has served the request `q`. -/
def i3cTaken (e : Engine) (b : Nat) (q : I3cReq) : Engine :=
  let x := (getChan e (2 * b)).i3c
  let left := x.queue.erase q
  putChan e (2 * b) { getChan e (2 * b) with i3c :=
    { queue := left, last := q.who, ibis := if left.isEmpty then [] else x.ibis.drop 1 } }

/-- The in-band interrupts that are served behind the request `q`. -/
def ibisNow (e : Engine) (b : Nat) (q : I3cReq) : List (Nat × Nat) :=
  let x := (getChan e (2 * b)).i3c
  if (x.queue.erase q).isEmpty then x.ibis else x.ibis.take 1

theorem i3cTransaction_serves (hq : i3cNext (getChan e (2 * b)).i3c = some q) :
    i3cTransaction e b ack bad data =
      (ibisNow e b q).foldl (hubIbi b) (i3cServed (i3cTaken e b q) b q ack bad data) := by
  unfold i3cTransaction ibisNow i3cTaken
  simp only [hq]
  cases h : ((getChan e (2 * b)).i3c.queue.erase q).isEmpty
  · simp only [Bool.false_eq_true, if_false]
  · simp only [if_true]

theorem i3cServed_spd (h : q.kind = .spd) : i3cServed e b q ack bad data = e := by
  unfold i3cServed
  simp only [h]

theorem i3cServed_temp (h : q.kind = .temp) :
    let n := 2 * b + (q.who - 2)
    i3cServed e b q ack bad data =
      if ack && chanLive e n then tempTrigger (hubRead e n q.slot q.value) n else e := by
  unfold i3cServed
  simp only [h]

theorem i3cServed_log (h : q.kind = .log) :
    let n := 2 * b + (q.who - 2)
    let i := (slotRanks e q.slot).headD 0
    i3cServed e b q ack bad data = if ack ∧ bad then meFault (sqSet e (CH_MNT_STATUS n)
      [(CH_MNT_STATUS_ALERT_UNID n, 1), (CH_MNT_STATUS_PRANK n, i)]) n i (CH_MNT_STATUS_ALERT_UNID n) else e := by
  unfold i3cServed
  simp only [h, Bool.and_eq_true]

theorem i3cServed_host (h : q.kind = .host) :
    i3cServed e b q ack bad data = i3cHost e b (ack && !spdShut e b) data := by
  unfold i3cServed
  simp only [h]

end

/-! ## The obligation -/

section
variable {s : State} {n : Fin 16}

/-- A training unit under the grant answers what it does. -/
theorem trainingUnit_answers {sweeps : List Sweep} {vals : List LaneVal} {fail : Option LaneFail} {counts : BitVec 800}
    (hlive : chanLive s.fresh n = true) (hsafe : isSafe s.fresh = false)
    (hbusy : on s.fresh (CH_TRN_STATE_BUSY n) = true) (hmode : rd s.fresh (CH_TRN_STATE_RUN_MODE n) ≠ 0)
    (hh : holder s.fresh n = 3) (hfree : rankFree s.fresh n (rd s.fresh (CH_TRN_STATE_PRANK n)) = true) {r : Engine}
    (hr : unitUnder s.dram (toGrant s.fresh n) n (rd s.fresh (CH_TRN_STATE_RUN_MODE n))
      (rd s.fresh (CH_TRN_STATE_STEP n)) (rd s.fresh (CH_TRN_STATE_PRANK n)) (getChan s.fresh n).train.units sweeps vals
      fail counts = r) : Answers (.trainingUnit n sweeps vals fail counts) s r :=
  run_of_eq ((trainingUnit_of_granted hlive hsafe hbusy hmode hh hfree).trans hr)

theorem steepStep_answers {sweeps : List Sweep} {vals : List LaneVal} {fail : Option LaneFail} {counts : BitVec 800}
    {spd : Word} {lat : BitVec 8} (hclk : clocked s.fresh = true) (hbusy : on s.fresh (CH_TRN_STATE_BUSY n) = true)
    (hmode : rd s.fresh (CH_TRN_STATE_RUN_MODE n) = 0) (hh : holder s.fresh n = 3)
    (hspd : rd s.fresh (CH_TRN_STATE_STEP n) = 0 → spdWaits s.fresh n = false) :
    let step := rd s.fresh (CH_TRN_STATE_STEP n)
    let ps := runRanks (getChan s.fresh n).train.pranks
    let m := steepMeasured (ps.foldl (steepCmds s.dram n step) (toGrant s.fresh n)) n step ps sweeps vals fail
    (∀ g, m.2 = some g → Answers (.steepStepComplete n sweeps vals fail counts spd lat) s (steepFailed m.1 n step g)) ∧
    (m.2 = none → Answers (.steepStepComplete n sweeps vals fail counts spd lat) s
      (steepPassed m.1 n step ps counts spd lat.toNat)) := by
  intro step ps m
  have hstep := steepStep_eq (d := s.dram) (sweeps := sweeps) (vals := vals) (fail := fail) (counts := counts)
    (spd := spd) (l := lat.toNat) hclk (steepRuns_of hbusy hmode) hh hspd
  refine ⟨fun g hm => run_of_eq (hstep.trans ?_), fun hm => run_of_eq (hstep.trans ?_)⟩
  · exact hm ▸ rfl
  · exact hm ▸ rfl

end

/-- Settles O16: each training command by its own equation, and the commands under TSn's grant by what
`unitUnder` and `driftMeasure_of_granted` say. -/
theorem trainingCommandsAct : Obligations.TrainingCommandsAct := by
  refine ⟨fun s n sweeps vals fail counts => ?_, ⟨fun s n counts hlive hsafe hen => ?_,
    fun b c hb hc => driftOf_near hb hc, by norm_num [driftOf, roundStep, Rat.floor]⟩, fun s => ⟨fun n sc r hr => ?_, fun b ack bad data q => ?_⟩⟩
  · intro e
    refine ⟨fun hlive hsafe hbusy hmode hh hfree => ?_,
      fun hclk hsafe hbusy => run_of_eq (sliceGap_of_busy hclk hsafe hbusy),
      fun spd lat hclk hbusy hmode hh => fun hspd => steepStep_answers hclk hbusy hmode hh hspd,
      fun hclk hbusy hmode => run_of_eq (steepTimeout_of_steep hclk hbusy hmode),
      fun hlive hsafe hen => run_of_eq (retrainPeriod_of_enabled hlive hsafe hen),
      fun hclk hsafe hbusy hmode hstop => run_of_eq (offlineTimeout_of_offline hclk hsafe hbusy hmode hstop)⟩
    intro step p k g out runs
    have hout {r : Engine} := trainingUnit_answers (sweeps := sweeps) (vals := vals) (fail := fail) (counts := counts)
      hlive hsafe hbusy hmode hh hfree (r := r)
    refine ⟨fun x hx => ?_, fun hx => ?_⟩
    · intro t r q
      exact ⟨fun hruns => hout (unitUnder_prep hx hruns), fun hruns => hout (unitUnder_prep_ends hx hruns)⟩
    · intro t u
      exact ⟨fun hruns hmore => hout (unitUnder_goes_on hx hruns hmore),
        fun hruns hmore => hout (unitUnder_completes hx hruns hmore), fun hruns => hout (unitUnder_ends hx hruns)⟩
  · intro e
    refine ⟨fun htrack => run_of_eq (driftMeasure_due hlive hsafe hen htrack),
      fun p started htrack hh hsteep hfree hrepair => ?_⟩
    intro w fits
    have hfits : fits ↔ ¬ (on e (CH_TRN_STATE_BUSY n) && !unitFits (toGrant e n) n) = true := by
      simp [fits, or_iff_not_imp_left]
    have hgo := driftMeasure_of_granted (counts := counts) hlive hsafe hen htrack hh hsteep hfree hrepair
    refine ⟨fun hno hosc => run_of_eq ((hgo hosc).trans (if_pos (not_not.1 (hfits.not.1 hno)))), fun hyes hnone => ?_,
      fun at_ hyes hsome hat => ?_⟩
    · subst hnone
      exact run_of_eq ((hgo (by simp)).trans ((if_neg (hfits.1 hyes)).trans (driftUnit_starts ..)))
    · subst hsome
      exact run_of_eq ((hgo (by rintro t ⟨⟩; exact hat)).trans ((if_neg (hfits.1 hyes)).trans (driftUnit_reads ..)))
  · intro e halert
    have hgo := parWinExpiry_of_quiet hr halert
    exact ⟨fun hagain => run_of_eq (hgo.trans (by rw [if_neg (ne_true_of_eq_false hagain)])),
      fun hagain => run_of_eq (hgo.trans (by rw [if_pos hagain]))⟩
  · intro m x hq left now e n out
    have hout {r : Engine} (hr : i3cServed (i3cTaken s.fresh b q) b q ack bad data = r) : out r :=
      run_of_eq (hr ▸ i3cTransaction_serves hq)
    exact ⟨fun h => hout (i3cServed_host h), fun h => hout (i3cServed_spd h), fun h => hout (i3cServed_temp h),
      fun h => hout (i3cServed_log h)⟩

end Sys2Proof.Machine

/-! # Scrubs, second reads, repair and the sparing copy (R224, R260–R278) -/

namespace Sys2Proof.Machine

/-! ## Patrol and commanded passes (R262–R264) -/

section
variable {d : Dram} {e : Engine} {n : Nat} (hh : holder e n = 2) (hk : rd e (CH_ARB_STATE_ME_KIND n) = 3)
include hh hk

section
variable {err : BitVec 2560} {miss : BitVec 8} (hready : scrubReady (toGrant e n) n = true)
include hready

/-- A read whose burst had no preamble goes before every other scrub. -/
theorem scrubOp_missed {m : Missed} (hm : missDue (toGrant e n) n 0 = some m) : scrubOp d e n err miss =
    meDone (missAgain (toGrant e n) n m fun e lost => scrubSlot e n m.loc (dramAt d e m.loc ^^^ m.err) lost) n := by
  unfold scrubOp
  rw [meOp_of_granted [3] (ok := fun e => scrubReady e n) hh (by simp [hk]) hready]
  simp only [hm]

section
variable (hm : missDue (toGrant e n) n 0 = none)
include hm

theorem scrubOp_patrol (hpatrol : patrolReady (toGrant e n) n = true) : scrubOp d e n err miss =
    meDone (patrolAdvance (scrubRun d (toGrant e n) n (patrolSlots (toGrant e n) n) err miss) n) n := by
  unfold scrubOp
  rw [meOp_of_granted [3] (ok := fun e => scrubReady e n) hh (by simp [hk]) hready]
  simp only [hm, hpatrol, if_true]

theorem scrubOp_pass (hpatrol : patrolReady (toGrant e n) n = false) :
    scrubOp d e n err miss = meDone (passOp d (toGrant e n) n err miss) n := by
  unfold scrubOp
  rw [meOp_of_granted [3] (ok := fun e => scrubReady e n) hh (by simp [hk]) hready]
  simp only [hm, hpatrol, Bool.false_eq_true, if_false]

end

end

/-! ## Second reads (R265) -/

section
variable {err : Slot} {miss : BitVec 8} {r : Reread} (hready : rereadReady (toGrant e n) n = true)
include hready

theorem ueReread_missed {m : Missed} (hm : missDue (toGrant e n) n 1 = some m) (huse : m.use = .reread r) :
    ueReread d e n err miss =
      meDone (missAgain (toGrant e n) n m fun e lost => rereadEnd d e n r m.err lost) n := by
  unfold ueReread
  rw [meOp_of_granted [3] (ok := fun e => rereadReady e n) hh (by simp [hk]) hready]
  simp only [hm, huse]

section
variable {rs : List Reread} (hm : missDue (toGrant e n) n 1 = none) (hr : (getChan (toGrant e n) n).rereads = r :: rs)
include hm hr

/-- A second read whose slot has been written since, or that has been cancelled, is dropped. -/
theorem ueReread_drops (hdrop : r.cancelled = true ∨ findWrite (getChan (toGrant e n) n) r.loc ≠ none) :
    let t := toGrant e n
    ueReread d e n err miss = meDone (putChan t n { getChan t n with rereads := rs }) n := by
  have hcond : (r.cancelled || (findWrite (getChan (toGrant e n) n) r.loc).isSome) = true := by
    simpa [Option.isSome_iff_ne_none] using hdrop
  unfold ueReread
  rw [meOp_of_granted [3] (ok := fun e => rereadReady e n) hh (by simp [hk]) hready]
  simp only [hm, hr, hcond, if_true]

/-- Any other reads its slot, and ends unless the burst had no preamble. -/
theorem ueReread_reads (hcan : r.cancelled = false) (hwrite : findWrite (getChan (toGrant e n) n) r.loc = none) :
    let t := toGrant e n
    let v := meReads (putChan t n { getChan t n with rereads := rs }) n [r.loc] miss fun _ => (err, .reread r)
    ueReread d e n err miss = meDone (if v.2.isEmpty then rereadEnd d v.1 n r err false else v.1) n := by
  have hcond : (r.cancelled || (findWrite (getChan (toGrant e n) n) r.loc).isSome) = false := by simp [hcan, hwrite]
  unfold ueReread
  rw [meOp_of_granted [3] (ok := fun e => rereadReady e n) hh (by simp [hk]) hready]
  simp only [hm, hr, hcond, Bool.false_eq_true, if_false]

end

end

end

section
variable {d : Dram} {e : Engine} {n : Nat} {r : Reread} {err : Slot} {lost : Bool}
  (hwrite : findWrite (getChan e n) r.loc = none)
include hwrite

theorem rereadEnd_ue (h : (meDecode e n r.origin r.loc (dramAt d e r.loc ^^^ err) lost).2.got = .ue) :
    rereadEnd d e n r err lost =
      writeBack (meDecode e n r.origin r.loc (dramAt d e r.loc ^^^ err) lost).1 n r.loc poisonSlot false := by
  unfold rereadEnd
  simp only [hwrite, Option.isSome_none, Bool.false_eq_true, if_false, h]

theorem rereadEnd_fixed {f : Slot} (hgot : (meDecode e n r.origin r.loc (dramAt d e r.loc ^^^ err) lost).2.got ≠ .ue)
    (h : (meDecode e n r.origin r.loc (dramAt d e r.loc ^^^ err) lost).2.fixed = some f) :
    rereadEnd d e n r err lost =
      writeBack (meDecode e n r.origin r.loc (dramAt d e r.loc ^^^ err) lost).1 n r.loc f false := by
  unfold rereadEnd
  simp only [hwrite, Option.isSome_none, Bool.false_eq_true, if_false, h]

theorem rereadEnd_clean (hgot : (meDecode e n r.origin r.loc (dramAt d e r.loc ^^^ err) lost).2.got ≠ .ue)
    (h : (meDecode e n r.origin r.loc (dramAt d e r.loc ^^^ err) lost).2.fixed = none) :
    rereadEnd d e n r err lost = (meDecode e n r.origin r.loc (dramAt d e r.loc ^^^ err) lost).1 := by
  unfold rereadEnd
  simp only [hwrite, Option.isSome_none, Bool.false_eq_true, if_false, h]

end

/-! ## ECS, the windows and repair (R260, R269, R272) -/

section
variable {d : Dram} {e : Engine} {n : Nat}

section
variable {counts : BitVec 5120} (hlive : chanLive e n = true) (hen : on e (CH_SCRUB_CTRL_SCRUB_EN n) = true)
include hlive hen

theorem ecsPoll_due (hwant : (getChan e n).ecsWant = false) : ecsPoll e n counts = ecsDue e n :=
  (if_pos (by rw [hlive, hen]; rfl)).trans (if_neg (ne_true_of_eq_false hwant))

/-- The engine in which every rank that serves has been read. -/
def ecsReads (t : Engine) (n : Nat) (counts : BitVec 5120) : Engine :=
  ((List.range (2 ^ (gcfg t).k)).filter fun r => rankServes t n (prankIx t r)).foldl (ecsRank n counts) t

theorem ecsPoll_reads (hwant : (getChan e n).ecsWant = true) (hh : holder e n = 2)
    (hk : rd e (CH_ARB_STATE_ME_KIND n) = 3) (hready : ecsReady (toGrant e n) n = true) :
    let r := ecsReads (toGrant e n) n counts
    ecsPoll e n counts = meDone (putChan r n { getChan r n with ecsWant := false }) n := by
  have hop := meOp_of_granted [3] (ok := fun e => ecsReady e n) hh (by simp [hk]) hready fun t =>
    putChan (ecsReads t n counts) n { getChan (ecsReads t n counts) n with ecsWant := false }
  exact (if_pos (by rw [hlive, hen]; rfl)).trans ((if_pos hwant).trans hop)

end

theorem eccWindow_of_clocked (hclk : clocked e = true) :
    let t := tickTo e ((getChan e n).winAt + msUnits (rd e (CH_ECC_CTRL_WIN_MS n)))
    eccWindow e n = putChan t n { getChan t n with win := [], winAt := t.clk.nominal } :=
  if_pos hclk

section
variable (hh : holder e n = 2) (hk : rd e (CH_ARB_STATE_ME_KIND n) = 4)
include hh hk

theorem pprStep_of_granted {err : BitVec 2560} {miss : BitVec 8} {r : Repair}
    (hr : (getChan (toGrant e n) n).repair = some r) (hready : repairReady (toGrant e n) n = true) :
    pprStep d e n err miss = meDone (syncLines (repairStep d (toGrant e n) n r err miss) n) n := by
  unfold pprStep
  rw [meOp_of_granted [4] (ok := fun e => repairReady e n) hh (by simp [hk]) hready]
  simp only [hr]

end

/-! ## The sparing copy (R112, R142, R276–R278) -/

section
variable {err : Slot} {miss : BitVec 8}

/-- The location of the target unit to which line PTR goes. -/
def copyTarget (e : Engine) : Loc := spareTarget (gcfg e) (spareCfg e) (spareCfg e).ptr

theorem spareCopy_waits (hn : (spareCfg e).failCh = n) (hdue : copyDue e n = true)
    (hroom : copyRoom e (copyTarget e) = false) :
    spareCopy d e err miss = capWait e (copyTarget e).ch (copyTarget e).sc none := by
  subst hn
  have hcond : (copyDue e (spareCfg e).failCh && !copyRoom e (copyTarget e)) = true := by rw [hdue, hroom]; rfl
  exact if_pos hcond

section
variable (hn : (spareCfg e).failCh = n) (hroom : copyRoom e (copyTarget e) = true) (hruns : copyRuns e n = true)
  (hh : holder e n = 2) (hk : rd e (CH_ARB_STATE_ME_KIND n) = 4) (hready : copyReady (toGrant e n) n = true)
include hn hroom hruns hh hk hready

theorem spareCopy_of_granted : spareCopy d e err miss = meDone (copyLine d (toGrant e n) n err miss) n := by
  subst hn
  have hcond : (copyDue e (spareCfg e).failCh && !copyRoom e (copyTarget e)) = false := by
    rw [hroom, Bool.not_true, Bool.and_false]
  have hop := meOp_of_granted [4] (ok := fun x => copyReady x (spareCfg e).failCh) hh (by simp [hk]) hready fun t =>
    copyLine d t (spareCfg e).failCh err miss
  exact (if_neg (ne_true_of_eq_false hcond)).trans ((if_pos hruns).trans hop)

end

/-- A spared channel that nothing waits in is taken out of service. -/
theorem spareCopy_drops (hn : (spareCfg e).failCh = n) (hactive : (spareCfg e).active = true)
    (hscope : (spareCfg e).rankScope = false) (hptr : unitLines (gcfg e) (spareCfg e) ≤ (spareCfg e).ptr)
    (hsafe : isSafe e = false) (hen : on e (CH_SCHED_CTRL_SCHED_EN n) = true)
    (hrq : (getChan e n).rq = []) (hwq : (getChan e n).wq = []) (hreplay : (getChan e n).replay = [])
    (hrepair : (getChan e n).repair = none) : spareCopy d e err miss = dropChannel e n := by
  subst hn
  have hruns : copyRuns e (spareCfg e).failCh = false := by
    unfold copyRuns
    simp [Nat.not_lt.2 hptr]
  have hdue : copyDue e (spareCfg e).failCh = false := by
    unfold copyDue
    simp [hruns]
  have hcond : (copyDue e (spareCfg e).failCh && !copyRoom e (copyTarget e)) = false := by rw [hdue, Bool.false_and]
  refine (if_neg (ne_true_of_eq_false hcond)).trans <| (if_neg (ne_true_of_eq_false hruns)).trans (if_pos ?_)
  simp [hactive, hscope, hsafe, hen, hrq, hwq, hreplay, hrepair, hptr]

theorem copyLine_missed {m : Missed} (hm : missDue e n 3 = some m) : copyLine d e n err miss =
    missAgain e n m fun e lost => copyWrite d (copyRead d e n m.loc m.err lost).1 n (copyRead d e n m.loc m.err lost).2 := by
  unfold copyLine
  simp only [hm]

section
variable (hm : missDue e n 3 = none)
include hm

theorem copyLine_waits
    (hw : (copySlot d e n (unitLoc (gcfg e) (spareCfg e) (spareCfg e).ptr) err miss).2 = none) :
    copyLine d e n err miss = (copySlot d e n (unitLoc (gcfg e) (spareCfg e) (spareCfg e).ptr) err miss).1 := by
  unfold copyLine
  simp only [hm]
  split
  · simp_all
  · simp_all

theorem copyLine_writes {v : Slot}
    (hw : (copySlot d e n (unitLoc (gcfg e) (spareCfg e) (spareCfg e).ptr) err miss).2 = some v) :
    copyLine d e n err miss =
      copyWrite d (copySlot d e n (unitLoc (gcfg e) (spareCfg e) (spareCfg e).ptr) err miss).1 n v := by
  unfold copyLine
  simp only [hm]
  split
  · simp_all
  · simp_all

end

end

/-- The engine in which the write of line PTR stands in the target's queue, and PTR has passed it. -/
def copyQueued (d : Dram) (e : Engine) (n : Nat) (v : Slot) : Engine :=
  let c := spareCfg e
  let x := copyTarget e
  let la := gristInv (gcfg e) (unitLoc (gcfg e) c c.ptr)
  let packed := isMetaLa e la == false && scBits (metaNow d e (scLa e la) 1 0) la == 3
  let q := endCapWait (putChan e x.ch (pushWrite e (getChan e x.ch) none none packed la x v e.clk.tb)) none
  let p := sparePtr (copyPaced q n) (c.ptr + 1)
  progressOpt p (spareTicket p) (c.ptr + 1)

theorem copyWrite_eq (v : Slot) : copyWrite d e n v =
    if (spareCfg e).ptr + 1 ≥ unitLines (gcfg e) (spareCfg e) then spareDone (copyQueued d e n v)
    else copyQueued d e n v :=
  rfl

end

/-! ## The obligation -/

/-- Settles O19: the operations under MEn's grant by `meOp_of_granted`, and the copy's cases one by one. -/
theorem scrubAndRepairAct : Obligations.ScrubAndRepairAct := by
  refine ⟨fun s n => ⟨fun hh hk => ?_, fun counts hlive hen => ⟨fun hwant => run_of_eq (ecsPoll_due hlive hen hwant), ?_⟩,
    fun hclk => run_of_eq (eccWindow_of_clocked hclk)⟩, fun s n => ?_⟩
  · intro t
    refine ⟨fun err miss hready => ?_, fun err miss r hready => ?_, fun e r err lost hwrite => ?_⟩
    · intro out
      exact ⟨fun m hm => run_of_eq (scrubOp_missed hh hk hready hm),
        fun hm hpatrol => run_of_eq (scrubOp_patrol hh hk hready hm hpatrol),
        fun hm hpatrol => run_of_eq (scrubOp_pass hh hk hready hm hpatrol)⟩
    · intro out
      refine ⟨fun m hm huse => run_of_eq (ueReread_missed hh hk hready hm huse), fun rs hm hr => ?_⟩
      intro u v
      refine ⟨fun hdrop => run_of_eq (ueReread_drops hh hk hready hm hr hdrop), fun hcan hwrite => ?_⟩
      have hreads := ueReread_reads (d := s.dram) (err := err) (miss := miss) hh hk hready hm hr hcan hwrite
      exact ⟨fun hlate => run_of_eq (hreads.trans (congrArg (meDone · n) (if_pos (by simpa using hlate)))),
        fun hlate => run_of_eq (hreads.trans (congrArg (meDone · n) (if_neg (by simpa using hlate))))⟩
    · exact ⟨fun h => rereadEnd_ue hwrite h, fun f hgot h => rereadEnd_fixed hwrite hgot h,
        fun hgot h => rereadEnd_clean hwrite hgot h⟩
  · intro hwant hh hk t hready rs e
    exact run_of_eq (ecsPoll_reads hlive hen hwant hh hk hready)
  · intro t
    refine ⟨fun err miss r hh hk hr hready => run_of_eq (pprStep_of_granted hh hk hr hready), fun err miss => ?_,
      fun e v => ?_, fun err miss => ?_⟩
    · intro c g l x out hn
      refine ⟨fun hdue hroom => runWrite_of_eq (spareCopy_waits hn hdue hroom), fun hroom hruns hh hk hready => ?_⟩
      have hgo := spareCopy_of_granted (d := s.dram) (err := err) (miss := miss) hn hroom hruns hh hk hready
      have hout {r : Engine} (hr : copyLine s.dram t n err miss = r) : out (meDone r n) :=
        runWrite_of_eq (hgo.trans (congrArg (meDone · n) hr))
      refine ⟨fun m hm => hout (copyLine_missed hm), fun hm => ?_⟩
      intro w
      exact ⟨fun hw => hout (copyLine_waits hm hw), fun v hw => hout (copyLine_writes hm hw)⟩
    · intro c g x la packed q p r
      exact ⟨fun h => (copyWrite_eq v).trans (if_neg (Nat.not_le.2 h)), fun h => (copyWrite_eq v).trans (if_pos h)⟩
    · intro c hactive hn hscope hptr hsafe hen hrq hwq hreplay hrepair
      exact runWrite_of_eq (spareCopy_drops hn hactive hscope hptr hsafe hen hrq hwq hreplay hrepair)

end Sys2Proof.Machine

/-! # The packer's queues, the retry buffer, pushes, metadata and rebuilds (R141, R297–R305, R331, R334, R357, R381) -/

namespace Sys2Proof.Machine

/-! ## Reads and writes that leave the QoS stage (R21, R399) -/

section
variable {d : Dram} {e : Engine} {n : Nat}

section
variable (hclk : clocked e = true) (hsafe : isSafe e = false) (hen : on e (CH_SCHED_CTRL_SCHED_EN n) = true)
include hclk hsafe hen

theorem intake_of : intake e n = true := by
  unfold intake
  simp [hclk, hsafe, hen]

theorem qosRelease_of_intake :
    qosRelease e n = syncLines (spargeLook (releaseOne (releaseOne e n) n) n) n :=
  if_pos (intake_of hclk hsafe hen)

theorem writeQueueEntry_of_intake (hshut : intakeShut e n = false) :
    writeQueueEntry d e n = syncLines (spargeLook (lookWrites d n e [] (tget [] e.qos.writes n)) n) n :=
  (if_pos (intake_of hclk hsafe hen)).trans
    (congrArg (fun x => syncLines (spargeLook x n) n) (if_neg (ne_true_of_eq_false hshut)))

end

section
variable {id : Nat} {ids : List Nat} {t : Txn} (ht : getTxn e id = some t) {e' : Engine}
include ht

theorem lookWrites_stop (h : lookWrite d e n t = .stop e') : lookWrites d n e [] (id :: ids) = e' := by
  unfold lookWrites
  simp only [ht, List.contains_nil, Bool.false_eq_true, if_false, h]

theorem lookWrites_pass (h : lookWrite d e n t = .pass e') :
    lookWrites d n e [] (id :: ids) = lookWrites d n e' [t.req.la / 2 * 2, t.req.la / 2 * 2 + 1] ids := by
  rw [lookWrites]
  simp only [ht, List.contains_nil, Bool.false_eq_true, if_false, h]

theorem lookWrites_passLine (h : lookWrite d e n t = .passLine e') :
    lookWrites d n e [] (id :: ids) = lookWrites d n e' [t.req.la] ids := by
  rw [lookWrites]
  simp only [ht, List.contains_nil, Bool.false_eq_true, if_false, h]

end

/-- Without a held read of its line, a write has nothing to release before it. -/
theorem releaseEarlier_of_none {t : Txn} (h : heldReads e n t.req.la = []) : releaseEarlier e n t = (e, true) := by
  unfold releaseEarlier
  simp only [h, List.filter_nil, List.foldl_nil]

theorem lineHeld_of_at {la : Nat} {l : Loc} (h : gristTarget (gcfg e) (spareCfg e) la = .at l) : lineHeld e la = false := by
  unfold lineHeld
  simp only [h]

/-- A full-line write to a separate pair is decided alone, and enters where its decision can be entered. -/
theorem decideWrite_alone {t : Txn} {e' : Engine} (hfull : isPartial t.req = false)
    (hdone : tryDecision d e t (txnRegion e t) (decideSeparate t.req.la (txnRegion e t).pack (applyWrite t.req none)
      (queuedCell e (txnRegion e t) (if t.req.la % 2 = 0 then t.req.la + 1 else t.req.la - 1)))
      (t.req.la / 2 * 2) = .done e') :
    decideWrite d e n t false = .stop (completeWrite (leaveQos e' n t)
      ((decideSeparate t.req.la (txnRegion e t).pack (applyWrite t.req none)
        (queuedCell e (txnRegion e t) (if t.req.la % 2 = 0 then t.req.la + 1 else t.req.la - 1))).bits == 3)
      false t.id) := by
  unfold decideWrite
  simp only [Bool.false_eq_true, if_false, hfull, hdone, afterTry]

theorem lookWrite_alone {t : Txn} {l : Loc} {e' : Engine} (hreads : heldReads e n t.req.la = [])
    (hearly : earlierRead e t = false) (hline : gristTarget (gcfg e) (spareCfg e) t.req.la = .at l)
    (hpair : pairEntry e t.req.la = none) (hmerge : mergeOfPair e t.req.la = false)
    (hrebuild : rebuilding e t.req.la = false) (hlost : pathLost e (txnRegion e t) t.req.la = false)
    (hbits : pairBits e (txnRegion e t) t.req.la = some 0) (hfull : isPartial t.req = false)
    (hdone : tryDecision d e t (txnRegion e t) (decideSeparate t.req.la (txnRegion e t).pack (applyWrite t.req none)
      (queuedCell e (txnRegion e t) (if t.req.la % 2 = 0 then t.req.la + 1 else t.req.la - 1)))
      (t.req.la / 2 * 2) = .done e') :
    lookWrite d e n t = .stop (completeWrite (leaveQos e' n t)
      ((decideSeparate t.req.la (txnRegion e t).pack (applyWrite t.req none)
        (queuedCell e (txnRegion e t) (if t.req.la % 2 = 0 then t.req.la + 1 else t.req.la - 1))).bits == 3)
      false t.id) := by
  have hgo : ¬ (lineHeld e t.req.la = true ∨ earlierRead e t = true) := by simp [lineHeld_of_at hline, hearly]
  have hfree : (mergeOfPair e t.req.la || rebuilding e t.req.la || pathLost e (txnRegion e t) t.req.la) = false := by
    rw [hmerge, hrebuild, hlost]
    rfl
  have hbad : badBits 0 = false := rfl
  unfold lookWrite
  simp only [releaseEarlier_of_none hreads, hgo, hpair, hfree, hbits, hbad, Bool.false_eq_true, if_false]
  exact decideWrite_alone hfull hdone

section
variable (hclk : clocked e = true) (hsafe : isSafe e = false)
include hclk hsafe

theorem mergeReadReturn_of_returned {t : Txn} {r : Ret} (h : returnedMerge e = some (t, r)) :
    mergeReadReturn d e = syncLines (spargeLook (retryWaits (mergeReturn d e t r)) t.ch) t.ch := by
  unfold mergeReadReturn
  simp only [hclk, hsafe, Bool.not_false, Bool.and_self, if_true, h]

theorem partnerReadReturn_of_returned {q : PairEnt} {r : Ret} (h : returnedPair e = some (q, r)) :
    partnerReadReturn d e = syncLines (spargeLook (partnerReturn d e q r) q.ch) q.ch := by
  unfold partnerReadReturn
  simp only [hclk, hsafe, Bool.not_false, Bool.and_self, if_true, h]

/-! ## The retry buffer (R357) -/

theorem retryRelease_of_none {x : Nat} (h : ∀ t ∈ retryEntries e x, causeGone e t = false) : retryRelease e x = e := by
  have hfind : (retryEntries e x).find? (causeGone e) = none :=
    List.find?_eq_none.2 fun t ht => ne_true_of_eq_false (h t ht)
  unfold retryRelease
  simp only [hclk, hsafe, Bool.not_false, Bool.and_self, if_true, hfind]

/-- The oldest entry whose cause is gone repeats its lookup. -/
theorem retryRelease_of_gone {x : Nat} {before after : List Txn} {t : Txn}
    (hx : retryEntries e x = before ++ t :: after) (hbefore : ∀ u ∈ before, causeGone e u = false)
    (ht : causeGone e t = true) :
    let w := wayMet e t.req.la
    let u := { t with stage := .formed }
    let r := delTxn w.1 t.id
    retryRelease e x = if w.2 then w.1 else lookup3 { r with txns := r.txns ++ [u] } u := by
  have hfind : (retryEntries e x).find? (causeGone e) = some t :=
    List.find?_eq_some_iff_append.2 ⟨ht, before, after, hx, fun u hu => by rw [hbefore u hu]; rfl⟩
  unfold retryRelease
  simp only [hclk, hsafe, Bool.not_false, Bool.and_self, if_true, hfind]

end

/-! ## Placement pushes and returned metadata (R331, R381) -/

section
variable {t : Txn} {ts : List Txn} (hts : e.txns.filter (fun t => t.stage == .push && !pushFlies e t.id) = t :: ts)
include hts

theorem placementPush_returned {r : Ret} (hr : e.pack.rets.find? (fun r => r.use == .push t.id) = some r) :
    placementPush e = pushReturn e t r := by
  unfold placementPush
  simp only [hts, hr]

theorem placementPush_reads (hr : e.pack.rets.find? (fun r => r.use == .push t.id) = none) :
    placementPush e = placeRead e t := by
  unfold placementPush
  simp only [hts, hr]

end

theorem metadataReturn_of_taken {r : Ret} {rs : List Ret} {e' : Engine}
    (hr : e.pack.rets.filter (fun r => r.use == .metaRead) = r :: rs)
    (htake : metaTake (takeRet e r) r.la r.got = some e') : metadataReturn e = retryWaits (pumpMeta e') := by
  unfold metadataReturn
  rw [hr]
  unfold metaReturns
  simp only [htake]

/-! ## The rebuild of a size-class slot (R305) -/

/-- What a rebuilt slot leaves in GC_PACK_STATUS and its counters, and what goes on with it. -/
theorem rebuilt_eq (e : Engine) (ix : Nat) (x : Line) (bad : Bool) :
    let p := mapPack e fun p => { p with rebuilds := p.rebuilds.filter (· != ix), rebuild := none }
    let f := sqSet p GC_PACK_STATUS
      ((GC_PACK_STATUS_REBUILD, 1) :: if bad then [(GC_PACK_STATUS_REBUILD_POISON, 1)] else [])
    let w := inc (wr f GC_PACK_LAST_SC_SLOT ix) GC_CNT_PK_REBUILD
    rebuilt e ix x bad = retryWaits (bitsArrived w (dataTop (gcfg w) + ix) x) :=
  rfl

section
variable {b : Rebuild} (hb : e.pack.rebuild = some b)
include hb

theorem rebuildEnd_of_left (hleft : b.left ≠ []) : rebuildEnd e = e := by
  have hcond : (!b.left.isEmpty || (metaFit e (dataTop (gcfg e) + b.slot)).full.isSome ||
      lineHeld e (dataTop (gcfg e) + b.slot)) = true := by
    simp [hleft]
  unfold rebuildEnd
  simp only [hb]
  exact if_pos hcond

theorem rebuildEnd_of_done (hleft : b.left = []) (hfull : (metaFit e (dataTop (gcfg e) + b.slot)).full = none)
    (hcap : (metaFit e (dataTop (gcfg e) + b.slot)).cap = none)
    (hheld : lineHeld e (dataTop (gcfg e) + b.slot) = false) : rebuildEnd e =
      rebuilt (endCapWait (putMeta e (dataTop (gcfg e) + b.slot) 1 0 0 b.bits) none) b.slot b.bits b.bad := by
  unfold rebuildEnd
  simp only [hb, hleft, hfull, hcap, hheld, List.isEmpty_nil, Option.isSome_none, Bool.not_true, Bool.or_self,
    Bool.false_eq_true, if_false]

/-- A read that has returned gives its pair's bits `x`; `e'` is the engine that has met what it opened to. -/
theorem rebuildTake_of_bits {r : Ret} {i x : Nat} {bad : Bool} (huse : r.use = .rebuild i)
    (hbits : rebuiltBits (openSlot e (regionNow e r.la) r.la none r.got) = some (x, bad)) {e' : Engine}
    (he' : (if openSlot e (regionNow e r.la) r.la none r.got = .bad then integrityFail e (regionNow e r.la) else e) = e') :
    rebuildTake e r = mapPack (takeRet e' r) fun p => { p with
      rebuild := some { b with left := b.left.filter (· != i), bits := setScBits b.bits r.la x, bad := b.bad || bad } } := by
  unfold rebuildTake
  simp only [huse, hb, hbits, he']

end

/-! ## The rebuild of lost counter lines (R334) -/

theorem ctrStart_of_lost {l k : Nat} (htasks : e.sec.ctrTasks = []) (hlost : nextLost e = some (l, k))
    (hagreed : hasAgreed e 8 = false) : ctrStart d e = { e with sec := { e.sec with
      ctrTasks := [.node l k (parentNow d e l k)], lostCtr := lostBeyond e l k } } := by
  unfold ctrStart
  simp only [htasks, hlost, hagreed, Bool.false_eq_true, if_false]

theorem ctrStart_of_tasks {k : CtrTask} {ts : List CtrTask} (htasks : e.sec.ctrTasks = k :: ts) : ctrStart d e = e := by
  unfold ctrStart
  simp only [htasks]

/-- A slot that nothing keeps out of its queue enters it. -/
theorem whenFits_of_fits {la : Nat} (hfull : (metaFit e la).full = none) (hcap : (metaFit e la).cap = none)
    (hheld : lineHeld e la = false) (f : Engine → Engine) : whenFits e la f = f (endCapWait e none) := by
  unfold whenFits
  simp only [hfull, hcap, hheld, Option.isSome_none, Bool.or_self, Bool.false_eq_true, if_false]

/-- The end of a rebuild is flagged behind its last line. -/
theorem ctrEnd_eq (u : Engine) : ctrEnd u =
    if u.sec.ctrTasks.isEmpty then retryWaits (sqSet u CRY_STATUS [(CRY_STATUS_REBUILD, 1)]) else u :=
  rfl

section
variable {la : Nat} (hfull : (metaFit e la).full = none) (hcap : (metaFit e la).cap = none) (hheld : lineHeld e la = false)
include hfull hcap hheld

/-- A lost counter line is rebuilt under its parent's version, and what lies beneath it comes next. -/
theorem ctrWrite_node {v : Engine} (hv : endCapWait e none = v) {l k pv : Nat} {ts : List CtrTask}
    (hla : nodeLa e l k = la) (htasks : e.sec.ctrTasks = .node l k pv :: ts) :
    let x := rebuiltLine v
    let u := { v with sec := { v.sec with rebuild := v.sec.rebuild + 1, ctrTasks := ctrChildren v l k x ++ ts } }
    ctrWrite e = ctrEnd (queueMeta u la 3 l pv x) := by
  subst hv
  unfold ctrWrite
  simp only [htasks, hla]
  rw [whenFits_of_fits hfull hcap hheld]

theorem ctrWrite_slot {v : Engine} (hv : endCapWait e none = v) {ts : List CtrTask}
    (htasks : e.sec.ctrTasks = .slot la :: ts) :
    ctrWrite e = ctrEnd (queueSlot { v with sec := { v.sec with ctrTasks := ts } } la poisonSlot v.clk.tb) := by
  subst hv
  unfold ctrWrite
  simp only [htasks]
  rw [whenFits_of_fits hfull hcap hheld]

end

end

/-! ## The obligation -/

theorem qosStage_answers {s : State} {n : Fin 16} (hsafe : isSafe s.fresh = false) (hclk : clocked s.fresh = true)
    (hen : on s.fresh (CH_SCHED_CTRL_SCHED_EN n) = true) {id : Nat} {ids : List Nat}
    (hq : tget [] s.fresh.qos.writes n = id :: ids) (hshut : intakeShut s.fresh n = false) {r : Engine}
    (hr : lookWrites s.dram n s.fresh [] (id :: ids) = r) :
    Answers (.writeQueueEntry n) s (syncLines (spargeLook r n) n) :=
  run_of_eq ((writeQueueEntry_of_intake hclk hsafe hen hshut).trans
    (congrArg (fun x => syncLines (spargeLook x n) n) (hq ▸ hr)))

/-- Settles O22: each command by the equation of its case. -/
theorem packerAndMetadataAct : Obligations.PackerAndMetadataAct := by
  refine ⟨fun s n hsafe hclk => ?_, fun s => ⟨fun x hclk hsafe => ?_, fun t ts hts => ?_, fun r rs e hr htake =>
    run_of_eq (metadataReturn_of_taken hr htake), fun k => ?_, fun e b r i hb huse => ?_, fun l n htasks hlost hagreed => ?_,
    fun k ts htasks => ?_, fun e k ts htasks => ?_⟩⟩
  · intro look
    refine ⟨fun hen => ⟨run_of_eq (qosRelease_of_intake hclk hsafe hen), fun ids id t hq ht hshut => ?_⟩,
      fun t r h => run_of_eq (mergeReadReturn_of_returned hclk hsafe h),
      fun q r h => run_of_eq (partnerReadReturn_of_returned hclk hsafe h)⟩
    have hout {r : Engine} := qosStage_answers hsafe hclk hen hq hshut (r := r)
    refine ⟨fun e h => hout (lookWrites_stop ht h), fun e h => hout (lookWrites_pass ht h),
      fun e h => hout (lookWrites_passLine ht h), fun l e' => ?_⟩
    intro e la hreads hearly hline hpair hmerge hrebuild hlost hbits hfull k hdone
    exact hout (lookWrites_stop ht
      (lookWrite_alone hreads hearly hline hpair hmerge hrebuild hlost hbits hfull hdone))
  · exact ⟨fun h => run_of_eq (retryRelease_of_none hclk hsafe h),
      fun before after t hx hbefore ht => run_of_eq (retryRelease_of_gone hclk hsafe hx hbefore ht)⟩
  · exact ⟨fun r hr => run_of_eq (placementPush_returned hts hr), fun hr => run_of_eq (placementPush_reads hts hr)⟩
  · intro e b hb sla
    exact ⟨fun hleft => run_of_eq (rebuildEnd_of_left hb hleft),
      fun hleft hfull hcap hheld => run_of_eq ((rebuildEnd_of_done hb hleft hfull hcap hheld).trans (rebuilt_eq ..))⟩
  · intro g taken
    refine ⟨fun y ho => ?_, fun ho => ?_, fun ho => ?_⟩
    · exact rebuildTake_of_bits hb huse (by rw [ho]; rfl) (if_neg (by rw [ho]; simp))
    · exact rebuildTake_of_bits hb huse (by rw [ho]; rfl) (if_neg (by rw [ho]; simp))
    · exact rebuildTake_of_bits hb huse (by rw [ho]; rfl) (if_pos ho)
  · exact run_of_eq (congrArg ctrWrite (ctrStart_of_lost htasks hlost hagreed))
  · exact run_of_eq (congrArg ctrWrite (ctrStart_of_tasks htasks))
  · intro fits v ends
    have hv : endCapWait e none = v := rfl
    clear_value v
    refine ⟨fun l n pv hk hfits => ?_, fun la hk hfits => ?_⟩
    · subst hk
      obtain ⟨hfull, hcap, hheld⟩ := hfits
      exact (ctrWrite_node hfull hcap hheld hv rfl htasks).trans (ctrEnd_eq _)
    · subst hk
      obtain ⟨hfull, hcap, hheld⟩ := hfits
      exact (ctrWrite_slot hfull hcap hheld hv htasks).trans (ctrEnd_eq _)

end Sys2Proof.Machine

/-! # The management ring: bursts, messages, the transit buffer and its timers (R118–R132) -/

namespace Sys2Proof.Machine

/-! ## Words on RING_IN (R57, R118, R120) -/

section
variable {e : Engine} {ws : List (BitVec 16)} {wait : Nat} {ty : Nat → Bool}
  (hws : ws ≠ []) (hty : ty (hfield (ws.headD 0) 15 13) = true)
include hws hty

theorem ringIn_active (h : ringActive (regCycles e wait) = true) : ringIn e ty ws wait = takeBurst (regCycles e wait) ws :=
  (if_neg (by rw [hty]; simpa using hws)).trans (if_pos h)

/-- What an interface that is not active lets pass. -/
theorem ringIn_passes (h : ringActive (regCycles e wait) = false) :
    ringIn e ty ws wait = mapRing (regCycles e wait) fun r => { r with sent := r.sent ++ [ws] } :=
  (if_neg (by rw [hty]; simpa using hws)).trans (if_neg (ne_true_of_eq_false h))

end

section
variable {e : Engine} {ws : List (BitVec 16)}

theorem takeBurst_truncated (h : hfield (ws.headD 0) 5 0 > 32 ∨ ws.length < hfield (ws.headD 0) 5 0 + 3) :
    takeBurst e ws = ringFlag e RING_STATUS_TRUNC :=
  if_pos h

theorem takeBurst_badCrc (hlen : hfield (ws.headD 0) 5 0 ≤ 32) (hws : hfield (ws.headD 0) 5 0 + 3 ≤ ws.length)
    (hcrc : ws.getD (hfield (ws.headD 0) 5 0 + 2) 0 ≠ ringCrc (ws.take (hfield (ws.headD 0) 5 0 + 2))) :
    takeBurst e ws = ringFlag e RING_STATUS_CRC :=
  (if_neg (by omega)).trans (if_pos hcrc)

end

/-! ## A correct message (R121, R124–R130) -/

section
variable {e : Engine} {m : RingMsg}

theorem takeMsg_own (hown : Own e m) : takeMsg e m = if m.typ = tyMgmt then takeMgmt e m else takeAck e m := by
  obtain ⟨-, hcast, hdst⟩ := hown
  exact if_pos (by simp [hcast, hdst])

/-- A broadcast of another engine is forwarded and consumed. -/
theorem takeMsg_passing (hpass : Passing e m) : takeMsg e m = consumeBroadcast (forward e m) m := by
  obtain ⟨-, hcast, hsrc, hhops⟩ := hpass
  refine (if_neg (by simp [hcast])).trans <| (if_neg hsrc).trans <| (if_neg (by omega)).trans (if_pos hcast)

theorem takeMgmt_new (h : e.ring.lastSeq.contains (m.src, m.seq) = false) :
    takeMgmt e m = takeFragment (mapRing (acked e m) fun r => { r with
      lastSeq := (m.src, m.seq) :: r.lastSeq.filter fun (p : Nat × Nat) => p.1 != m.src }) m.src m.payload :=
  if_neg (ne_true_of_eq_false h)

theorem takeMgmt_repeated (h : e.ring.lastSeq.contains (m.src, m.seq) = true) : takeMgmt e m = acked e m :=
  if_pos h

theorem takeAck_matching (h : e.ring.unacked.any (fun u => u.msg.dst == m.src && u.msg.seq == m.seq) = true) :
    takeAck e m = sendWaiting (mapRing e fun r => { r with
      unacked := r.unacked.filter fun u => !(u.msg.dst == m.src && u.msg.seq == m.seq) }) m.src :=
  if_pos h

section
variable (hpass : Passing e m)
include hpass

theorem takeMsg_sync (htyp : m.typ = 2) : takeMsg e m = takeSync (forward e m) m := by
  rw [takeMsg_passing hpass]
  unfold consumeBroadcast
  simp only [htyp]

theorem takeMsg_fault (htyp : m.typ = 3) : takeMsg e m = takeFault (forward e m) m := by
  rw [takeMsg_passing hpass]
  unfold consumeBroadcast
  simp only [htyp]

theorem takeMsg_presence (htyp : m.typ = 4) : takeMsg e m = takePresence (forward e m) m := by
  rw [takeMsg_passing hpass]
  unfold consumeBroadcast
  simp only [htyp]

end

end

/-- The burst of a message whose type is good is taken as that message. -/
theorem ringIn_burst {e : Engine} {m : RingMsg} {wait : Nat} {ty : Nat → Bool} (hm : m.Fits)
    (hgood : typeGood m = true) (hty : ty m.typ = true) (h : ringActive (regCycles e wait) = true) :
    ringIn e ty (ringBurst m) wait = takeMsg (regCycles e wait) m := by
  have htyp : hfield ((ringBurst m).headD 0) 15 13 = m.typ := (hfield_ringHead0 hm).1
  rw [ringIn_active (by simp [ringBurst]) (by rw [htyp, hty]) h, takeBurst_ringBurst hm, if_pos hgood]

/-! ## The transit buffer and the next message (R122, R125) -/

section
variable (e : Engine) (m : RingMsg)

theorem forward_joins (h : transitWords e.ring (regNow e) + burstLen m ≤ 70) : forward e m =
    mapRing e fun r => { r with transit := r.transit ++ [⟨regNow e, { m with hops := m.hops + 1 }⟩] } :=
  if_neg (Nat.not_lt.2 h)

theorem forward_drops (h : 70 < transitWords e.ring (regNow e) + burstLen m) :
    forward e m = inc (ringFlag e RING_STATUS_DROP) RING_DROP_CNT :=
  if_pos h

end

/-- A waiting message starts before another, or with it and from an earlier group. -/
def startsSooner (x y : NextMsg) : Bool := decide (x.start < y.start ∨ (x.start = y.start ∧ x.group < y.group))

/-- A waiting message is no later than another, and of no later group where they start together. -/
def NoLater (x y : NextMsg) : Prop := x.start ≤ y.start ∧ (x.start = y.start → x.group ≤ y.group)

theorem ringNext_eq (r : Ring) : ringNext r = (ringWaiting r).foldl (keepBest startsSooner) none := by
  unfold ringNext
  congr 1
  funext b x
  cases b with
  | none => rfl
  | some y =>
    unfold keepBest startsSooner
    simp only [decide_eq_true_eq]

theorem foldl_startsSooner (l : List NextMsg) (b : NextMsg) : ∃ c, l.foldl (keepBest startsSooner) (some b) = some c ∧
    c ∈ b :: l ∧ ∀ d ∈ b :: l, NoLater c d := by
  refine foldl_best ?_ ?_ ?_ ?_ l b
  · exact fun a => ⟨le_rfl, fun _ => le_rfl⟩
  · intro a b c hab hbc
    unfold NoLater at *
    omega
  · intro a b h
    have := of_decide_eq_true h
    unfold NoLater
    omega
  · intro a b h
    have := of_decide_eq_false h
    unfold NoLater
    omega

/-- The next message waits, and none of the others starts sooner, or with it from an earlier group. -/
theorem ringNext_best {r : Ring} {x : NextMsg} (h : ringNext r = some x) :
    x ∈ ringWaiting r ∧ ∀ y ∈ ringWaiting r, NoLater x y := by
  rw [ringNext_eq] at h
  cases hw : ringWaiting r with
  | nil =>
    rw [hw] at h
    exact absurd h (by simp)
  | cons b l =>
    rw [hw] at h
    obtain ⟨c, hc, hmem, hbest⟩ := foldl_startsSooner l b
    obtain rfl : x = c := Option.some.inj (h.symm.trans hc)
    exact ⟨hmem, hbest⟩

/-- An own message waits to be sent only while the transit buffer holds 35 words or fewer. -/
theorem insertOk_of_own_mem {r : Ring} {t : Nat} {m : OwnMsg} (h : NextMsg.own t m ∈ ringWaiting r) :
    transitWords r r.outFree ≤ 35 := by
  have hok : insertOk r = true := by
    by_contra hno
    simp [ringWaiting, hno] at h
  exact of_decide_eq_true hok

theorem ringStart_sync (e : Engine) {t : Nat} {x : Transit} (h : x.msg.typ = 2) :
    let acc := BitVec.ofNat 16 ((nth x.msg.payload 6 0).toNat + linkDelay e + (t - x.at_))
    ringStart e (.transit t x) = drive (mapRing e fun r => { r with transit := r.transit.erase x })
      { x.msg with payload := setNth x.msg.payload 6 acc } t (decide (t > x.at_ + 4)) := by
  unfold ringStart forwardAcc
  exact congrArg (fun m => drive _ m t _) (if_pos h)

/-! ## The ring's own timers (R124, R125, R127–R132) -/

section
variable {e : Engine}

theorem syncPeriod_of_sender (h : isSyncSender e = true) :
    syncPeriod e = sendSync (tickTo e (e.ring.sentAt + usUnits (rd e RING_TB_CFG_PERIOD_US))) :=
  if_pos h

/-- The engine in which the loss of TB_SYNC has been flagged. -/
def syncLostFlagged (e : Engine) : Engine :=
  let t := tickTo e (e.ring.syncAt + 4 * usUnits (rd e RING_TB_CFG_PERIOD_US))
  mapRing (ringFlag t RING_STATUS_TB_LOST) fun r => { r with syncAt := t.clk.nominal }

/-- Passing time leaves the epoch as valid as it was. -/
theorem epochInvalid_tick (e : Engine) (n : Nat) : (tick e n).clk.epochInvalid = e.clk.epochInvalid := by
  unfold tick clkCycles
  dsimp only
  split
  · rfl
  · rfl

theorem syncLostFlagged_epoch (e : Engine) : (syncLostFlagged e).clk.epochInvalid = e.clk.epochInvalid := by
  unfold syncLostFlagged ringFlag
  rw [mapRing_clk, sqSet_clk]
  exact epochInvalid_tick e _

section
variable (hact : ringActive e = true)
include hact

theorem syncLost_eq (lower : Bool) : syncLost e lower =
    if !lower && !(syncLostFlagged e).clk.epochInvalid then
      sendSync (mapRing (syncLostFlagged e) fun r => { r with sender := true })
    else syncLostFlagged e := by
  have hclk : (ringFlag (tickTo e (e.ring.syncAt + 4 * usUnits (rd e RING_TB_CFG_PERIOD_US))) RING_STATUS_TB_LOST).clk =
      (tickTo e (e.ring.syncAt + 4 * usUnits (rd e RING_TB_CFG_PERIOD_US))).clk := sqSet_clk ..
  unfold syncLost
  rw [if_pos hact]
  dsimp only
  rw [hclk]
  rfl

theorem syncLost_quiet {lower : Bool} (h : lower = true ∨ e.clk.epochInvalid = true) :
    syncLost e lower = syncLostFlagged e := by
  have hclk : (syncLostFlagged e).clk.epochInvalid = e.clk.epochInvalid := syncLostFlagged_epoch e
  rw [syncLost_eq hact, if_neg]
  rw [hclk]
  rcases h with h | h <;> simp [h]

theorem syncLost_takes_over (h : e.clk.epochInvalid = false) :
    syncLost e false = sendSync (mapRing (syncLostFlagged e) fun r => { r with sender := true }) := by
  have hclk : (syncLostFlagged e).clk.epochInvalid = e.clk.epochInvalid := syncLostFlagged_epoch e
  rw [syncLost_eq hact, if_pos]
  rw [hclk, h]
  rfl

section
variable {dst : Nat} {u : Unacked} (hu : e.ring.unacked.find? (fun u => u.msg.dst == dst) = some u)
include hu

theorem mgmtResend_again (h : u.resends < 3) :
    let t := tickTo e (u.at_ + usUnits 20)
    mgmtResend e dst = mapRing (queueOwn t u.msg) fun r => { r with
      unacked := (e.ring.unacked.filter fun v => v.msg.dst != dst) ++ [⟨u.msg, t.clk.nominal, u.resends + 1⟩] } := by
  unfold mgmtResend
  simp only [hu, hact, if_true, h]
  rfl

theorem mgmtResend_unreachable (h : 3 ≤ u.resends) :
    let t := tickTo e (u.at_ + usUnits 20)
    mgmtResend e dst = mapRing (ringFlagPeer t RING_STATUS_UNREACH dst) fun r => { r with
      unacked := e.ring.unacked.filter fun v => v.msg.dst != dst
      waiting := r.waiting.filter (fun m => m.dst != dst), failed := r.failed ++ [dst] } := by
  unfold mgmtResend
  simp only [hu, hact, if_true, Nat.not_lt.2 h, if_false]
  rfl

end

theorem faultRepeat_of_copy {t : Nat} {m : RingMsg} {rest : List (Nat × RingMsg)} (h : e.ring.copies = (t, m) :: rest) :
    faultRepeat e = mapRing (queueOwn (tickTo e t) m) fun r => { r with copies := rest } := by
  unfold faultRepeat
  simp only [h, hact, if_true]

theorem heartbeat_of_active :
    let t := tickTo e (e.ring.beatAt + msUnits (rd e RING_CTRL_HB_MS))
    heartbeat e = broadcastPresence (mapRing t fun r => { r with beatAt := t.clk.nominal }) false false :=
  if_pos hact

theorem heartbeatMiss_of_present {i : Nat} (h : presentBit e i = true) :
    heartbeatMiss e i = ringFlagPeer (setPresent
      (tickTo e (tget 0 e.ring.beats i + 3 * msUnits (rd e RING_CTRL_HB_MS))) i false) RING_STATUS_LEFT i :=
  if_pos (by rw [hact, h]; rfl)

theorem presenceTimeout_of_lap {l : Lap} (h : e.ring.laps.find? (fun l => !l.late) = some l) :
    let rest := e.ring.laps.erase l
    let t := mapRing (tickTo e (l.at_ + usUnits 100)) fun r => { r with
      laps := if l.leave = true then { l with late := true } :: rest else rest }
    presenceTimeout e = raise (ringFlag t RING_STATUS_BROKEN) 0x0A .contained (synOf 4 (ownIdx t)) := by
  unfold presenceTimeout
  simp only [h, hact, if_true]

end

end

/-! ## The obligation -/

/-- Settles O7: a burst by its checks, a message by its type, the next message by `ringNext_best`, and each timer by its
own equation. -/
theorem ringCommandsAct : Obligations.RingCommandsAct := by
  refine ⟨fun s ws wait hws htyp => ?_, fun s m wait => ?_,
    ⟨fun e m => ⟨forward_joins e m, forward_drops e m⟩, fun r x h => ?_, fun e t x h => ringStart_sync e h⟩,
    fun s ws wait hws => ?_, fun s hact => ?_⟩
  · intro e len hact
    have hin := ringIn_active (ty := fun t => t == 0 || decide (4 < t)) (wait := wait) hws (by rw [htyp]; rfl) hact
    exact ⟨fun h => run_of_eq (hin.trans (takeBurst_truncated h)),
      fun hlen hlong hcrc => run_of_eq (hin.trans (takeBurst_badCrc hlen hlong hcrc))⟩
  · intro e hact hgood
    refine ⟨fun htyp hown hseq => ?_, fun htyp hown hseq => ?_, fun htyp hown hhit => ?_,
      fun htyp hpass => ?_, fun htyp hpass => ?_, fun htyp hpass => ?_⟩
    · exact run_of_eq ((ringIn_burst hown.1 hgood (by simp [htyp]) hact).trans
        ((takeMsg_own hown).trans ((if_pos htyp).trans (takeMgmt_new hseq))))
    · exact run_of_eq ((ringIn_burst hown.1 hgood (by simp [htyp]) hact).trans
        ((takeMsg_own hown).trans ((if_pos htyp).trans (takeMgmt_repeated hseq))))
    · exact run_of_eq ((ringIn_burst hown.1 hgood (by simp [htyp]) hact).trans
        ((takeMsg_own hown).trans ((if_neg (by simp [htyp])).trans (takeAck_matching hhit))))
    · exact run_of_eq ((ringIn_burst hpass.1 hgood (by simp [htyp]) hact).trans (takeMsg_sync hpass htyp))
    · exact run_of_eq ((ringIn_burst hpass.1 hgood (by simp [htyp]) hact).trans (takeMsg_fault hpass htyp))
    · exact run_of_eq ((ringIn_burst hpass.1 hgood (by simp [htyp]) hact).trans (takeMsg_presence hpass htyp))
  · obtain ⟨hmem, hbest⟩ := ringNext_best h
    refine ⟨hmem, hbest, fun t m hx => ?_⟩
    subst hx
    exact insertOk_of_own_mem hmem
  · intro e out hact
    have hpass {ty : Nat → Bool} (hty : ty (hfield (ws.headD 0) 15 13) = true) : ringIn s.fresh ty ws wait = out :=
      ringIn_passes hws hty hact
    refine ⟨fun h => run_of_eq (hpass ?_), fun h => run_of_eq (hpass ?_), fun h => run_of_eq (hpass ?_),
      fun h => run_of_eq (hpass ?_), fun h => run_of_eq (hpass ?_)⟩
    · rcases h with h | h
      · rw [h]; rfl
      · exact Bool.or_eq_true_iff.2 (.inr (decide_eq_true h))
    all_goals exact beq_iff_eq.2 h
  · intro e
    refine ⟨fun h => run_of_eq (syncPeriod_of_sender h), ?_, fun dst u hu => ?_,
      fun t m rest h => run_of_eq (faultRepeat_of_copy hact h), run_of_eq (heartbeat_of_active hact),
      fun i h => run_of_eq (heartbeatMiss_of_present hact h), fun l h => run_of_eq (presenceTimeout_of_lap hact h)⟩
    · exact ⟨run_of_eq (syncLost_quiet hact (.inl rfl)), fun h => run_of_eq (syncLost_quiet hact (.inr h)),
        fun h => run_of_eq (syncLost_takes_over hact h)⟩
    · exact ⟨fun h => run_of_eq (mgmtResend_again hact hu h), fun h => run_of_eq (mgmtResend_unreachable hact hu h)⟩

end Sys2Proof.Machine

/-! # A write takes its fields by their access codes (R8–R10, R566–R569) -/

namespace Sys2Proof.Machine

/-! ## The registers of the rejections -/

/-- The CFG_REJECT registers of the regions (R569). -/
def rejectRegs : List Nat :=
  [GC_CFG_REJECT, DIR_CFG_REJECT, CRY_CFG_REJECT, QOS_CFG_REJECT, FLT_CFG_REJECT, PWR_CFG_REJECT, MBX_CFG_REJECT,
    TEL_CFG_REJECT, RING_CFG_REJECT] ++ (List.range 16).map CH_CFG_REJECT

theorem chIx_lt (a : Nat) : chIx a < 16 := by
  unfold chIx chanOfAddr
  split
  · exact Nat.mod_lt _ (by decide)
  · decide

theorem rejectReg_mem (a : Nat) : rejectReg a ∈ rejectRegs := by
  have hch : CH_CFG_REJECT (chIx a) ∈ rejectRegs :=
    List.mem_append_right _ (List.mem_map_of_mem (List.mem_range.mpr (chIx_lt a)))
  unfold rejectReg
  split
  case h_2 => exact hch
  all_goals exact List.mem_append_left _ (by decide)

/-- A rejection is a status that SEQ guards. -/
theorem isSeqReg_of_mem_rejectRegs : ∀ a ∈ rejectRegs, (regDesc a).all isSeqReg = true := by decide

theorem rejectReg_ne {a : Nat} {d : RegDesc} (hd : regDesc a = some d) (hseq : isSeqReg d = false) : a ≠ rejectReg a := by
  intro h
  have hall := isSeqReg_of_mem_rejectRegs a (h ▸ rejectReg_mem a)
  rw [hd] at hall
  exact Bool.false_ne_true (hseq.symm.trans hall)

theorem rejectReg_ne_parInj (a : Nat) : rejectReg a ≠ GC_PAR_INJ := by
  have h : ∀ b ∈ rejectRegs, b ≠ GC_PAR_INJ := by decide
  exact h _ (rejectReg_mem a)

/-! ## The value that a write leaves -/

theorem mixWord_mixWord (m k new old : Word) : mixWord k old (mixWord m new old) = mixWord (m &&& ~~~k) new old := by
  refine BitVec.eq_of_getLsbD_eq fun i hi => ?_
  simp only [getLsbD_mixWord, BitVec.getLsbD_and, BitVec.getLsbD_not, hi]
  cases k.getLsbD i <;> simp

theorem mixWord_of_subset (m k new old : Word) :
    mixWord (m &&& ~~~k) (mixWord m new old) old = mixWord (m &&& ~~~k) new old := by
  refine BitVec.eq_of_getLsbD_eq fun i hi => ?_
  simp only [getLsbD_mixWord, BitVec.getLsbD_and, BitVec.getLsbD_not, hi]
  cases m.getLsbD i <;> simp

/-- The RWD bits that an enabled block keeps (R567). -/
def keptMask (e : Engine) (a : Nat) (d : RegDesc) : Word :=
  if d.blk.any (blkOn e (chIx a)) then accMask [.rwd] d.fields else 0

/-- The bits that a write takes. -/
def freeMask (e : Engine) (a : Nat) (d : RegDesc) : Word := accMask [.rw, .rwd] d.fields &&& ~~~ (keptMask e a d)

/-- The value that a write asks for where its register's block lets it. -/
def askedValue (e : Engine) (a al : Nat) (d : RegDesc) (data : Word) : Word :=
  mixWord (freeMask e a d) (aliasApply al (reg e a) data) (reg e a)

/-- The value asked for sets, or clears, the enable of the register. -/
def setsEnable (e : Engine) (a : Nat) (v : Word) : Bool := isEnableReg a && !(reg e a).getLsbD 31 && v.getLsbD 31
def clearsEnable (e : Engine) (a : Nat) (v : Word) : Bool := isEnableReg a && (reg e a).getLsbD 31 && !v.getLsbD 31

/-- A check on the new values keeps the enable 0, or an enabled ingress keeps it 1 (R566, R105). -/
def setRefused (e : Engine) (a : Nat) (v : Word) : Bool := setsEnable e a v && !enableOk (setReg e a v) a
def clearKept (e : Engine) (a : Nat) (v : Word) : Bool := clearsEnable e a v && clearRefused e a

/-- The value that the write leaves in the register. -/
def leftValue (e : Engine) (a : Nat) (v : Word) : Word :=
  if setRefused e a v || (setsEnable e a v && (a == GC_GRIST_CTRL || a == DIR_CTRL)) then setWordField v 31 31 0
  else if clearKept e a v then setWordField v 31 31 1
  else v

/-- The register stored, and the attempt flagged where a rule held some of it back. -/
def storeFlagged (e : Engine) (p : RegPort) (a : Nat) (held : Word) (v : Word) : Engine :=
  if held ≠ 0 then reject (storeReg e a (leftValue e a v)) p a 0
  else if setRefused e a v || clearKept e a v then reject (storeReg e a (leftValue e a v)) p a 1
  else storeReg e a (leftValue e a v)

theorem leftValue_of_not_enable {a : Nat} (h : isEnableReg a = false) (e : Engine) (v : Word) : leftValue e a v = v := by
  simp [leftValue, setRefused, clearKept, setsEnable, clearsEnable, h]

theorem storeFlagged_of_not_enable {a : Nat} (h : isEnableReg a = false) (e : Engine) (p : RegPort) (held v : Word) :
    storeFlagged e p a held v = if held ≠ 0 then reject (storeReg e a v) p a 0 else storeReg e a v := by
  simp [storeFlagged, leftValue_of_not_enable h, setRefused, clearKept, setsEnable, clearsEnable, h]

/-- Below the enable, the value asked for is left. -/
theorem getLsbD_leftValue (e : Engine) (a : Nat) (v : Word) {i : Nat} (h : i < 31) :
    (leftValue e a v).getLsbD i = v.getLsbD i := by
  have hset (n : Nat) : (setWordField v 31 31 n).getLsbD i = v.getLsbD i := by
    rw [getLsbD_setWordField _ _ _ (by decide) (by decide), if_neg (by omega)]
  unfold leftValue
  split_ifs
  · exact hset 0
  · exact hset 1
  · rfl

theorem top_setWordField (v : Word) (n : Nat) : (setWordField v 31 31 n).getLsbD 31 = n.testBit 0 := by
  rw [getLsbD_setWordField _ _ _ (by decide) (by decide), if_pos (by decide)]

section
variable {e : Engine} {a : Nat} {v : Word}

theorem top_leftValue_of_setRefused (h : setRefused e a v = true) : (leftValue e a v).getLsbD 31 = false := by
  rw [leftValue, if_pos (by rw [h]; rfl), top_setWordField]
  rfl

/-- A set enable stands in the register, but for the two whose blocks set it when they are ready (R103, R349). -/
theorem top_leftValue_of_set (h : setsEnable e a v = true) (hok : setRefused e a v = false) :
    (leftValue e a v).getLsbD 31 = true ∨ a = GC_GRIST_CTRL ∨ a = DIR_CTRL := by
  by_cases hlate : a = GC_GRIST_CTRL ∨ a = DIR_CTRL
  · exact .inr hlate
  · left
    obtain ⟨hg, hd⟩ := not_or.mp hlate
    simp only [setsEnable, Bool.and_eq_true, Bool.not_eq_true'] at h
    obtain ⟨⟨-, hold⟩, hv⟩ := h
    simp [leftValue, hok, hg, hd, clearKept, clearsEnable, hold, hv, -BitVec.getLsbD_eq_getElem]

/-- A write that clears an enable sets none. -/
theorem setsEnable_of_clears (h : clearsEnable e a v = true) : setsEnable e a v = false := by
  simp only [clearsEnable, Bool.and_eq_true, Bool.not_eq_true'] at h
  obtain ⟨-, hv⟩ := h
  rw [setsEnable, hv, Bool.and_false]

theorem top_leftValue_of_clears (h : clearsEnable e a v = true) :
    (leftValue e a v).getLsbD 31 = clearRefused e a := by
  have hset := setsEnable_of_clears h
  simp only [leftValue, setRefused, hset, clearKept, h, Bool.false_and, Bool.or_self, Bool.false_eq_true, if_false,
    Bool.true_and]
  simp only [clearsEnable, Bool.and_eq_true, Bool.not_eq_true'] at h
  obtain ⟨-, hv⟩ := h
  cases clearRefused e a
  · exact hv
  · exact top_setWordField v 1

end

/-! ## The write -/

theorem storeWrite_of_discarded {e : Engine} {p : RegPort} {a al : Nat} {d : RegDesc} {data : Word} {c : Nat}
    (h : discarded e p a al data (wanted d al (reg e a) data) = some c) :
    storeWrite e p a al d data = ⟨reject e p a c, false, false, false⟩ := by
  simp only [storeWrite, h]

/-- A write that no rule discards, where no lock holds: it leaves `leftValue`, and flags what was held back. -/
theorem storeWrite_of_kept {e : Engine} {p : RegPort} {a al : Nat} {d : RegDesc} {data : Word}
    (h : discarded e p a al data (wanted d al (reg e a) data) = none) (hlock : lockMask e p a = 0)
    (hspare : a ≠ GC_SPARE_CTRL) :
    let v := askedValue e a al d data
    let x := storeFlagged e p a ((reg e a ^^^ wanted d al (reg e a) data) &&& keptMask e a d) v
    storeWrite e p a al d data = ⟨if setRefused e a v = true ∧ a = GC_ING_CTRL then ingRefused x p else x,
      setsEnable e a v && !setRefused e a v, clearsEnable e a v && !clearKept e a v, true⟩ := by
  have hv : mixWord (keptMask e a d ||| 0) (reg e a) (wanted d al (reg e a) data) = askedValue e a al d data := by
    rw [show keptMask e a d ||| 0 = keptMask e a d from BitVec.or_zero]
    exact mixWord_mixWord ..
  have hnone : (reg e a ^^^ wanted d al (reg e a) data) &&& 0 = 0 := BitVec.and_zero
  intro v x
  simp only [storeWrite, h, hlock, if_neg hspare, hnone, ne_eq, not_true_eq_false, if_false]
  rw [show (if d.blk.any (blkOn e (chIx a)) then accMask [.rwd] d.fields else 0) = keptMask e a d from rfl, hv]
  rfl

section
variable (e : Engine) (p : RegPort) {a : Nat} (held v : Word)

theorem reg_storeFlagged_same (h : a ≠ rejectReg a) : reg (storeFlagged e p a held v) a = leftValue e a v := by
  have hrej (c : Nat) : reg (reject (storeReg e a (leftValue e a v)) p a c) a = leftValue e a v := by
    rw [reject, reg_rejectIn_ne _ _ _ _ h, reg_storeReg_same]
  unfold storeFlagged
  split_ifs
  · exact hrej 0
  · exact hrej 1
  · exact reg_storeReg_same ..

theorem reg_storeFlagged_ne {b : Nat} (h : b ≠ a) (hrej : b ≠ rejectReg a) (hinj : b ≠ GC_PAR_INJ) :
    reg (storeFlagged e p a held v) b = reg e b := by
  have hr (c : Nat) : reg (reject (storeReg e a (leftValue e a v)) p a c) b = reg e b := by
    rw [reject, reg_rejectIn_ne _ _ _ _ hrej, reg_storeReg_ne _ _ h hinj]
  unfold storeFlagged
  split_ifs
  · exact hr 0
  · exact hr 1
  · exact reg_storeReg_ne _ _ h hinj

end

/-- The register holds what the write leaves, whatever is flagged. -/
theorem reg_storeWrite_same {e : Engine} {p : RegPort} {a al : Nat} {d : RegDesc} {data : Word}
    (h : discarded e p a al data (wanted d al (reg e a) data) = none) (hlock : lockMask e p a = 0)
    (hspare : a ≠ GC_SPARE_CTRL) (hrej : a ≠ rejectReg a) :
    reg (storeWrite e p a al d data).e a = leftValue e a (askedValue e a al d data) := by
  rw [storeWrite_of_kept h hlock hspare]
  simp only
  split_ifs with hing
  · obtain ⟨-, rfl⟩ := hing
    rw [reg_ingRefused_ne _ _ (by decide), reg_storeFlagged_same _ _ _ _ hrej]
  · exact reg_storeFlagged_same _ _ _ _ hrej

/-- A bit of the aliases' four effects (R9). -/
theorem getLsbD_aliasApply {al : Nat} (hal : al < 4) (old data : Word) {i : Nat} (hi : i < 32) :
    (aliasApply al old data).getLsbD i =
      (if al = 0 then data.getLsbD i else if al = 1 then old.getLsbD i || data.getLsbD i
       else if al = 2 then old.getLsbD i && !data.getLsbD i else xor (old.getLsbD i) (data.getLsbD i)) := by
  interval_cases al
  · rfl
  · exact BitVec.getLsbD_or
  · simp [aliasApply, hi, -BitVec.getLsbD_eq_getElem]
  · exact BitVec.getLsbD_xor

/-- Settles O50: a write is discarded, or leaves the bits asked for in the free fields, with the enable held back
where its checks say so. -/
theorem writesTakeTheirFields : Obligations.WritesTakeTheirFields := by
  unfold Obligations.WritesTakeTheirFields
  intro e p a al d data hal hd hseq hlock hspare old want w rwd free set clr new
  have hrej : a ≠ rejectReg a := rejectReg_ne hd hseq
  refine ⟨fun c hc => ?_, fun hkept => ?_⟩
  · have hw : w = _ := storeWrite_of_discarded hc
    rw [hw]
    exact ⟨rfl, reg_rejectIn_ne _ _ _ _ hrej, fun b hb => reg_rejectIn_ne _ _ _ _ (by simpa using hb)⟩
  have hmix : ((want &&& free) ||| (old &&& ~~~ free)) = new := mixWord_of_subset ..
  have hset : set = (new.getLsbD 31 && !old.getLsbD 31) := by rw [← hmix]
  have hclr : clr = (old.getLsbD 31 && !new.getLsbD 31) := by rw [← hmix]
  have hreg : reg w.e a = leftValue e a new := reg_storeWrite_same hkept hlock hspare hrej
  have hw : w = _ := storeWrite_of_kept hkept hlock hspare
  have hing {x : Engine} (h : a ≠ GC_ING_CTRL) :
      (if setRefused e a new = true ∧ a = GC_ING_CTRL then ingRefused x p else x) = x := if_neg fun hx => h hx.2
  refine ⟨by rw [hw], fun b hb hbr hbi hai => ?_, fun i hi hfree => ?_, fun i hi hfree => ?_, fun hen => ?_, fun hen => ?_⟩
  · rw [hw]
    exact (congrArg (reg · b) (hing hai)).trans (reg_storeFlagged_ne e p _ _ hb hbr hbi)
  · rw [hreg, getLsbD_leftValue _ _ _ hi, getLsbD_mixWord, if_pos hfree]
    exact getLsbD_aliasApply hal _ _ (by omega)
  · rw [hreg, getLsbD_leftValue _ _ _ hi, getLsbD_mixWord, if_neg (by simp [hfree])]
  · have hai : a ≠ GC_ING_CTRL := by rintro rfl; exact absurd hen (by decide)
    have he : w.e = if (want ^^^ old) &&& rwd ≠ 0 then reject (storeReg e a new) p a 0 else storeReg e a new := by
      rw [hw, BitVec.xor_comm want old]
      exact (hing hai).trans (storeFlagged_of_not_enable hen ..)
    refine ⟨hreg.trans (leftValue_of_not_enable hen e new), fun h => ?_, fun h => by rw [he, if_pos h]⟩
    rw [he, if_neg (not_not.mpr h), reg_storeReg_ne _ _ hrej.symm (rejectReg_ne_parInj a)]
  · have hsets : setsEnable e a new = set := by
      rw [setsEnable, hen, hset, Bool.true_and, Bool.and_comm]
    have hclears : clearsEnable e a new = clr := by rw [clearsEnable, hen, hclr, Bool.true_and]
    have hwset : w.set = (setsEnable e a new && !setRefused e a new) := congrArg Wrote.set hw
    have hwclr : w.clr = (clearsEnable e a new && !clearKept e a new) := congrArg Wrote.clr hw
    refine ⟨fun h hok => ?_, fun h hbad => ?_, fun h hok => ?_, fun h hbad => ?_⟩
    · have hs := hsets.trans h
      have hr : setRefused e a new = false := by rw [setRefused, hok, Bool.not_true, Bool.and_false]
      exact ⟨by rw [hwset, hs, hr]; rfl, by rw [hreg]; exact top_leftValue_of_set hs hr⟩
    · have hr : setRefused e a new = true := by rw [setRefused, hsets, h, hbad]; rfl
      exact ⟨by rw [hwset, hr, Bool.not_true, Bool.and_false], by rw [hreg, top_leftValue_of_setRefused hr]⟩
    · have hc := hclears.trans h
      exact ⟨by rw [hwclr, clearKept, hc, hok]; rfl, by rw [hreg, top_leftValue_of_clears hc, hok]⟩
    · have hc := hclears.trans h
      exact ⟨by rw [hwclr, clearKept, hc, hbad]; rfl, by rw [hreg, top_leftValue_of_clears hc, hbad]⟩

end Sys2Proof.Machine

/-! # What a stored write sets going (R47, R562) -/

namespace Sys2Proof.Machine

/-! ## A write through a port -/

/-- A command that is a write access: it acts as the register at its address does, once the access completes. -/
theorem writes_of_regWrite {i : Instr} {s : State} {rp : RegPort} {addr : Nat} {data : Word} {e : Engine}
    (hrun : exec i s = .next (s.runWrite fun _ x => portWrite x rp addr data))
    (heffect : regWrite (traced s rp addr data) rp (valueAddr addr) (aliasOf addr) data = e) :
    Writes i s rp addr data e where
  down hdown := hrun.trans (runWrite_of_eq (if_pos hdown))
  error hup herr := by
    refine hrun.trans (runWrite_of_eq ?_)
    rw [portWrite, if_neg (by simp [hup])]
    exact if_pos herr
  effect hup hok := by
    refine hrun.trans (runWrite_of_eq ?_)
    rw [portWrite, if_neg (by simp [hup])]
    exact (if_neg (not_not.mpr hok)).trans heffect

theorem valueAddr_of_aligned {a : Nat} (h : a % 16 = 0) : valueAddr a = a := by
  unfold valueAddr
  omega

theorem aliasOf_of_aligned {a : Nat} (h : a % 16 = 0) : aliasOf a = 0 := by
  unfold aliasOf
  omega

/-- A command that writes a stored register at its value address stores the write, and sets going what follows it. -/
theorem stores_of_afterWrite {i : Instr} {s : State} {rp : RegPort} {a : Nat} {data : Word} {f : Wrote → Engine}
    (hrun : exec i s = .next (s.runWrite fun _ x => portWrite x rp a data)) (h16 : a % 16 = 0)
    (hseq : (regDesc a).any isSeqReg = false) (hspecial : ∀ e, special e rp a 0 data = none)
    (hafter : ∀ w, w.done = true → afterWrite w rp a 0 (reg s.fresh a) data = f w) : Stores i s rp a data f := by
  intro d hd w
  refine writes_of_regWrite hrun ?_
  have hold : reg (traced s rp a data) a = reg s.fresh a := reg_traceRec ..
  have hnot : isSeqReg d = false := by rw [hd] at hseq; exact hseq
  simp only [regWrite, valueAddr_of_aligned h16, aliasOf_of_aligned h16, hspecial, hd, hnot, hold, Bool.false_eq_true,
    if_false]
  by_cases hdone : w.done = true
  · exact (if_pos hdone).trans ((hafter w hdone).trans (if_pos hdone).symm)
  · exact (if_neg hdone).trans (if_neg hdone).symm

/-- What follows a stored write may be said of the writes only that this one can be. -/
theorem Stores.congr {i : Instr} {s : State} {rp : RegPort} {a : Nat} {data : Word} {f g : Wrote → Engine}
    (h : Stores i s rp a data f) (hfg : ∀ e d, f (storeWrite e rp a 0 d data) = g (storeWrite e rp a 0 d data)) :
    Stores i s rp a data g := by
  intro d hd w
  have hw : f w = g w := hfg _ d
  rw [← hw]
  exact h d hd

/-- A word with the enable at 0 sets no enable. -/
theorem storeWrite_set_of_top {a : Nat} {data : Word} (hspare : a ≠ GC_SPARE_CTRL) (htop : data.getLsbD 31 = false)
    (e : Engine) (p : RegPort) (d : RegDesc) : (storeWrite e p a 0 d data).set = false := by
  have hmix (m x : Word) (hold : (reg e a).getLsbD 31 = false) (hx : x.getLsbD 31 = false) :
      (mixWord m x (reg e a)).getLsbD 31 = false ∧ (mixWord m (reg e a) x).getLsbD 31 = false := by
    simp only [getLsbD_mixWord, hold, hx, ite_self, and_self]
  simp only [storeWrite]
  split
  · rfl
  · simp only [if_neg hspare]
    cases hold : (reg e a).getLsbD 31
    · have hw : (wanted d 0 (reg e a) data).getLsbD 31 = false := (hmix _ _ hold htop).1
      rw [(hmix _ _ hold hw).2, Bool.and_false, Bool.false_and]
    · rw [Bool.not_true, Bool.and_false, Bool.false_and, Bool.false_and]

/-! ## Registers that are plain storage -/

theorem special_of_general {a : Nat} (h : a / 0x100000 = 0) (ha : a ∉ [GC_WRW_SEL, GC_DBG_CORE, GC_CFG_GEN])
    (e : Engine) (p : RegPort) (al : Nat) (data : Word) : special e p a al data = none := by
  simp only [List.mem_cons, List.not_mem_nil, or_false, not_or] at ha
  obtain ⟨hsel, hcore, hgen⟩ := ha
  simp [special, h, hsel, hcore, hgen]

theorem special_of_channel {a : Nat} (h : a / 0x100000 = 1) (ha : a ≠ CH_CFG_GEN (chIx a)) (e : Engine) (p : RegPort)
    (al : Nat) (data : Word) : special e p a al data = none := by
  simp only [special, h]
  exact if_neg fun hx => ha hx.1

theorem special_of_region {a : Nat} (h : a / 0x100000 ∈ [2, 3, 4, 6, 8, 9]) (e : Engine) (p : RegPort) (al : Nat)
    (data : Word) : special e p a al data = none := by
  simp only [List.mem_cons, List.not_mem_nil, or_false] at h
  rcases h with h | h | h | h | h | h <;> simp only [special, h]

theorem special_mbxCtrl (e : Engine) (p : RegPort) (al : Nat) (data : Word) : special e p MBX_CTRL al data = none := by
  simp [special, mbxSpecial, MBX_CTRL, MBX_MB_STATE, MBX_MB_CMD, MBX_BIND, MBX_CORE_KICK, MBX_SEM_OP]

/-! ## Registers of a channel -/

/-- The address at an offset into the registers of channel `n` (R586). -/
abbrev chanReg (n off : Nat) : Nat := off + 0x100000 + n * 0x10000

theorem chIx_chanReg (n : Fin 16) {off : Nat} (h : off < 0x10000) : chIx (chanReg n off) = n := by
  have hn := n.isLt
  have hch : chanOfAddr (chanReg n off) = some (n : Nat) := by
    rw [chanOfAddr, if_pos (by simp only [chanReg]; omega)]
    congr 1
    simp only [chanReg]
    omega
  rw [chIx, hch]
  rfl

/-- The transaction that a write of GO puts into the sideband's queue of bus `b` (R251). -/
def askSideband (e : Engine) (b a : Nat) : Engine :=
  let e := setReg e a (setFields (reg e a) [(CH_I3C_CMD_BUSY b, 1), (CH_I3C_CMD_DONE b, 0), (CH_I3C_CMD_ERR b, 0)])
  let v := getChan e (2 * b)
  putChan e (2 * b) { v with i3c := { v.i3c with queue := v.i3c.queue ++ [⟨4, .host, rd e (CH_I3C_CMD_HUB b), 0⟩] } }

/-- What a write at an offset into a channel's registers sets going. -/
def afterChanReg (w : Wrote) (n off : Nat) (data : Word) : Engine :=
  let e := w.e
  if 0x200 ≤ off ∧ off ≤ 0x290 then timWritten e n
  else if off = 0x100 then (if w.set then schedSet e n else e)
  else if off = 0x400 then (if w.set || w.clr then judgeAll e n else e)
  else if off = 0x450 then (if w.set then rgEnabled e n else e)
  else if off = 0x600 then
    (if w.set then mapTrain e n fun t => { t with drift := e.clk.nominal } else e)
  else if off = 0x610 then
    (if data.getLsbD 31 then
      beginRun e n (rd e (CH_TRN_CMD_MODE n)) (rd e (CH_TRN_CMD_PRANKS n)) (rd e (CH_TRN_CMD_STEPS n)) none
     else e)
  else if off = 0x810 then
    (if w.set then putChan e n { getChan e n with
        patrolAt := e.clk.nominal, scrubAt := e.clk.nominal, ecsAt := e.clk.nominal } else e)
  else if off = 0x800 then (if data.getLsbD 30 then eccClear e n else e)
  else if off = 0x6A0 ∧ n % 2 = 0 ∧ data.getLsbD 31 then askSideband e (n / 2) (chanReg n 0x6A0)
  else e

theorem chanReg_eq_iff (n off off' : Nat) : chanReg n off = chanReg n off' ↔ off = off' := by
  simp only [chanReg]
  omega

theorem chanReg_le_iff (n off off' : Nat) : chanReg n off ≤ chanReg n off' ↔ off ≤ off' := by
  simp only [chanReg]
  omega

theorem afterWrite_channel {a : Nat} (h : a / 0x100000 = 1) (w : Wrote) (p : RegPort) (al : Nat) (old data : Word) :
    afterWrite w p a al old data = afterCh w a al data := by
  simp only [afterWrite, h]

theorem afterCh_chanReg (w : Wrote) (n : Fin 16) {off : Nat} (h : off < 0x10000) (data : Word) :
    afterCh w (chanReg n off) 0 data = afterChanReg w n off data := by
  have htim : (isTim (chanReg n off) n = true) = (0x200 ≤ off ∧ off ≤ 0x290) := by
    have h0 := chanReg_le_iff n 0x200 off
    have h9 := chanReg_le_iff n off 0x290
    simp only [isTim, Bool.and_eq_true, decide_eq_true_eq]
    exact propext (and_congr h0 h9)
  have heq (off' : Nat) : (chanReg n off = chanReg n off') = (off = off') := propext (chanReg_eq_iff n off off')
  have hi3c : ((n : Nat) % 2 = 0 ∧ chanReg n off = CH_I3C_CMD (n / 2) ∧ data.getLsbD 31 = true) =
      (off = 0x6A0 ∧ (n : Nat) % 2 = 0 ∧ data.getLsbD 31 = true) := by
    simp only [chanReg, CH_I3C_CMD]
    refine propext ⟨fun ⟨heven, ha, hgo⟩ => ⟨by omega, heven, hgo⟩, fun ⟨ha, heven, hgo⟩ => ⟨heven, by omega, hgo⟩⟩
  have hsched : (chanReg n off = CH_SCHED_CTRL n) = (off = 0x100) := heq 0x100
  have href : (chanReg n off = CH_REF_CTRL n) = (off = 0x400) := heq 0x400
  have hrg : (chanReg n off = CH_RG_CTRL n) = (off = 0x450) := heq 0x450
  have htrn : (chanReg n off = CH_TRN_CTRL n) = (off = 0x600) := heq 0x600
  have hcmd : (chanReg n off = CH_TRN_CMD n) = (off = 0x610) := heq 0x610
  have hscrub : (chanReg n off = CH_SCRUB_CTRL n) = (off = 0x810) := heq 0x810
  have hecc : (chanReg n off = CH_ECC_CTRL n) = (off = 0x800) := heq 0x800
  simp only [afterCh, chIx_chanReg n h, htim, hsched, href, hrg, htrn, hcmd, hscrub, hecc, hi3c, beq_self_eq_true,
    Bool.true_and, afterChanReg]
  by_cases hside : off = 0x6A0 ∧ (n : Nat) % 2 = 0 ∧ data.getLsbD 31 = true
  · obtain ⟨rfl, heven, -⟩ := hside
    simp only [askSideband, show 2 * ((n : Nat) / 2) = n by omega]
  · simp only [if_neg hside]

/-- A command that writes a stored register of channel `n`. -/
theorem stores_of_chanReg {i : Instr} {s : State} {rp : RegPort} {a : Nat} {data : Word} {f : Wrote → Engine}
    (hrun : exec i s = .next (s.runWrite fun _ x => portWrite x rp a data)) (n : Fin 16) {off : Nat}
    (ha : a = chanReg n off) (hoff : off < 0x10000 ∧ off % 16 = 0 ∧ off ≠ 0xE0) (hseq : (regDesc a).any isSeqReg = false)
    (hafter : ∀ w, afterChanReg w n off data = f w) : Stores i s rp a data f := by
  obtain ⟨hlt, h16, hgen⟩ := hoff
  have hn := n.isLt
  subst ha
  refine stores_of_afterWrite hrun (by simp only [chanReg]; omega) hseq
    (fun e => special_of_channel (by simp only [chanReg]; omega) ?_ e rp 0 data) fun w _ => ?_
  · rw [chIx_chanReg n hlt]
    exact fun hx => hgen ((chanReg_eq_iff n off 0xE0).mp hx)
  · rw [afterWrite_channel (by simp only [chanReg]; omega), afterCh_chanReg w n hlt, hafter]

/-- An offset at which a write sets nothing going. -/
theorem afterChanReg_of_plain {off : Nat} (w : Wrote) (n : Nat) (data : Word) (htim : ¬ (0x200 ≤ off ∧ off ≤ 0x290))
    (hoff : off ∉ [0x100, 0x400, 0x450, 0x600, 0x610, 0x6A0, 0x800, 0x810]) : afterChanReg w n off data = w.e := by
  simp only [List.mem_cons, List.not_mem_nil, or_false, not_or] at hoff
  obtain ⟨h1, h2, h3, h4, h5, h6, h7, h8⟩ := hoff
  simp [afterChanReg, htim, h1, h2, h3, h4, h5, h6, h7, h8]

theorem getLsbD_bitAt {b : Nat} (hb : b < 32) : (BitVec.ofNat 32 (2 ^ b)).getLsbD b = true := by
  rw [BitVec.getLsbD_ofNat, decide_eq_true hb, Bool.true_and, Nat.testBit_two_pow_self]

theorem setBits_bit {b : Nat} (hb : b < 32) (data : Word) : (setBits [b] data).getLsbD b = true := by
  show (data ||| BitVec.ofNat 32 (2 ^ b)).getLsbD b = true
  rw [BitVec.getLsbD_or, getLsbD_bitAt hb, Bool.or_true]

theorem clrBits_bit {b : Nat} (hb : b < 32) (data : Word) : (clrBits [b] data).getLsbD b = false := by
  show (data &&& ~~~ (BitVec.ofNat 32 (2 ^ b))).getLsbD b = false
  rw [BitVec.getLsbD_and, BitVec.getLsbD_not, getLsbD_bitAt hb, Bool.not_true, Bool.and_false, Bool.and_false]

theorem goWord_go (mode : Nat) (data : Word) : (goWord mode data).getLsbD 31 = true := by
  rw [goWord, getLsbD_setWordField _ _ _ (by decide) (by decide), if_neg (by decide)]
  exact setBits_bit (by decide) data

/-- The offsets of the registers of a channel that the commands write. -/
def commandOffsets : List Nat := [0x100, 0x300, 0x310, 0x400, 0x450, 0x600, 0x610, 0x800, 0x810]

/-- They are no status of SEQ. -/
theorem regDesc_commandOffsets : ∀ c : Fin 16, ∀ off ∈ commandOffsets, (regDesc (chanReg c off)).any isSeqReg = false := by
  decide

theorem stores_commandOffset {i : Instr} {s : State} {rp : RegPort} {a : Nat} {data : Word} {f : Wrote → Engine}
    (hrun : exec i s = .next (s.runWrite fun _ x => portWrite x rp a data)) (c : Fin 16) {off : Nat}
    (hoff : off ∈ commandOffsets) (ha : a = chanReg c off) (hafter : ∀ w, afterChanReg w c off data = f w) :
    Stores i s rp a data f := by
  have hall : ∀ off ∈ commandOffsets, off < 0x10000 ∧ off % 16 = 0 ∧ off ≠ 0xE0 := by decide
  exact stores_of_chanReg hrun c ha (hall off hoff) (ha ▸ regDesc_commandOffsets c off hoff) hafter

section
variable (s : State) (rp : RegPort) (c : Fin 16) (bus k : Fin 8) (data : Word)

theorem stores_eccMark : Stores (.eccMarkWrite rp c k data) s rp (CH_ECC_MARK c k) data (fun w => w.e) := by
  have hk := k.isLt
  refine stores_of_chanReg rfl c (off := 0x900 + k * 0x10) (by simp only [CH_ECC_MARK, chanReg]; omega) (by omega)
    (by revert c k; decide) fun w => afterChanReg_of_plain w _ _ (by omega) ?_
  simp only [List.mem_cons, List.not_mem_nil, or_false]
  omega

theorem stores_i3cGo : Stores (.i3cGo rp bus data) s rp (CH_I3C_CMD bus) (setBits [31] data)
    (fun w => askSideband w.e bus (CH_I3C_CMD bus)) := by
  have hb := bus.isLt
  have ha : CH_I3C_CMD bus = chanReg (2 * bus) 0x6A0 := by simp only [CH_I3C_CMD, chanReg]; omega
  refine stores_of_chanReg rfl ⟨2 * bus, by omega⟩ ha (by decide) (by revert bus; decide) fun w => ?_
  simp [afterChanReg, ha, setBits_bit, -BitVec.getLsbD_eq_getElem]

/-- A command that starts a run writes GO and its mode (R227, R231). -/
theorem stores_trnCmd {i : Instr} (mode : Nat)
    (hrun : exec i s = .next (s.runWrite fun _ x => portWrite x rp (CH_TRN_CMD c) (goWord mode data))) :
    Stores i s rp (CH_TRN_CMD c) (goWord mode data) (fun w => beginRun w.e c (rd w.e (CH_TRN_CMD_MODE c))
      (rd w.e (CH_TRN_CMD_PRANKS c)) (rd w.e (CH_TRN_CMD_STEPS c)) none) :=
  stores_commandOffset hrun c (off := 0x610) (by decide) rfl fun w => by
    simp [afterChanReg, goWord_go, -BitVec.getLsbD_eq_getElem]

theorem stores_schedCtrl {i : Instr}
    (hrun : exec i s = .next (s.runWrite fun _ x => portWrite x rp (CH_SCHED_CTRL c) data)) :
    Stores i s rp (CH_SCHED_CTRL c) data (fun w => if w.set then schedSet w.e c else w.e) :=
  stores_commandOffset hrun c (off := 0x100) (by decide) rfl fun w => by simp [afterChanReg]

theorem stores_schedDisable :
    Stores (.schedDisable rp c data) s rp (CH_SCHED_CTRL c) (clrBits [31] data) (fun w => w.e) := by
  have hspare : CH_SCHED_CTRL c ≠ GC_SPARE_CTRL := by simp only [CH_SCHED_CTRL, GC_SPARE_CTRL]; omega
  exact (stores_schedCtrl s rp c _ rfl).congr fun e d => by
    rw [storeWrite_set_of_top hspare (clrBits_bit (by decide) data)]
    rfl

end

/-! ## Registers of the other regions -/

/-- These controls are no status of SEQ. -/
theorem regDesc_block_plain : ∀ a ∈ [CRY_CTRL, QOS_CTRL, TEL_CTRL], (regDesc a).any isSeqReg = false := by decide

theorem regDesc_wmCfg : ∀ k : Fin 16, (regDesc (TEL_WM_CFG k)).any isSeqReg = false := by decide

section
variable {i : Instr} {s : State} {rp : RegPort} {data : Word}

theorem stores_telCtrl (hrun : exec i s = .next (s.runWrite fun _ x => portWrite x rp TEL_CTRL data)) :
    Stores i s rp TEL_CTRL data (fun w =>
      if w.set then telEnabled (telActs w.e data) else if w.clr then epochEnd (telPartial (telActs w.e data))
      else telActs w.e data) :=
  stores_of_afterWrite hrun (by decide) (regDesc_block_plain _ (by decide)) (special_of_region (by decide) · rp 0 _)
    fun w _ => by simp [afterWrite, TEL_CTRL, telDisabled]

theorem stores_wmConfig (k : Fin 16) (hrun : exec i s = .next (s.runWrite fun _ x => portWrite x rp (TEL_WM_CFG k) data)) :
    Stores i s rp (TEL_WM_CFG k) data (fun w =>
      if on w.e TEL_CTRL_TEL_EN then wmLook (wmSetArmed w.e k true) k else wmSetArmed w.e k true) := by
  have hk := k.isLt
  have hregion : TEL_WM_CFG k / 0x100000 = 8 := by simp only [TEL_WM_CFG]; omega
  refine stores_of_afterWrite hrun (by simp only [TEL_WM_CFG]; omega) (regDesc_wmCfg k)
    (special_of_region (by rw [hregion]; decide) · rp 0 _) fun w hdone => ?_
  have hctrl : TEL_WM_CFG k ≠ TEL_CTRL := by simp only [TEL_WM_CFG, TEL_CTRL]; omega
  have hle : TEL_WM_CFG 0 ≤ TEL_WM_CFG k := by simp only [TEL_WM_CFG]; omega
  have hix : (TEL_WM_CFG k - TEL_WM_CFG 0) / 0x20 = k := by simp only [TEL_WM_CFG]; omega
  simp only [afterWrite, hregion, if_neg hctrl, hle, hdone, and_self, if_true, hix]

theorem stores_cryCtrl (hrun : exec i s = .next (s.runWrite fun _ x => portWrite x rp CRY_CTRL data)) :
    Stores i s rp CRY_CTRL data (fun w => if w.set then ctxGenerate w.e 0 0 else w.e) :=
  stores_of_afterWrite hrun (by decide) (regDesc_block_plain _ (by decide)) (special_of_region (by decide) · rp 0 _)
    fun w _ => by simp [afterWrite, CRY_CTRL]

theorem stores_qosCtrl (hrun : exec i s = .next (s.runWrite fun _ x => portWrite x rp QOS_CTRL data)) :
    Stores i s rp QOS_CTRL data (fun w => afterQos w rp 0 data) :=
  stores_of_afterWrite hrun (by decide) (regDesc_block_plain _ (by decide)) (special_of_region (by decide) · rp 0 _)
    fun w _ => by simp [afterWrite, QOS_CTRL]

/-- A register of the general region. -/
theorem stores_of_general {a : Nat} {f : Wrote → Engine}
    (hrun : exec i s = .next (s.runWrite fun _ x => portWrite x rp a data))
    (ha : a ∈ [GC_ING_CTRL, GC_GRIST_CTRL, GC_SPARE_CTRL, GC_PAR_INJ, GC_DBG_CTRL])
    (hafter : ∀ w, afterWrite w rp a 0 (reg s.fresh a) data = f w) : Stores i s rp a data f := by
  have hplain : ∀ a ∈ [GC_ING_CTRL, GC_GRIST_CTRL, GC_SPARE_CTRL, GC_PAR_INJ, GC_DBG_CTRL],
      a % 16 = 0 ∧ a / 0x100000 = 0 ∧ a ∉ [GC_WRW_SEL, GC_DBG_CORE, GC_CFG_GEN] ∧
        (regDesc a).any isSeqReg = false := by decide
  obtain ⟨h16, hregion, hne, hseq⟩ := hplain a ha
  exact stores_of_afterWrite hrun h16 hseq (special_of_general hregion hne · rp 0 _) fun w _ => hafter w

end

section
variable {i : Instr} {s : State} {rp : RegPort} {data : Word} {a : Nat} {f : Wrote → Engine}

/-- A register of a region that no rule of its own treats. -/
theorem stores_of_block (hrun : exec i s = .next (s.runWrite fun _ x => portWrite x rp a data))
    (ha : a ∈ [DIR_CTRL, PWR_TB_SETC, PWR_CMD, RING_CTRL])
    (hafter : ∀ w, afterWrite w rp a 0 (reg s.fresh a) data = f w) : Stores i s rp a data f := by
  have hplain : ∀ a ∈ [DIR_CTRL, PWR_TB_SETC, PWR_CMD, RING_CTRL],
      a % 16 = 0 ∧ a / 0x100000 ∈ [2, 3, 4, 6, 8, 9] ∧ (regDesc a).any isSeqReg = false := by decide
  obtain ⟨h16, hregion, hseq⟩ := hplain a ha
  exact stores_of_afterWrite hrun h16 hseq (special_of_region hregion · rp 0 _) fun w _ => hafter w

theorem stores_mbxLock (s : State) (rp : RegPort) (data : Word) :
    Stores (.mbxLock rp data) s rp MBX_CTRL (setBits [31] data) (fun w => w.e) :=
  stores_of_afterWrite rfl (by decide) (by decide) (special_mbxCtrl · rp 0 _) fun w _ => by simp [afterWrite, MBX_CTRL]

end

/-- Settles O52: each command is the write of one register, and what its block does with it follows the stored write. -/
theorem storingCommandsSetTheirBlocksGoing : Obligations.StoringCommandsSetTheirBlocksGoing := by
  unfold Obligations.StoringCommandsSetTheirBlocksGoing
  intro s rp c bus k data go old
  refine ⟨stores_of_general rfl (by decide) fun w => by simp [afterWrite, GC_ING_CTRL],
    stores_of_general rfl (by decide) fun w => by simp [afterWrite, GC_GRIST_CTRL],
    stores_of_block rfl (by decide) fun w => by simp [afterWrite, DIR_CTRL],
    stores_of_general rfl (by decide) fun w => by simp [afterWrite, GC_SPARE_CTRL, old],
    stores_of_general rfl (by decide) fun w => by simp [afterWrite, GC_PAR_INJ],
    stores_of_general rfl (by decide) fun w => by simp [afterWrite, GC_DBG_CTRL],
    ?tel, stores_wmConfig c rfl, ?eccClear, stores_eccMark s rp c k data, ?train, stores_i3cGo s rp bus data,
    stores_schedCtrl s rp c _ rfl, stores_schedDisable s rp c data,
    stores_commandOffset rfl c (off := 0x400) (by decide) rfl fun w => by simp [afterChanReg],
    stores_commandOffset rfl c (off := 0x450) (by decide) rfl fun w => by simp [afterChanReg],
    stores_commandOffset rfl c (off := 0x600) (by decide) rfl fun w => by simp [afterChanReg],
    stores_commandOffset rfl c (off := 0x810) (by decide) rfl fun w => by simp [afterChanReg],
    stores_commandOffset rfl c (off := 0x310) (by decide) rfl fun w => by simp [afterChanReg],
    stores_commandOffset rfl c (off := 0x300) (by decide) rfl fun w => by simp [afterChanReg],
    stores_cryCtrl rfl, stores_cryCtrl rfl, ?qos,
    stores_of_block rfl (by decide) fun w => by simp [afterWrite, RING_CTRL, afterRing, ringDisabled, old],
    ?tbSet, ?pwrCmd, stores_mbxLock s rp data⟩
  case tel =>
    simp only [List.mem_cons, List.not_mem_nil, or_false]
    rintro x (rfl | rfl | rfl)
    all_goals exact stores_telCtrl rfl
  case train =>
    simp only [List.mem_cons, List.not_mem_nil, or_false]
    rintro x (rfl | rfl | rfl)
    all_goals exact stores_trnCmd s rp c data _ rfl
  case qos =>
    simp only [List.mem_cons, List.not_mem_nil, or_false]
    rintro x (rfl | rfl)
    all_goals exact (stores_qosCtrl rfl).congr fun e d => by simp [afterQos]
  case eccClear =>
    exact stores_commandOffset rfl c (off := 0x800) (by decide) rfl fun w => by
      simp [afterChanReg, setBits_bit, -BitVec.getLsbD_eq_getElem]
  case tbSet =>
    exact stores_of_block rfl (by decide) fun w => by
      simp [afterWrite, PWR_TB_SETC, go, setBits_bit, -BitVec.getLsbD_eq_getElem]
  case pwrCmd =>
    exact stores_of_block rfl (by decide) fun w => by
      simp [afterWrite, PWR_CMD, PWR_TB_SETC, go, setBits_bit, -BitVec.getLsbD_eq_getElem]

end Sys2Proof.Machine

/-! # Status registers, debug, injection, mailboxes and captures through the port (R47, R562–R584) -/

namespace Sys2Proof.Machine

/-! ## Registers that are no plain storage -/

section
variable {i : Instr} {s : State} {rp : RegPort} {a : Nat} {data : Word} {e : Engine}

/-- A command that writes a register with a function of its own. -/
theorem writes_of_special (hrun : exec i s = .next (s.runWrite fun _ x => portWrite x rp a data)) (h16 : a % 16 = 0)
    (h : special (traced s rp a data) rp a 0 data = some e) : Writes i s rp a data e := by
  refine writes_of_regWrite hrun ?_
  rw [valueAddr_of_aligned h16, aliasOf_of_aligned h16, regWrite, h]

/-- A command that writes a status register with SEQ. -/
theorem writes_of_seq {d : RegDesc} (hrun : exec i s = .next (s.runWrite fun _ x => portWrite x rp a data))
    (h16 : a % 16 = 0) (hspecial : ∀ x, special x rp a 0 data = none) (hd : regDesc a = some d)
    (hseq : isSeqReg d = true) (h : seqWrite (traced s rp a data) a (wordField data 31 24) = e) :
    Writes i s rp a data e := by
  refine writes_of_regWrite hrun ?_
  rw [valueAddr_of_aligned h16, aliasOf_of_aligned h16, regWrite, hspecial, hd, ← h]
  exact (if_pos hseq).trans (if_pos rfl)

end

/-! ## Status registers -/

theorem findIn_some {a : Nat} {d : RegDesc} {ds : List RegDesc} (h : findIn a ds = some d) :
    d ∈ ds ∧ d.base ≤ a ∧ inDims (a - d.base) d.dims = true := by
  induction ds with
  | nil => simp [findIn] at h
  | cons x xs ih =>
    rw [findIn] at h
    split at h
    next hx =>
      obtain rfl := Option.some.inj h
      exact ⟨List.mem_cons_self, hx⟩
    next =>
      obtain ⟨hmem, hrest⟩ := ih h
      exact ⟨List.mem_cons_of_mem _ hmem, hrest⟩

/-- The status registers of the MBX_ region. -/
theorem seqReg_mbx {a : Nat} {d : RegDesc} (hregion : a / 0x100000 = 7) (hd : regDesc a = some d)
    (hseq : isSeqReg d = true) : a = MBX_STATUS ∨ a = MBX_CFG_REJECT := by
  have hall : ∀ d ∈ mapMBX, isSeqReg d = true → d.dims = [] ∧ (d.base = MBX_STATUS ∨ d.base = MBX_CFG_REJECT) := by
    decide
  have hmap : registerMap a = mapMBX := by simp only [registerMap, hregion]
  rw [regDesc, hmap] at hd
  obtain ⟨hmem, hle, hin⟩ := findIn_some hd
  obtain ⟨hdims, hbase⟩ := hall d hmem hseq
  rw [hdims] at hin
  have hoff : a - d.base = 0 := by simpa [inDims] using hin
  have heq : a = d.base := by omega
  rwa [heq]

/-- The registers with functions of their own outside the MBX_ region are no status of SEQ. -/
theorem regDesc_special_plain : ∀ a ∈ [GC_WRW_SEL, GC_DBG_CORE, GC_CFG_GEN, FLT_INJECT, FLT_HIST_POP, FLT_SRC_CFG 0,
    FLT_SRC_CFG 1] ++ (List.range 16).map CH_CFG_GEN, (regDesc a).any isSeqReg = false := by decide

/-- A status register with SEQ has no other function at a write. -/
theorem special_of_seqReg {a : Nat} {d : RegDesc} (hd : regDesc a = some d) (hseq : isSeqReg d = true) (e : Engine)
    (p : RegPort) (al : Nat) (data : Word) : special e p a al data = none := by
  have hne : a ∉ [GC_WRW_SEL, GC_DBG_CORE, GC_CFG_GEN, FLT_INJECT, FLT_HIST_POP, FLT_SRC_CFG 0, FLT_SRC_CFG 1] ++
      (List.range 16).map CH_CFG_GEN := fun hmem => by
    have hplain := regDesc_special_plain a hmem
    rw [hd] at hplain
    exact Bool.false_ne_true (hplain.symm.trans hseq)
  simp only [List.mem_append, List.mem_cons, List.not_mem_nil, or_false, not_or] at hne
  obtain ⟨⟨hsel, hcore, hgen, hinj, hpop, hsrc0, hsrc1⟩, hch⟩ := hne
  have hchan : a ≠ CH_CFG_GEN (chIx a) :=
    fun h => hch (List.mem_map.mpr ⟨_, List.mem_range.mpr (chIx_lt a), h.symm⟩)
  unfold special
  split
  · simp [hsel, hcore, hgen]
  · exact if_neg fun hx => hchan hx.1
  · simp [hinj, hpop, hsrc0, hsrc1]
  next hregion =>
    rcases seqReg_mbx hregion hd hseq with rfl | rfl <;>
      simp [mbxSpecial, MBX_STATUS, MBX_CFG_REJECT, MBX_MB_STATE, MBX_MB_CMD, MBX_BIND, MBX_CORE_KICK, MBX_SEM_OP]
  · rfl

theorem seqWord_seq (q : BitVec 8) : wordField (seqWord q) 31 24 = q.toNat := by
  have hq := q.isLt
  simp only [wordField, seqWord, BitVec.toNat_ofNat]
  omega

theorem regDesc_wmStatus : ∀ k : Fin 16, (regDesc (TEL_WM_STATUS k)).any isSeqReg = true := by decide

section
variable (s : State) (rp : RegPort) (seq : BitVec 8)

theorem writes_seqClear {addr : BitVec 24} {d : RegDesc} (hd : regDesc (valueAddr addr.toNat) = some d)
    (hseq : isSeqReg d = true) :
    Writes (.seqClear rp addr seq) s rp (valueAddr addr.toNat) (seqWord seq)
      (seqWrite (traced s rp (valueAddr addr.toNat) (seqWord seq)) (valueAddr addr.toNat) seq.toNat) :=
  writes_of_seq rfl (by unfold valueAddr; omega) (special_of_seqReg hd hseq · rp 0 _) hd hseq
    (by rw [seqWord_seq])

theorem writes_wmNoticeClear (k : Fin 16) :
    Writes (.wmNoticeClear rp k seq) s rp (TEL_WM_STATUS k) (seqWord seq)
      (wmClear (traced s rp (TEL_WM_STATUS k) (seqWord seq)) k seq.toNat) := by
  have hk := k.isLt
  obtain ⟨d, hd, hseq⟩ := (Option.any_eq_true _ _).mp (regDesc_wmStatus k)
  refine writes_of_seq rfl (by simp only [TEL_WM_STATUS]; omega) (special_of_seqReg hd hseq · rp 0 _) hd hseq ?_
  have hdeg : TEL_WM_STATUS k ≠ QOS_DEGRADED := by simp only [TEL_WM_STATUS, QOS_DEGRADED]; omega
  have htel : TEL_WM_STATUS 0 ≤ TEL_WM_STATUS k ∧ TEL_WM_STATUS k / 0x100000 = 8 := by
    simp only [TEL_WM_STATUS]; omega
  have hix : (TEL_WM_STATUS k - TEL_WM_STATUS 0) / 0x20 = k := by simp only [TEL_WM_STATUS]; omega
  rw [seqWrite, if_neg hdeg, if_pos htel, hix, seqWord_seq]

theorem writes_qosDegradedClear :
    Writes (.qosDegradedClear rp seq) s rp QOS_DEGRADED (seqWord seq)
      (degradedClear (traced s rp QOS_DEGRADED (seqWord seq)) seq.toNat) := by
  have hany : (regDesc QOS_DEGRADED).any isSeqReg = true := by decide
  obtain ⟨d, hd, hseq⟩ := (Option.any_eq_true _ _).mp hany
  refine writes_of_seq rfl (by decide) (special_of_seqReg hd hseq · rp 0 _) hd hseq ?_
  rw [seqWrite, if_pos rfl, seqWord_seq]

end

/-! ## The window, the history and injection -/

theorem special_wrwSel (e : Engine) (p : RegPort) (data : Word) :
    special e p GC_WRW_SEL 0 data = some (wrwSelect e p 0 data) := by
  simp [special, GC_WRW_SEL]

theorem special_histPop (e : Engine) (p : RegPort) (data : Word) :
    special e p FLT_HIST_POP 0 data = some (histPop e (wordField data 5 0)) := by
  simp [special, FLT_HIST_POP, FLT_INJECT]

theorem special_inject (e : Engine) (p : RegPort) (data : Word) :
    special e p FLT_INJECT 0 data = some (fltInject e p data) := by
  simp [special, FLT_INJECT]

theorem special_dbgCore (e : Engine) (p : RegPort) (data : Word) :
    special e p GC_DBG_CORE 0 data = some (dbgCore e p 0 data) := by
  simp [special, GC_DBG_CORE, GC_WRW_SEL]

theorem wordField_setWidth (n : BitVec 6) : wordField (n.setWidth 32) 5 0 = n.toNat := by
  have hn := n.isLt
  simp only [wordField, BitVec.toNat_setWidth]
  omega

theorem getLsbD_setBits_ne {b i : Nat} (h : i ≠ b) (w : Word) : (setBits [b] w).getLsbD i = w.getLsbD i := by
  have hb : (BitVec.ofNat 32 (2 ^ b)).getLsbD i = false := by
    rw [BitVec.getLsbD_ofNat, Nat.testBit_two_pow_of_ne (Ne.symm h), Bool.and_false]
  show (w ||| BitVec.ofNat 32 (2 ^ b)).getLsbD i = _
  rw [BitVec.getLsbD_or, hb, Bool.or_false]

/-- A field beside the set bit stands as it was. -/
theorem wordField_setBits {b hi lo : Nat} (h : hi < b ∨ b < lo) (w : Word) :
    wordField (setBits [b] w) hi lo = wordField w hi lo := by
  refine Nat.eq_of_testBit_eq fun j => ?_
  rw [testBit_wordField, testBit_wordField]
  by_cases hj : j < hi + 1 - lo
  · rw [getLsbD_setBits_ne (by omega)]
  · simp [hj]

/-- The event of FLT_INJECT has the class of its field (R557). -/
theorem fltInject_of_go {e : Engine} {p : RegPort} {data : Word} (hgo : data.getLsbD 31 = true) :
    fltInject e p data =
      (let c := wf data FLT_INJECT_CLASS
       let source := wf data FLT_INJECT_SOURCE
       if on e FLT_CTRL_INJ_EN = false ∨ c = 3 ∨ srcDefined source = false ∨ (source ≤ 1 ∧ c ≠ 2) then
         reject e p FLT_INJECT 2
       else if source = 0 then reportFault e 0 .fatal false 0xFE000000 2
       else if c = 0 then raise e source .corrected 0xFE000000
       else if c = 1 then raise e source .contained 0xFE000000
       else raise e source .fatal 0xFE000000) := by
  simp only [fltInject, hgo, if_true]
  split_ifs <;> rfl

/-! ## Debug of a pair -/

/-- GC_DBG_CORE with its bit `b` of 31, 30 and 29 set (R580): alone it acts. -/
theorem dbgCore_of_bit {e : Engine} {p : RegPort} {b : Nat} {data : Word} (hb : b ∈ [31, 30, 29]) :
    let w := setBits [b] data
    let pair := wf data GC_DBG_CORE_PAIR
    let kept := storeReg e GC_DBG_CORE (setWordField (reg e GC_DBG_CORE) 24 24 pair)
    let one := [31, 30, 29].all fun j => !w.getLsbD j || j == b
    dbgCore e p 0 w = if on e GC_DBG_CTRL_DBG_EN = false then reject e p GC_DBG_CORE 3
        else if one = false then reject e p GC_DBG_CORE 2
        else if b ≠ 29 ∧ pair = 1 ∧ Config.dbgLock = true then reject e p GC_DBG_CORE 3
        else if b = 31 then setHalted (dbgTouch kept pair) pair true
        else if b = 30 then dbgTouch kept pair
        else setHalted kept pair false := by
  intro w pair kept one
  have hpair : wf (aliasApply 0 (reg e GC_DBG_CORE) w) GC_DBG_CORE_PAIR = pair := by
    refine wordField_setBits ?_ data
    simp only [List.mem_cons, List.not_mem_nil, or_false] at hb
    show 24 < b ∨ b < 24
    omega
  have hset : w.getLsbD b = true := by
    refine setBits_bit ?_ data
    simp only [List.mem_cons, List.not_mem_nil, or_false] at hb
    omega
  have hone : one = [31, 30, 29].all fun j => !w.getLsbD j || j == b := rfl
  simp only [dbgCore, hpair]
  rw [hone]
  simp only [kept]
  clear_value w pair
  simp only [List.mem_cons, List.not_mem_nil, or_false] at hb
  rcases hb with rfl | rfl | rfl
  · cases h30 : w.getLsbD 30 <;> cases h29 : w.getLsbD 29 <;> simp [hset, h30, h29, -BitVec.getLsbD_eq_getElem]
  · cases h31 : w.getLsbD 31 <;> cases h29 : w.getLsbD 29 <;> simp [hset, h31, h29, -BitVec.getLsbD_eq_getElem]
  · cases h31 : w.getLsbD 31 <;> cases h30 : w.getLsbD 30 <;> simp [hset, h31, h30, -BitVec.getLsbD_eq_getElem]

/-! ## Mailboxes and the watchdog of a pair -/

theorem special_mbx {a : Nat} (h : a / 0x100000 = 7) (e : Engine) (p : RegPort) (al : Nat) (data : Word) :
    special e p a al data = mbxSpecial e p a al data := by
  simp only [special, h]

theorem special_payload (e : Engine) (p : RegPort) (m ix : Fin 64) (data : Word) :
    special e p (MBX_MB_D m ix) 0 data = some (boxWrite e m ix p data) := by
  have hm := m.isLt
  have hix := ix.isLt
  have hlt : MBX_MB_D m ix < MBX_MB_STATE 0 := by simp only [MBX_MB_D, MBX_MB_STATE]; omega
  have hbox : (MBX_MB_D m ix - MBX_MB_D 0 0) / 0x400 = m := by simp only [MBX_MB_D]; omega
  have hword : (MBX_MB_D m ix - MBX_MB_D 0 0) % 0x400 / 0x10 = ix := by simp only [MBX_MB_D]; omega
  rw [special_mbx (by simp only [MBX_MB_D]; omega), mbxSpecial, if_pos hlt, hbox, hword]
  rfl

theorem special_boxCmd (e : Engine) (p : RegPort) (m : Fin 64) (data : Word) :
    special e p (MBX_MB_CMD m) 0 data = some (boxCmd e p m data) := by
  have hm := m.isLt
  have hge : ¬ MBX_MB_CMD m < MBX_MB_STATE 0 := by simp only [MBX_MB_CMD, MBX_MB_STATE]; omega
  have hrange : MBX_MB_CMD 0 ≤ MBX_MB_CMD m ∧ MBX_MB_CMD m < MBX_BIND 0 := by
    simp only [MBX_MB_CMD, MBX_BIND]; omega
  have hbox : (MBX_MB_CMD m - MBX_MB_CMD 0) / 0x10 = m := by simp only [MBX_MB_CMD]; omega
  rw [special_mbx (by simp only [MBX_MB_CMD]; omega), mbxSpecial, if_neg hge, if_pos hrange, hbox]
  rfl

theorem special_coreKick (e : Engine) (p : RegPort) (data : Word) :
    special e p MBX_CORE_KICK 0 data = some (kickWrite e p data) := by
  simp [special, mbxSpecial, MBX_CORE_KICK, MBX_MB_STATE, MBX_MB_CMD, MBX_BIND]

/-- R485: a payload write takes an EMPTY mailbox, goes on in one that its end claimed, and is denied in any other. -/
theorem boxWrite_eq (e : Engine) (m w : Nat) (p : RegPort) (v : Word) : boxWrite e m w p v =
    if boxUsable e m = false then boxFlag e MBX_STATUS_UNBOUND m
    else if boxEnd e m p = some false ∧ boxState e m = 0 then setReg (setBox e m 1) (MBX_MB_D m w) v
    else if boxEnd e m p = some true ∧ boxState e m = 0 then setReg (setBox e m 3) (MBX_MB_D m w) v
    else if (boxEnd e m p = some false ∧ boxState e m = 1) ∨ (boxEnd e m p = some true ∧ boxState e m = 3) then
      setReg e (MBX_MB_D m w) v
    else boxFlag e MBX_STATUS_WR_DENIED m := by
  unfold boxWrite
  split
  · rfl
  · generalize boxEnd e m p = en
    generalize boxState e m = st
    split
    case h_5 hhost0 hcore0 hhost1 hcore3 =>
      rw [if_neg fun h => hhost0 h.1 h.2, if_neg fun h => hcore0 h.1 h.2,
        if_neg fun h => h.elim (fun h => hhost1 h.1 h.2) fun h => hcore3 h.1 h.2]
    all_goals simp

theorem boxRing_eq (e : Engine) (m : Nat) (p : RegPort) : boxRing e m p =
    if boxEnd e m p = some true ∧ boxState e m = 3 then deliverBox e m 4 else boxFlag e MBX_STATUS_DB_REFUSED m := by
  unfold boxRing
  generalize boxEnd e m p = en
  generalize boxState e m = st
  split <;> simp_all

theorem boxRelease_eq (e : Engine) (m : Nat) (p : RegPort) : boxRelease e m p =
    if (boxEnd e m p = some false ∧ boxState e m = 1) ∨ (boxEnd e m p = some true ∧ boxState e m = 3) then setBox e m 0
    else boxFlag e MBX_STATUS_WR_DENIED m := by
  unfold boxRelease
  generalize boxEnd e m p = en
  generalize boxState e m = st
  split <;> simp_all

/-- MBX_MBm_CMD with one of its bits 31, 30 and 29 set. -/
theorem boxCmd_of_bit {e : Engine} {p : RegPort} {m b : Nat} (hb : b ∈ [31, 30, 29]) :
    boxCmd e p m (setBits [b] 0) = if boxUsable e m = false then boxFlag e MBX_STATUS_UNBOUND m
      else if b = 31 then boxConsume e m p
      else if b = 30 then (if isInternal p = false then reject e p (MBX_MB_CMD m) 2 else boxRing e m p)
      else boxRelease e m p := by
  have hbits : ∀ b ∈ [31, 30, 29], ∀ i ∈ [31, 30, 29], (setBits [b] 0).getLsbD i = (i == b) := by decide
  have hi (i : Nat) (h : i ∈ [31, 30, 29]) := hbits b hb i h
  simp only [boxCmd, hi 31 (by decide), hi 30 (by decide), hi 29 (by decide)]
  simp only [List.mem_cons, List.not_mem_nil, or_false] at hb
  rcases hb with rfl | rfl | rfl <;> cases boxUsable e m <;> cases isInternal p <;> simp

theorem kickWrite_eq {e : Engine} {p : RegPort} {data : Word} (h : data.getLsbD 0 = true) : kickWrite e p data =
    if p = .ext then reject e p MBX_CORE_KICK 2
    else mapCore e (if p = .mc01 then 0 else 1) fun c => { c with kick := e.clk.nominal } := by
  cases p <;> simp only [kickWrite, portPair, h, coreKick, reduceCtorEq, if_true, if_false]

/-! ## Captures -/

/-- A pending selection is captured: VALID with the words, or with BAD and none (R574). -/
theorem wrwDone_of_pend {e : Engine} {b : Nat} (hclk : clocked e = true) (h : (getWrw e b).pend = true) :
    wrwDone e b = putWrw (wrwCapture e b (getWrw e b).sel).2 b { getWrw e b with
      pend := false, valid := true, bad := (wrwCapture e b (getWrw e b).sel).1.isNone
      words := (wrwCapture e b (getWrw e b).sel).1.getD noWords } :=
  if_pos ⟨hclk, h⟩

theorem wrwDone_of_idle {e : Engine} {b : Nat} (h : (getWrw e b).pend = false) : wrwDone e b = e :=
  if_neg fun hx => Bool.false_ne_true (h.symm.trans hx.2)

/-- The capture that found the words `ws`, or found none for an undefined selector. -/
theorem wrwDone_of_capture {e x : Engine} {b : Nat} {ws : Option (List Word)} (hclk : clocked e = true)
    (h : (getWrw e b).pend = true) (hcap : wrwCapture e b (getWrw e b).sel = (ws, x)) :
    wrwDone e b = putWrw x b { getWrw e b with
      pend := false, valid := true, bad := ws.isNone, words := ws.getD noWords } := by
  rw [wrwDone_of_pend hclk h, hcap]

section
variable {e : Engine} (b : Nat)

/-- The capture of a channel's ECC log takes its oldest record out (R575). -/
theorem wrwCapture_ecc {n : Nat} (hn : n < 16) {r : EccRec} {rs : List EccRec} (h : (getChan e n).ecc = r :: rs) :
    wrwCapture e b (0x100 + n) = (some (eccWords r), putChan e n { getChan e n with ecc := rs }) := by
  have hin : inRange (0x100 + n) 0x100 0x10F = true := by simp [inRange]; omega
  have hix : 0x100 + n - 0x100 = n := by omega
  simp only [wrwCapture, hin, if_true, hix, h]

theorem wrwCapture_history {i : Nat} (hi : i < 32) : wrwCapture e b (0x500 + i) =
    (some (if h : i < e.flt.hist.length then histWords e.flt.hist[i] else noWords), e) := by
  have hix : 0x500 + i - 0x500 = i := by omega
  have hwords : ((e.flt.hist[i]?).map histWords).getD noWords =
      if h : i < e.flt.hist.length then histWords e.flt.hist[i] else noWords := by
    split
    next h => simp [h]
    next h => simp [h]
  rw [wrwCapture, ← hwords]
  simp [inRange, show ¬ 0x500 + i ≤ 0x10F by omega, show 0x500 + i ≠ 0x200 by omega, show ¬ 0x500 + i ≤ 0x31F by omega,
    show 0x500 + i ≠ 0x400 by omega, show 0x500 + i ≠ 0x401 by omega, show 0x500 + i ≤ 0x51F by omega]

theorem wrwCapture_timebase : wrwCapture e b 0x400 =
    (some (twoWords (tbNs e) ++ [word (e.clk.tb % nsUnit), word (tbUncert e)]), e) := by
  simp [wrwCapture, inRange]

/-- Selectors outside every row of R575 are undefined. -/
theorem wrwCapture_undefined {sel : Nat} (h : sel < 0x100 ∨ 0x110 ≤ sel ∧ sel < 0x200 ∨ 0x1600 ≤ sel ∧ sel < 0x2000 ∨
    0x2002 ≤ sel) : wrwCapture e b sel = (none, e) := by
  have hout (lo hi : Nat) (hr : ¬ (lo ≤ sel ∧ sel ≤ hi)) : inRange sel lo hi = false := by
    simpa [inRange] using hr
  rw [wrwCapture, hout 0x100 0x10F (by omega), hout 0x300 0x31F (by omega), hout 0x500 0x51F (by omega),
    hout 0x600 0x15FF (by omega), hout 0x2000 0x2001 (by omega)]
  simp [show sel ≠ 0x200 by omega, show sel ≠ 0x400 by omega, show sel ≠ 0x401 by omega, show sel ≠ 0x520 by omega]

end

/-! ## The parity sweep -/

theorem parityFault_of_good {e : Engine} {a : Nat} (h : badNow e a = 0) : parityFault e a = e :=
  if_pos (.inl h)

/-- R572: a mismatch is a fatal event of source 0x01, or of the fault block's own. -/
theorem parityFault_of_bad {e : Engine} {a : Nat} (h : badNow e a ≠ 0) (hpow : chanPowered e a = true) :
    parityFault e a =
      (let syn := BitVec.ofNat 32 (badNow e a * 2 ^ 24 + a)
       if a / 0x100000 = 5 then reportFault e 0 .fatal false syn 2 else reportFault e 1 .fatal false syn 0) :=
  if_neg (by simp [h, hpow])

/-! ## The obligation -/

/-- Settles O53: each command's write reaches its register's function; a capture and the sweep act on what they find. -/
theorem registerCommandsActOnTheirRegisters : Obligations.RegisterCommandsActOnTheirRegisters := by
  unfold Obligations.RegisterCommandsActOnTheirRegisters
  constructor
  · intro s rp addr data m ix k seq n t
    refine ⟨writes_of_regWrite rfl rfl, fun d hd hseq => writes_seqClear s rp seq hd hseq,
      writes_wmNoticeClear s rp seq k, writes_qosDegradedClear s rp seq,
      writes_of_special rfl (by decide) (special_wrwSel ..), ?_, ?_, ?_, ?_, ?_, ?_⟩
    · refine writes_of_special rfl (by decide) ?_
      rw [special_histPop, wordField_setWidth]
      rfl
    · refine writes_of_special rfl (by decide) ?_
      rw [special_inject, fltInject_of_go (setBits_bit (by decide) data)]
      have hclass : wf (setBits [31] data) FLT_INJECT_CLASS = wf data FLT_INJECT_CLASS :=
        wordField_setBits (by decide) data
      have hsource : wf (setBits [31] data) FLT_INJECT_SOURCE = wf data FLT_INJECT_SOURCE :=
        wordField_setBits (by decide) data
      simp only [hclass, hsource]
      rfl
    · have hbits : ∀ x ∈ [(Instr.dbgHalt rp data, 31), (.dbgStep rp data, 30), (.dbgResume rp data, 29)],
          x.2 ∈ [31, 30, 29] ∧ ∀ s : State, exec x.1 s =
            .next (s.runWrite fun _ y => portWrite y rp GC_DBG_CORE (setBits [x.2] data)) := by
        simp only [List.forall_mem_cons, List.not_mem_nil, false_imp_iff, implies_true, and_true]
        exact ⟨⟨by decide, fun s => rfl⟩, ⟨by decide, fun s => rfl⟩, by decide, fun s => rfl⟩
      intro x hx b w e pair kept one
      obtain ⟨hb, hrun⟩ := hbits x hx
      exact writes_of_special (hrun s) (by decide) ((special_dbgCore ..).trans (congrArg some (dbgCore_of_bit hb)))
    · intro e
      refine writes_of_special rfl (by simp only [MBX_MB_D]; omega) ?_
      rw [special_payload, boxWrite_eq]
    · have hbits : ∀ x ∈ [(Instr.mailboxConsume rp m, 31), (.mailboxRing rp m, 30), (.mailboxRelease rp m, 29)],
          x.2 ∈ [31, 30, 29] ∧ ∀ s : State, exec x.1 s =
            .next (s.runWrite fun _ y => portWrite y rp (MBX_MB_CMD m) (setBits [x.2] 0)) := by
        simp only [List.forall_mem_cons, List.not_mem_nil, false_imp_iff, implies_true, and_true]
        exact ⟨⟨by decide, fun s => rfl⟩, ⟨by decide, fun s => rfl⟩, by decide, fun s => rfl⟩
      intro x hx b e host core
      obtain ⟨hb, hrun⟩ := hbits x hx
      refine writes_of_special (hrun s) (by simp only [MBX_MB_CMD]; omega) ?_
      rw [special_boxCmd, boxCmd_of_bit hb, boxRing_eq, boxRelease_eq]
    · intro e
      refine writes_of_special rfl (by decide) ?_
      rw [special_coreKick, kickWrite_eq (setBits_bit (by decide) data)]
  · intro s rp hclk e w
    refine ⟨fun hpend => ⟨_, run_of_eq rfl, fun n hn hsel r rs hecc => ?_, fun i hi hsel => ?_, fun hsel => ?_,
      fun hsel => ?_⟩, fun hidle => run_of_eq (wrwDone_of_idle hidle), run_of_eq (if_pos hclk),
      fun x a => parityFault_of_good, fun x a => parityFault_of_bad⟩
    · exact wrwDone_of_capture hclk hpend (hsel ▸ wrwCapture_ecc _ hn hecc)
    · exact wrwDone_of_capture hclk hpend (hsel ▸ wrwCapture_history _ hi)
    · exact wrwDone_of_capture hclk hpend (hsel ▸ wrwCapture_timebase _)
    · exact wrwDone_of_capture hclk hpend (wrwCapture_undefined _ hsel)

end Sys2Proof.Machine

/-! # Loading and the stages of bring-up (R587–R596) -/

namespace Sys2Proof.Machine

/-! ## Loading -/

/-- An answer to FW_STAGE that is not OK: with FIN it has the length of a report. -/
def refuseLoad (x : Engine) (c : Cmd) (st : Nat) : Engine :=
  answer x 0 c.op c.tag st 0 (if (c.w 1).getLsbD 31 then [0, 0, 0] else [])

/-- The chunk of a FW_STAGE message joins what is staged. -/
def loadChunk (x : Engine) (c : Cmd) : Option FwStage :=
  stageChunk x.boot.stageBuf (c.f 1 1 0) (c.w 2).toNat (260 + payloadMax (c.f 1 1 0) + 3)
    (wordBytes ((c.words.take c.len).drop 3))

/-- The images of the other KINDs, with `is` behind them. -/
def keepImages (x : Engine) (kind : Nat) (is : List (Nat × Nat × List Byte)) : Engine :=
  mapBoot (putFwStage x none) fun b => { b with
    images := (b.images.filter fun (i : Nat × Nat × List Byte) => i.1 != kind) ++ is }

/-- A staged image with FIN: it is discarded, or takes the place of the one of its KIND (R588). -/
def finishLoad (x : Engine) (c : Cmd) (g : FwStage) : Engine :=
  match verifyStage g with
  | none => refuseLoad (keepImages x (c.f 1 1 0) []) c stDenied
  | some i => loadDone (answer (keepImages x (c.f 1 1 0) [(c.f 1 1 0, i.svn, i.payload)]) 0 c.op c.tag stOk 0
      [word (stageImage g).length, 0, word i.svn])

theorem mapBoot_congr {e : Engine} {f g : Boot → Boot} (h : f e.boot = g e.boot) : mapBoot e f = mapBoot e g :=
  congrArg (fun b => { e with boot := b }) h

section
variable {x : Engine} {c : Cmd} {g : FwStage}

theorem finishLoad_refused (h : verifyStage g = none) : finishLoad x c g =
    refuseLoad (mapBoot (putFwStage x none) fun b => { b with
      images := (putFwStage x none).boot.images.filter fun (i : Nat × Nat × List Byte) => i.1 != c.f 1 1 0 }) c stDenied := by
  have hkeep : keepImages x (c.f 1 1 0) [] = mapBoot (putFwStage x none) fun b => { b with
      images := (putFwStage x none).boot.images.filter fun (i : Nat × Nat × List Byte) => i.1 != c.f 1 1 0 } := by
    refine mapBoot_congr ?_
    simp only [List.append_nil]
  unfold finishLoad
  rw [h]
  exact congrArg (refuseLoad · c stDenied) hkeep

theorem finishLoad_verified {i : Image} (h : verifyStage g = some i) : finishLoad x c g =
    loadDone (answer (mapBoot (putFwStage x none) fun b => { b with
      images := ((putFwStage x none).boot.images.filter fun (y : Nat × Nat × List Byte) => y.1 != c.f 1 1 0) ++
        [(c.f 1 1 0, i.svn, i.payload)] }) 0 c.op c.tag stOk 0 [word (stageImage g).length, 0, word i.svn]) := by
  have hkeep : keepImages x (c.f 1 1 0) [(c.f 1 1 0, i.svn, i.payload)] = mapBoot (putFwStage x none) fun b => { b with
      images := ((putFwStage x none).boot.images.filter fun (y : Nat × Nat × List Byte) => y.1 != c.f 1 1 0) ++
        [(c.f 1 1 0, i.svn, i.payload)] } := mapBoot_congr rfl
  unfold finishLoad
  rw [h, ← hkeep]

end

/-- What the boot ROM does with the message of the boot mailbox. -/
def loadMessage (x : Engine) (c : Cmd) : Engine :=
  if c.op ≠ 0x0800 ∨ (c.w 0).getLsbD 31 ∨ c.w 1 &&& 0x7FFFFFFC ≠ 0 then answer x 0 c.op c.tag stUnsupported 0 []
  else if c.len < 3 ∨ c.len > 64 ∨ c.f 1 1 0 = 0 then refuseLoad x c stBadArg
  else match loadChunk x c with
    | none => refuseLoad x c stBadArg
    | some g => if (c.w 1).getLsbD 31 then finishLoad x c g else answer (putFwStage x (some g)) 0 c.op c.tag stOk 0 []

/-- In the Load stage the boot ROM takes the message of the boot mailbox. -/
theorem bootFwStage_of_request {e : Engine} (hbox : bootBox e 0 = true) (hfull : boxState e 0 = 2)
    (hstage : e.boot.stage = 1) (hruns : pairRuns e 1 = true) : bootFwStage e =
      loadMessage (traceRec (boxConsume e 0 .mc23) 3 (messageOf e 0).op ((messageOf e 0).w 0)) (messageOf e 0) := by
  have hcond : (bootBox e 0 && boxState e 0 == 2 && e.boot.stage == 1 && pairRuns e 1) = true := by
    simp [hbox, hfull, hstage, hruns]
  have hreply (x : Engine) (st : Nat) (body : List Word) : reply x (messageOf e 0) st 0 body =
      answer x 0 (messageOf e 0).op (messageOf e 0).tag st 0 body := rfl
  have hcmd : cmdOf 0 ((List.range 64).map fun i => reg e (MBX_MB_D 0 i)) = messageOf e 0 := rfl
  simp only [bootFwStage, hcond, if_true, hcmd, hreply]
  generalize traceRec (boxConsume e 0 .mc23) 3 (messageOf e 0).op ((messageOf e 0).w 0) = x
  generalize messageOf e 0 = c
  have hfail (y : Engine) (st : Nat) : (if (c.w 1).getLsbD 31 = true then answer y 0 c.op c.tag st 0 [0, 0, 0]
      else answer y 0 c.op c.tag st 0 []) = refuseLoad y c st := by
    unfold refuseLoad
    split <;> rfl
  simp only [hfail, loadMessage, loadChunk]
  split
  · rfl
  split
  · rfl
  cases stageChunk x.boot.stageBuf (c.f 1 1 0) (c.w 2).toNat (260 + payloadMax (c.f 1 1 0) + 3)
      (wordBytes ((c.words.take c.len).drop 3)) with
  | none => rfl
  | some g =>
    refine ite_congr rfl (fun _ => ?_) fun _ => rfl
    unfold finishLoad keepImages
    generalize verifyStage g = v
    cases v with
    | none => simp only [List.append_nil]
    | some i => rfl

section
variable {x : Engine} {c : Cmd} (hop : c.op = 0x0800) (hres : (c.w 0).getLsbD 31 = false)
  (hflags : c.w 1 &&& 0x7FFFFFFC = 0)
include hop hres hflags

/-- A FW_STAGE with no reserved bit set gets as far as its lengths. -/
theorem loadMessage_stage : loadMessage x c = if c.len < 3 ∨ c.len > 64 ∨ c.f 1 1 0 = 0 then refuseLoad x c stBadArg
    else match loadChunk x c with
      | none => refuseLoad x c stBadArg
      | some g =>
        if (c.w 1).getLsbD 31 then finishLoad x c g else answer (putFwStage x (some g)) 0 c.op c.tag stOk 0 [] := by
  refine if_neg ?_
  rw [hres, not_or, not_or]
  exact ⟨not_not.mpr hop, Bool.false_ne_true, not_not.mpr hflags⟩

theorem loadMessage_short (h : c.len < 3 ∨ 64 < c.len ∨ c.f 1 1 0 = 0) : loadMessage x c = refuseLoad x c stBadArg := by
  rw [loadMessage_stage hop hres hflags, if_pos h]

variable (hmin : 3 ≤ c.len) (hmax : c.len ≤ 64) (hkind : c.f 1 1 0 ≠ 0)
include hmin hmax hkind

theorem loadMessage_gap (h : loadChunk x c = none) : loadMessage x c = refuseLoad x c stBadArg := by
  rw [loadMessage_stage hop hres hflags, if_neg (by omega), h]

theorem loadMessage_part {g : FwStage} (h : loadChunk x c = some g) (hfin : (c.w 1).getLsbD 31 = false) :
    loadMessage x c = answer (putFwStage x (some g)) 0 c.op c.tag stOk 0 [] := by
  rw [loadMessage_stage hop hres hflags, if_neg (by omega), h]
  exact if_neg (by rw [hfin]; exact Bool.false_ne_true)

theorem loadMessage_fin {g : FwStage} (h : loadChunk x c = some g) (hfin : (c.w 1).getLsbD 31 = true) :
    loadMessage x c = finishLoad x c g := by
  rw [loadMessage_stage hop hres hflags, if_neg (by omega), h]
  exact if_pos hfin

end

/-- A pair is released with the SVN of its image. -/
def releaseCore (e : Engine) (p svn : Nat) : Engine :=
  mapCore e p fun c => { c with svn := svn, released := true, kick := e.clk.nominal }

theorem loadDone_of_three {e : Engine} {v1 v2 v3 : Nat} {i1 i2 i3 : List Byte} (h1 : bootImage e 1 = some (v1, i1))
    (h2 : bootImage e 2 = some (v2, i2)) (h3 : bootImage e 3 = some (v3, i3)) : loadDone e =
      mapBoot (wr (releaseCore (releaseCore e 1 v1) 0 v2) CRY_FW_SVN_RUN_SVN v1) fun b =>
        { b with stage := 2, recs := bootRecs (i3.length / 8) i3, stageBuf := none } := by
  simp only [loadDone, h1, h2, h3, releaseCore]

theorem releaseCore_cores (e : Engine) (p svn : Nat) : (releaseCore e p svn).cores =
    setNth e.cores p { nth e.cores p ⟨0, none, false, 0⟩ with
      svn := svn, released := true, kick := e.clk.nominal } := rfl

/-- With the third image the pairs are released and Config begins. -/
theorem loadDone_of_images {e : Engine} {v1 v2 v3 : Nat} {i1 i2 i3 : List Byte} (h1 : bootImage e 1 = some (v1, i1))
    (h2 : bootImage e 2 = some (v2, i2)) (h3 : bootImage e 3 = some (v3, i3)) (hcores : e.cores.length = 2) :
    (loadDone e).boot.stage = 2 ∧ (loadDone e).boot.recs = bootRecs (i3.length / 8) i3 ∧
      ((loadDone e).cores[0]?).map (fun c => (c.svn, c.released)) = some (v2, true) ∧
      ((loadDone e).cores[1]?).map (fun c => (c.svn, c.released)) = some (v1, true) := by
  obtain ⟨a, b, hab⟩ := List.length_eq_two.mp hcores
  have hload := loadDone_of_three h1 h2 h3
  rw [hload, mapBoot_boot, mapBoot_cores, wr_cores, releaseCore_cores, releaseCore_cores, hab]
  exact ⟨rfl, rfl, rfl, rfl⟩

/-! ## The stages -/

section
variable {e x : Engine} {times : List (Nat × Nat × Nat)} {resource : Bool}

section
variable (hclk : clocked e = true) (hruns : pairRuns e 0 = true) (hok : e.boot.failed = false) (hsafe : isSafe e = false)
include hclk hruns hok hsafe

/-- Mulum goes on with the stage that is next. -/
theorem bringUpStage_runs : bringUpStage e times resource = match stageRun e times resource with
    | .wait x => x
    | .done x => if e.boot.stage = 13 then bootRecord (mapBoot x fun b => { b with stage := e.boot.stage + 1 }) stOk
        e.boot.stage 0 none else mapBoot x fun b => { b with stage := e.boot.stage + 1 }
    | .fail x st ch r => bootRecord (mapBoot x fun b => { b with failed := true }) st e.boot.stage ch r := by
  have hcond : (clocked e && pairRuns e 0 && !e.boot.failed && !isSafe e) = true := by simp [hclk, hruns, hok, hsafe]
  exact if_pos hcond

theorem bringUpStage_wait (h : stageRun e times resource = .wait x) : bringUpStage e times resource = x := by
  rw [bringUpStage_runs hclk hruns hok hsafe, h]

theorem bringUpStage_done (h : stageRun e times resource = .done x) (hk : e.boot.stage ≠ 13) :
    bringUpStage e times resource = mapBoot x fun b => { b with stage := e.boot.stage + 1 } := by
  rw [bringUpStage_runs hclk hruns hok hsafe, h]
  exact if_neg hk

theorem bringUpStage_last (h : stageRun e times resource = .done x) (hk : e.boot.stage = 13) :
    bringUpStage e times resource = bootRecord (mapBoot x fun b => { b with stage := 14 }) stOk 13 0 none := by
  rw [bringUpStage_runs hclk hruns hok hsafe, h, hk]
  exact if_pos rfl

theorem bringUpStage_fail {st ch : Nat} {r : Option BootRec} (h : stageRun e times resource = .fail x st ch r) :
    bringUpStage e times resource = bootRecord (mapBoot x fun b => { b with failed := true }) st e.boot.stage ch r := by
  rw [bringUpStage_runs hclk hruns hok hsafe, h]

end

theorem stageRun_config (hk : e.boot.stage = 2) : stageRun e times resource = stageConfig e := by
  simp only [stageRun, hk]

theorem stageRun_power (hk : e.boot.stage = 3) : stageRun e times resource = stagePower e := by
  simp only [stageRun, hk]

theorem stageRun_geometry (hk : e.boot.stage = 5) : stageRun e times resource = stageGeometry e times := by
  simp only [stageRun, hk]

theorem stageRun_lock (hk : e.boot.stage = 12) : stageRun e times resource = stageLock e := by
  simp only [stageRun, hk]

theorem stageRun_open (hk : e.boot.stage = 13) : stageRun e times resource = stageOpen e := by
  simp only [stageRun, hk]

/-- The configuration is refused at its first record out of range (R592). -/
theorem stageConfig_badRec {r : BootRec} (h : badBootRec e = some r) : stageConfig e = .fail e stBadArg 0 (some r) := by
  simp only [stageConfig, h]

theorem stageConfig_unbound (h : badBootRec e = none) (hbind : bindsMb0 e = false) :
    stageConfig e = .fail e stBadArg 0 none := by
  simp only [stageConfig, h, hbind, Bool.not_false, or_true, if_true]

/-- Power is done only with the channels of CH_MASK powered (R593). -/
theorem reg_of_stagePower (h : stagePower e = .done x) : reg x PWR_CH_PWR = word (chMask e * 2 ^ 16 + chMask e) := by
  unfold stagePower at h
  simp only at h
  split at h
  next hreg =>
    obtain rfl := StageEnd.done.inj h
    exact hreg
  next => cases h

/-- An enable that the stage goes on from reads 1. -/
theorem top_of_setOrFail {p : RegPort} {a ch : Nat} (h : setOrFail e p a ch = .done x) : (reg x a).getLsbD 31 = true := by
  unfold setOrFail at h
  simp only at h
  split at h
  next htop =>
    obtain rfl := StageEnd.done.inj h
    exact htop
  next => cases h

theorem andThen_done {s : StageEnd} {f : Engine → StageEnd} (h : andThen s f = .done x) :
    ∃ y, s = .done y ∧ f y = .done x := by
  cases s with
  | done y => exact ⟨y, rfl, h⟩
  | wait y => cases h
  | fail y st ch r => cases h

theorem lock_of_stageLock (h : stageLock e = .done x) : on x MBX_CTRL_LOCK = true := by
  rw [on_top]
  exact top_of_setOrFail h

theorem enabled_of_stageOpen (h : stageOpen e = .done x) :
    on x GC_ING_CTRL_ING_EN = true ∧ on x PWR_CTRL_IN_SERVICE = true := by
  obtain ⟨y, hset, hy⟩ := andThen_done h
  obtain rfl := StageEnd.done.inj hy
  refine ⟨?_, ?_⟩
  · rw [on_top, reg_wr_ne _ _ _ (by decide), top_of_setOrFail hset]
  · rw [on, rd_wr_same _ _ (by decide) (by decide)]
    rfl

/-- Equal modules that fit the bin: Geometry computes the timing fields of every channel (R62, R161). -/
theorem stageGeometry_fits
    (heq : ∀ n ∈ bootChans e, reg e (CH_PHY_SPD n) = reg e (CH_PHY_SPD ((bootChans e).headD 0)))
    (hfit : ∀ n ∈ bootChans e, binRate e.clk.bin ≤ rd e (CH_PHY_SPD_MAX_RATE n) ∧ rateFits e n = true) :
    stageGeometry e times = .done ((bootChans e).foldl (chanTimes times) e) := by
  have hsame : (bootChans e).find? (fun n => reg e (CH_PHY_SPD n) != reg e (CH_PHY_SPD ((bootChans e).headD 0))) = none :=
    List.find?_eq_none.mpr fun n hn => by simp [heq n hn]
  have hrate : (bootChans e).find? (fun n => decide (rd e (CH_PHY_SPD_MAX_RATE n) < binRate e.clk.bin) ||
      !rateFits e n) = none :=
    List.find?_eq_none.mpr fun n hn => by
      obtain ⟨hbin, hmod⟩ := hfit n hn
      simp [Nat.not_lt.mpr hbin, hmod]
  simp only [stageGeometry, hsame, hrate]

end

/-- The cycles of a minimum time cover it, and no fewer do (R161). -/
theorem timCycles_least (rate ps : Nat) (ctl : Bool) : ps * rate ≤ timCycles rate ps ctl * (if ctl then 8000000 else 2000000) ∧
    ∀ c, ps * rate ≤ c * (if ctl then 8000000 else 2000000) → timCycles rate ps ctl ≤ c := by
  simp only [timCycles]
  generalize ps * rate = t
  have hu : 0 < if ctl = true then 8000000 else 2000000 := by split <;> decide
  generalize (if ctl = true then 8000000 else 2000000) = u at hu
  refine ⟨?_, fun c h => ?_⟩
  · have hlt := Nat.lt_mul_div_succ (t + u - 1) hu
    rw [Nat.mul_succ, Nat.mul_comm] at hlt
    omega
  · refine Nat.le_of_lt_succ ((Nat.div_lt_iff_lt_mul hu).mpr ?_)
    rw [Nat.succ_mul]
    omega

/-! ## The obligation -/

/-- Settles O56: the boot ROM's answers to a request, and the stages one after the other. -/
theorem bringUpTakesItsStages : Obligations.BringUpTakesItsStages := by
  unfold Obligations.BringUpTakesItsStages
  refine ⟨?load, fun e v1 v2 v3 i1 i2 i3 h1 h2 h3 hcores => loadDone_of_images h1 h2 h3 hcores, ?stages,
    fun rate ps ctl => timCycles_least rate ps ctl⟩
  case load =>
    intro s e c hbox hfull hstage hruns x kind fails chunk
    have hrun : bootFwStage e = loadMessage x c := bootFwStage_of_request hbox hfull hstage hruns
    have hout {y : Engine} (h : loadMessage x c = y) : Answers .bootFwStage s y := run_of_eq (hrun.trans h)
    clear_value x c
    refine ⟨fun hop => hout (if_pos (.inl hop)), fun hop hres hflags => ⟨fun h => ?_, fun hmin hmax hkind => ?_⟩⟩
    · exact hout (loadMessage_short hop hres hflags h)
    have hfin {g : FwStage} (hg : loadChunk x c = some g) (hf : (c.w 1).getLsbD 31 = true) :=
      loadMessage_fin hop hres hflags hmin hmax hkind hg hf
    refine ⟨fun h => hout (loadMessage_gap hop hres hflags hmin hmax hkind h), fun g hg => ?_⟩
    intro y rest
    refine ⟨fun hf => hout (loadMessage_part hop hres hflags hmin hmax hkind hg hf),
      fun hf hv => hout ((hfin hg hf).trans (finishLoad_refused hv)),
      fun i hf hv => hout ((hfin hg hf).trans (finishLoad_verified hv))⟩
  case stages =>
    intro s ts res e run k at'
    refine ⟨fun hclk hruns hok hsafe => ?_, fun hk => ?_, fun x hx => ⟨fun hk => ?_, fun hk => ?_, fun hk => ?_⟩, ?_⟩
    · exact ⟨fun x hx => runWrite_of_eq (bringUpStage_wait hclk hruns hok hsafe hx),
        fun x hx hk => runWrite_of_eq (bringUpStage_done hclk hruns hok hsafe hx hk),
        fun x hx hk => runWrite_of_eq (bringUpStage_last hclk hruns hok hsafe hx hk),
        fun x st ch r hx => runWrite_of_eq (bringUpStage_fail hclk hruns hok hsafe hx)⟩
    · have hrun : run = stageConfig e := stageRun_config hk
      exact ⟨fun r hr => hrun.trans (stageConfig_badRec hr), fun hr hb => hrun.trans (stageConfig_unbound hr hb)⟩
    · exact reg_of_stagePower ((stageRun_power hk).symm.trans hx)
    · exact lock_of_stageLock ((stageRun_lock hk).symm.trans hx)
    · exact enabled_of_stageOpen ((stageRun_open hk).symm.trans hx)
    · intro hk ns heq hfit
      exact (stageRun_geometry hk).trans (stageGeometry_fits heq hfit)

end Sys2Proof.Machine
